-- ==== Sys2Proof/Word.lean ====
section
/-! DEFINITION. The word types of the PMX-9160: bytes, 32-bit instruction words and 64-bit values (spec/00 R1, spec/01 R8). -/

namespace Sys2Proof

/-- One byte of any memory. -/
abbrev Byte := BitVec 8

/-- One instruction word (R8). -/
abbrev Word := BitVec 32

/-- One 64-bit register value, address or packet address. -/
abbrev DWord := BitVec 64

end Sys2Proof
end

