-- ==== Sys2Proof/Syntax.lean ====
section
/-! DEFINITION. The instructions and events of the PMX-9160: one constructor of Instr per row of spec/opcode_table.json.
A word instruction holds the raw fields of its encoding (R32), the chain bit c among them; Operands.lean reads the specifiers.
An event holds what names it (a crew, a block, a slot) and what the world outside the machine supplies with it (a flit, a host request). -/

namespace Sys2Proof

/-- One of the two issue streams of one half of a core (R214). Cores are numbered 0-511, 32 to a slice. -/
structure StreamRef where
  core : Nat
  half : Nat
  stream : Nat
  deriving DecidableEq, Repr

/-- A frozen unit (R381). A twin block is a block that uses two cores. -/
inductive FreezeUnit where
  /-- one block, or one twin block on both of its cores -/
  | block (id : Nat)
  /-- one stage group -/
  | stageGroup (id : Nat)
  /-- every block of a cooperative launch -/
  | launch (id : Nat)
  /-- every block of a context, named by partition × 2^32 + CTX, on a slice that is being vacated -/
  | contextOnSlice (ctx slice : Nat)
  deriving DecidableEq, Repr

/-- Who makes an access from outside the cores (R335, R430). -/
inductive HostAgent where
  | hart (n : Nat)
  /-- a function of a PCIe port: 0 and 1 are its physical functions, 2 + k the virtual function of slice k (log 47) -/
  | pcie (port fn : Nat)
  deriving DecidableEq, Repr

/-- What an outside access addresses: partition-global memory (R432), a vault (R239), a slice window (R436), the owner's mailbox in BAR0 of physical function 0 of
PCIe port 0 (R473), or, for a port's debug function, the saved state of a block handed over on BRK: a crew's trap frame and the block's scratchpad (R482);
an SBI call by which an OS stops or starts a host core of its partition, by package-wide number (R438); the interrupt file of a host core, which answers with the lowest
identity pending there and clears it (R435); or the system owner's own memory, in which the commands of its mailbox lie (R473, R474). -/
inductive HostTarget where
  | global (addr : Nat)
  | vault (core off : Nat)
  | window (slice off : Nat)
  | owner (off : Nat)
  | frame (port crew off : Nat)
  | blockSpad (port block side off : Nat)
  | sbi (hart : Nat) (runs : Bool)
  | imsic (hart : Nat)
  | ownerMem (addr : Nat)
  deriving DecidableEq, Repr

/-- What the OS sets of a source: the hart of its partition that it targets, its interrupt identity, and its enable bit (R435). -/
structure SourceSetting where
  src : Nat
  target : Nat
  identity : Nat
  enable : Bool := true
  deriving DecidableEq, Repr

/-- One access from outside the cores, with the source slice and the partition id it carries (R430);
data is what a write stores, and none stands for a read of len bytes. -/
structure HostReq where
  agent : HostAgent
  srcSlice : Nat
  pid : Nat
  target : HostTarget
  len : Nat
  data : Option (List Byte)
  deriving DecidableEq, Repr

/-- A fabric flit as it stands on the wire (R446): the header fields, the encrypted payload and the tag. -/
structure Flit where
  ftype : BitVec 4
  slot : Bool
  nak : Bool
  vc : BitVec 2
  len : BitVec 4
  seq : BitVec 16
  ackSeq : BitVec 16
  inv : Word
  dest : BitVec 16
  txn : BitVec 12
  fidx : BitVec 20
  payload : List Byte
  tag : BitVec 128
  deriving DecidableEq, Repr

/-- Why a slice leaves service (R485, R444; INFO of TYPE 0x0A in R456). -/
inductive TripKind where
  | electrical
  | thermal
  | reset
  | dieBridge
  deriving DecidableEq, Repr

/-- A tenant key wrapped under the key of an SPDM session (R475). -/
structure WrappedKey where
  session : Nat
  /-- the tenant who sends it -/
  tenant : Nat
  key : BitVec 256
  deriving DecidableEq, Repr

/-- A partition of the configuration block (R428, R476): its id and slices, whether an external host is attached, and the reset vector of its host cores. -/
structure FusePart where
  pid : Nat
  slices : List Nat
  attached : Bool := false
  vector : BitVec 64 := 0
  deriving DecidableEq, Repr

/-- The xSPI flash (R476, R481): whether the root image's two signatures verify, its security version, the configuration block, and the runtime firmware. -/
structure Flash where
  prafelOk : Bool := false
  ownerOk : Bool := false
  version : BitVec 16 := 0
  config : List FusePart := []
  image : List (BitVec 8) := []
  deriving DecidableEq, Repr

/-- What the physical world contributes to a boot (R476): the step at which it fails (0 for none), the slices that fail training, what has been staged in the flash
since the last one (R481), and the partitions whose owner still chooses port modes when the boot has fused them (R445, R474). -/
structure BootTrial where
  failStep : Nat
  untrained : List Nat
  staged : Option Flash := none
  held : List Nat := []
  deriving DecidableEq, Repr

/-- Who establishes an SPDM session (R475, R480, R482). -/
inductive SpdmRole where
  | runtime
  | attachedHost
  | tenantSession
  deriving DecidableEq, Repr

/-- What a TDISP request asks of the partition's interface (R479). -/
inductive TdispMove where
  | lock
  | start
  | stop
  deriving DecidableEq, Repr

/-- One rank of a roster (R302): the peer's node and context, whether the rank is usable, whether the peer's context runs
under a handle bound to the same tenant key (R416), and the ports that lead to it. -/
structure RosterEntry where
  node : Nat
  ctx : Nat
  usable : Bool
  sameKey : Bool
  /-- the fabric ports of this device that reach the peer's node, by their slice, each with the routing cost of the route beyond its own link (R452) -/
  ports : List (Nat × Nat)
  deriving DecidableEq, Repr

/-- The fresh keys and salts that the Harbourmaster installs when a link trains (R451). -/
structure LinkKeys where
  tx0 : BitVec 256 × BitVec 64
  tx1 : BitVec 256 × BitVec 64
  rx0 : BitVec 256 × BitVec 64
  rx1 : BitVec 256 × BitVec 64
  deriving DecidableEq, Repr

/-- The instructions and events, one constructor per row of spec/opcode_table.json. -/
inductive Instr where
  /-- NOP, R137: S-pipe word that does nothing. -/
  | nop (c : BitVec 1)
  /-- TRL, R24: Trailer that ends a run and names up to three registers whose pending results the next run of the group waits for. -/
  | trl (c : BitVec 1) (x : BitVec 6) (y : BitVec 6) (z : BitVec 6)
  /-- GRD, R124: Guards the next 1 to 8 words of the run with a predicate, optionally negated. -/
  | grd (c : BitVec 1) (p : BitVec 3) (n : BitVec 1) (k : BitVec 3)
  /-- WAITC, R127: Stalls until the crew's outstanding load, store, copy and tile-operation counts are at or below the given limits. -/
  | waitc (c : BitVec 1) (l : BitVec 4) (s : BitVec 4) (y : BitVec 6) (t : BitVec 4)
  /-- YIELD, R129: Places the issuing group behind every other ready group of its half for one selection. -/
  | yield (c : BitVec 1)
  /-- EXIT, R130: At run end the active lanes exit, and the crew ends with its last lane. -/
  | exit (c : BitVec 1)
  /-- FREEZE, R132: Checks the template crew, level and lanes, and at run end starts the taking of the level-1 or level-2 template image. -/
  | freeze (c : BitVec 1) (l : BitVec 2)
  /-- SETRL, R135: Sets %restart to its packet plus a signed offset, or traps with BOUNDS. -/
  | setrl (c : BitVec 1) (i : BitVec 21)
  /-- ELECT, R136: Sets a predicate true in the lowest active lane and false in the other active lanes. -/
  | elect (c : BitVec 1) (p : BitVec 3)
  /-- BR, R120: Unconditional branch by a 25-bit packet offset, taken at run end. -/
  | br (c : BitVec 1) (i : BitVec 25)
  /-- BRC, R121: Branch when a scalar compares with zero under the condition code. -/
  | brc (c : BitVec 1) (k : BitVec 3) (a : BitVec 5) (i : BitVec 17)
  /-- BRP, R120: Per-lane branch on a predicate, optionally inverted. -/
  | brp (c : BitVec 1) (p : BitVec 3) (n : BitVec 1) (i : BitVec 21)
  /-- CALL, R122: Writes the return address into v31 and transfers to the target at run end. -/
  | call (c : BitVec 1) (i : BitVec 25)
  /-- JMPI, R123: Indirect per-lane jump to the address held in an operand. -/
  | jmpi (c : BitVec 1) (a : BitVec 6)
  /-- RET, R123: Jumps to the address held in v31. -/
  | ret (c : BitVec 1)
  /-- JMPI_L, R123: Indirect jump that writes the return address into v31. -/
  | jmpiL (c : BitVec 1) (a : BitVec 6)
  /-- SADD, R115: Scalar sum modulo 2^w. -/
  | sadd (c : BitVec 1) (d : BitVec 5) (a : BitVec 5) (b : BitVec 5)
  /-- SSUB, R115: Scalar difference modulo 2^w. -/
  | ssub (c : BitVec 1) (d : BitVec 5) (a : BitVec 5) (b : BitVec 5)
  /-- SMUL, R115: Low half of the scalar product. -/
  | smul (c : BitVec 1) (d : BitVec 5) (a : BitVec 5) (b : BitVec 5)
  /-- SMULH, R115: High half of the signed scalar product. -/
  | smulh (c : BitVec 1) (d : BitVec 5) (a : BitVec 5) (b : BitVec 5)
  /-- SMULHN, R115: High half of the unsigned scalar product. -/
  | smulhn (c : BitVec 1) (d : BitVec 5) (a : BitVec 5) (b : BitVec 5)
  /-- SAND, R115: Scalar bitwise AND. -/
  | sand (c : BitVec 1) (d : BitVec 5) (a : BitVec 5) (b : BitVec 5)
  /-- SOR, R115: Scalar bitwise OR. -/
  | sor (c : BitVec 1) (d : BitVec 5) (a : BitVec 5) (b : BitVec 5)
  /-- SXOR, R115: Scalar bitwise exclusive OR. -/
  | sxor (c : BitVec 1) (d : BitVec 5) (a : BitVec 5) (b : BitVec 5)
  /-- SSHL, R115: Scalar shift left by a count taken modulo w. -/
  | sshl (c : BitVec 1) (d : BitVec 5) (a : BitVec 5) (b : BitVec 5)
  /-- SSHR, R115: Scalar logical shift right. -/
  | sshr (c : BitVec 1) (d : BitVec 5) (a : BitVec 5) (b : BitVec 5)
  /-- SSRA, R115: Scalar arithmetic shift right. -/
  | ssra (c : BitVec 1) (d : BitVec 5) (a : BitVec 5) (b : BitVec 5)
  /-- SMIN, R115: Signed scalar minimum. -/
  | smin (c : BitVec 1) (d : BitVec 5) (a : BitVec 5) (b : BitVec 5)
  /-- SMAX, R115: Signed scalar maximum. -/
  | smax (c : BitVec 1) (d : BitVec 5) (a : BitVec 5) (b : BitVec 5)
  /-- SMINN, R115: Unsigned scalar minimum. -/
  | sminn (c : BitVec 1) (d : BitVec 5) (a : BitVec 5) (b : BitVec 5)
  /-- SMAXN, R115: Unsigned scalar maximum. -/
  | smaxn (c : BitVec 1) (d : BitVec 5) (a : BitVec 5) (b : BitVec 5)
  /-- SEQ, R115: Writes 1 if the scalars are equal, else 0, tagged I64. -/
  | seq (c : BitVec 1) (d : BitVec 5) (a : BitVec 5) (b : BitVec 5)
  /-- SLT, R115: Writes 1 if a is signed-less than b, else 0. -/
  | slt (c : BitVec 1) (d : BitVec 5) (a : BitVec 5) (b : BitVec 5)
  /-- SLTN, R115: Writes 1 if a is unsigned-less than b, else 0. -/
  | sltn (c : BitVec 1) (d : BitVec 5) (a : BitVec 5) (b : BitVec 5)
  /-- SMOV, R116: Copies a scalar, optionally retagging it with the tag that SB selects. -/
  | smov (c : BitVec 1) (d : BitVec 5) (a : BitVec 5) (t : BitVec 5)
  /-- SADDI, R117: Adds a sign-extended 12-bit immediate to a scalar. -/
  | saddi (c : BitVec 1) (d : BitVec 5) (a : BitVec 5) (i : BitVec 12)
  /-- SANDI, R117: Scalar AND with an immediate. -/
  | sandi (c : BitVec 1) (d : BitVec 5) (a : BitVec 5) (i : BitVec 12)
  /-- SORI, R117: Scalar OR with an immediate. -/
  | sori (c : BitVec 1) (d : BitVec 5) (a : BitVec 5) (i : BitVec 12)
  /-- SXORI, R117: Scalar exclusive OR with an immediate. -/
  | sxori (c : BitVec 1) (d : BitVec 5) (a : BitVec 5) (i : BitVec 12)
  /-- SSHLI, R117: Scalar shift left by an immediate count. -/
  | sshli (c : BitVec 1) (d : BitVec 5) (a : BitVec 5) (n : BitVec 6)
  /-- SSHRI, R117: Scalar logical shift right by an immediate count. -/
  | sshri (c : BitVec 1) (d : BitVec 5) (a : BitVec 5) (n : BitVec 6)
  /-- SSRAI, R117: Scalar arithmetic shift right by an immediate count. -/
  | ssrai (c : BitVec 1) (d : BitVec 5) (a : BitVec 5) (n : BitVec 6)
  /-- SLTI, R117: Writes 1 if the scalar is signed-less than the immediate. -/
  | slti (c : BitVec 1) (d : BitVec 5) (a : BitVec 5) (i : BitVec 12)
  /-- SLI, R118: Writes a sign-extended 20-bit immediate to a scalar, tagged I64. -/
  | sli (c : BitVec 1) (d : BitVec 5) (i : BitVec 20)
  /-- SLIH, R118: Writes bits 39:20 of a scalar from an immediate and sign-extends above them. -/
  | slih (c : BitVec 1) (d : BitVec 5) (i : BitVec 20)
  /-- VADD, R145: Elementwise integer sum. -/
  | vadd (c : BitVec 1) (d : BitVec 6) (a : BitVec 6) (b : BitVec 6)
  /-- VSUB, R145: Elementwise integer difference. -/
  | vsub (c : BitVec 1) (d : BitVec 6) (a : BitVec 6) (b : BitVec 6)
  /-- VMUL, R145: Elementwise low product. -/
  | vmul (c : BitVec 1) (d : BitVec 6) (a : BitVec 6) (b : BitVec 6)
  /-- VMULH, R145: Elementwise signed high product. -/
  | vmulh (c : BitVec 1) (d : BitVec 6) (a : BitVec 6) (b : BitVec 6)
  /-- VMULHN, R145: Elementwise unsigned high product. -/
  | vmulhn (c : BitVec 1) (d : BitVec 6) (a : BitVec 6) (b : BitVec 6)
  /-- VAND, R145: Vector bitwise AND. -/
  | vand (c : BitVec 1) (d : BitVec 6) (a : BitVec 6) (b : BitVec 6)
  /-- VOR, R145: Vector bitwise OR. -/
  | vor (c : BitVec 1) (d : BitVec 6) (a : BitVec 6) (b : BitVec 6)
  /-- VXOR, R145: Vector bitwise exclusive OR. -/
  | vxor (c : BitVec 1) (d : BitVec 6) (a : BitVec 6) (b : BitVec 6)
  /-- VANDN, R145: Vector AND with the complement of B. -/
  | vandn (c : BitVec 1) (d : BitVec 6) (a : BitVec 6) (b : BitVec 6)
  /-- VSHL, R145: Elementwise shift left by one count. -/
  | vshl (c : BitVec 1) (d : BitVec 6) (a : BitVec 6) (b : BitVec 6)
  /-- VSHR, R145: Elementwise logical shift right. -/
  | vshr (c : BitVec 1) (d : BitVec 6) (a : BitVec 6) (b : BitVec 6)
  /-- VSRA, R145: Elementwise arithmetic shift right. -/
  | vsra (c : BitVec 1) (d : BitVec 6) (a : BitVec 6) (b : BitVec 6)
  /-- VMIN, R145: Elementwise signed minimum. -/
  | vmin (c : BitVec 1) (d : BitVec 6) (a : BitVec 6) (b : BitVec 6)
  /-- VMAX, R145: Elementwise signed maximum. -/
  | vmax (c : BitVec 1) (d : BitVec 6) (a : BitVec 6) (b : BitVec 6)
  /-- VMINN, R145: Elementwise unsigned minimum. -/
  | vminn (c : BitVec 1) (d : BitVec 6) (a : BitVec 6) (b : BitVec 6)
  /-- VMAXN, R145: Elementwise unsigned maximum. -/
  | vmaxn (c : BitVec 1) (d : BitVec 6) (a : BitVec 6) (b : BitVec 6)
  /-- VABS, R145: Elementwise absolute value, wrapping at the minimum. -/
  | vabs (c : BitVec 1) (d : BitVec 6) (a : BitVec 6) (b : BitVec 6)
  /-- VNEG, R145: Elementwise negation. -/
  | vneg (c : BitVec 1) (d : BitVec 6) (a : BitVec 6) (b : BitVec 6)
  /-- VCLZ, R145: Elementwise count of leading zero bits. -/
  | vclz (c : BitVec 1) (d : BitVec 6) (a : BitVec 6) (b : BitVec 6)
  /-- VPOPC, R145: Elementwise count of one bits. -/
  | vpopc (c : BitVec 1) (d : BitVec 6) (a : BitVec 6) (b : BitVec 6)
  /-- VADDS, R84: Elementwise saturating sum. -/
  | vadds (c : BitVec 1) (d : BitVec 6) (a : BitVec 6) (b : BitVec 6)
  /-- VSUBS, R84: Elementwise saturating difference. -/
  | vsubs (c : BitVec 1) (d : BitVec 6) (a : BitVec 6) (b : BitVec 6)
  /-- VBFE, R146: Extracts a bit field of A under position and length control. -/
  | vbfe (c : BitVec 1) (d : BitVec 6) (a : BitVec 6) (b : BitVec 6)
  /-- VBFI, R146: Inserts the low bits of A into a field of the destination register's value. -/
  | vbfi (c : BitVec 1) (d : BitVec 6) (a : BitVec 6) (b : BitVec 6)
  /-- VPACK, R147: Packs the low halves of A and B into one value. -/
  | vpack (c : BitVec 1) (d : BitVec 6) (a : BitVec 6) (b : BitVec 6)
  /-- VUNPK, R147: Takes the selected half of A into bits 31:0. -/
  | vunpk (c : BitVec 1) (d : BitVec 6) (a : BitVec 6) (b : BitVec 6)
  /-- VADDA, R145: Adds the absolute value of B to A elementwise. -/
  | vadda (c : BitVec 1) (d : BitVec 6) (a : BitVec 6) (b : BitVec 6)
  /-- VADDI, R148: Adds an immediate to every element. -/
  | vaddi (c : BitVec 1) (d : BitVec 6) (a : BitVec 6) (i : BitVec 10)
  /-- VANDI, R148: ANDs an immediate into every element. -/
  | vandi (c : BitVec 1) (d : BitVec 6) (a : BitVec 6) (i : BitVec 10)
  /-- VORI, R148: ORs an immediate into every element. -/
  | vori (c : BitVec 1) (d : BitVec 6) (a : BitVec 6) (i : BitVec 10)
  /-- VXORI, R148: Exclusive-ORs an immediate into every element. -/
  | vxori (c : BitVec 1) (d : BitVec 6) (a : BitVec 6) (i : BitVec 10)
  /-- VSHLI, R148: Shifts every element left by an immediate count. -/
  | vshli (c : BitVec 1) (d : BitVec 6) (a : BitVec 6) (n : BitVec 6)
  /-- VSHRI, R148: Logical right shift of every element by an immediate count. -/
  | vshri (c : BitVec 1) (d : BitVec 6) (a : BitVec 6) (n : BitVec 6)
  /-- VSRAI, R148: Arithmetic right shift of every element by an immediate count. -/
  | vsrai (c : BitVec 1) (d : BitVec 6) (a : BitVec 6) (n : BitVec 6)
  /-- VMULI, R148: Multiplies every element by an immediate. -/
  | vmuli (c : BitVec 1) (d : BitVec 6) (a : BitVec 6) (i : BitVec 10)
  /-- VLI, R149: Writes a value formed from a 15-bit immediate under the type field. -/
  | vli (c : BitVec 1) (d : BitVec 6) (t : BitVec 4) (i : BitVec 15)
  /-- FADD, R150: Rounded floating-point sum. -/
  | fadd (c : BitVec 1) (d : BitVec 6) (a : BitVec 6) (b : BitVec 6) (r : BitVec 2)
  /-- FSUB, R150: Rounded floating-point difference. -/
  | fsub (c : BitVec 1) (d : BitVec 6) (a : BitVec 6) (b : BitVec 6) (r : BitVec 2)
  /-- FMUL, R150: Rounded floating-point product. -/
  | fmul (c : BitVec 1) (d : BitVec 6) (a : BitVec 6) (b : BitVec 6) (r : BitVec 2)
  /-- FDIV, R150: Rounded floating-point quotient. -/
  | fdiv (c : BitVec 1) (d : BitVec 6) (a : BitVec 6) (b : BitVec 6) (r : BitVec 2)
  /-- FSQRT, R150: Rounded floating-point square root. -/
  | fsqrt (c : BitVec 1) (d : BitVec 6) (a : BitVec 6) (b : BitVec 6) (r : BitVec 2)
  /-- FMIN, R150: Smaller operand, NaN if either is NaN. -/
  | fmin (c : BitVec 1) (d : BitVec 6) (a : BitVec 6) (b : BitVec 6)
  /-- FMAX, R150: Larger operand, NaN if either is NaN. -/
  | fmax (c : BitVec 1) (d : BitVec 6) (a : BitVec 6) (b : BitVec 6)
  /-- FABS, R150: Clears the sign bit. -/
  | fabs (c : BitVec 1) (d : BitVec 6) (a : BitVec 6) (b : BitVec 6)
  /-- FNEG, R150: Inverts the sign bit. -/
  | fneg (c : BitVec 1) (d : BitVec 6) (a : BitVec 6) (b : BitVec 6)
  /-- FCOPYSIGN, R150: A with B's sign bit. -/
  | fcopysign (c : BitVec 1) (d : BitVec 6) (a : BitVec 6) (b : BitVec 6)
  /-- FMINNUM, R150: Smaller operand, preferring the number over a NaN. -/
  | fminnum (c : BitVec 1) (d : BitVec 6) (a : BitVec 6) (b : BitVec 6)
  /-- FMAXNUM, R150: Larger operand, preferring the number over a NaN. -/
  | fmaxnum (c : BitVec 1) (d : BitVec 6) (a : BitVec 6) (b : BitVec 6)
  /-- FFMA, R151: Fused multiply-add, a*b+c, with optional product negation, rounded once. -/
  | ffma (c : BitVec 1) (d : BitVec 6) (a : BitVec 6) (b : BitVec 6) (e : BitVec 6) (x : BitVec 1)
  /-- FFMAN, R151: Fused multiply-subtract, a*b-c, with optional product negation. -/
  | ffman (c : BitVec 1) (d : BitVec 6) (a : BitVec 6) (b : BitVec 6) (e : BitVec 6) (x : BitVec 1)
  /-- VIMAD, R152: Integer multiply-add or multiply-subtract modulo the element width. -/
  | vimad (c : BitVec 1) (d : BitVec 6) (a : BitVec 6) (b : BitVec 6) (e : BitVec 6) (x : BitVec 1)
  /-- FRCP, R153: Correctly rounded reciprocal. -/
  | frcp (c : BitVec 1) (d : BitVec 6) (a : BitVec 6) (b : BitVec 6)
  /-- FRSQ, R153: Correctly rounded reciprocal square root. -/
  | frsq (c : BitVec 1) (d : BitVec 6) (a : BitVec 6) (b : BitVec 6)
  /-- FEXP2, R153: Correctly rounded 2 to the power a. -/
  | fexp2 (c : BitVec 1) (d : BitVec 6) (a : BitVec 6) (b : BitVec 6)
  /-- FLOG2, R153: Correctly rounded base-2 logarithm. -/
  | flog2 (c : BitVec 1) (d : BitVec 6) (a : BitVec 6) (b : BitVec 6)
  /-- FSINPI, R153: Correctly rounded sin(pi a). -/
  | fsinpi (c : BitVec 1) (d : BitVec 6) (a : BitVec 6) (b : BitVec 6)
  /-- FCOSPI, R153: Correctly rounded cos(pi a). -/
  | fcospi (c : BitVec 1) (d : BitVec 6) (a : BitVec 6) (b : BitVec 6)
  /-- FTANH, R153: Correctly rounded tanh a. -/
  | ftanh (c : BitVec 1) (d : BitVec 6) (a : BitVec 6) (b : BitVec 6)
  /-- VCVT, R155: Converts each element to the target tag under the mode and SAT bit, filling the selected part. -/
  | vcvt (c : BitVec 1) (d : BitVec 6) (a : BitVec 6) (p : BitVec 3) (t : BitVec 4) (m : BitVec 2) (s : BitVec 1)
  /-- VCMP, R156: Compares A with B and writes, ANDs or ORs the result into a predicate. -/
  | vcmp (c : BitVec 1) (p : BitVec 3) (a : BitVec 6) (b : BitVec 6) (m : BitVec 2) (k : BitVec 4)
  /-- VSEL, R157: Selects A or B per lane by a predicate. -/
  | vsel (c : BitVec 1) (d : BitVec 6) (a : BitVec 6) (b : BitVec 6) (p : BitVec 3) (x : BitVec 1)
  /-- VDOT, R158: Short dot product of packed elements added to C, rounded once. -/
  | vdot (c : BitVec 1) (d : BitVec 6) (a : BitVec 6) (b : BitVec 6) (e : BitVec 6) (x : BitVec 1)
  /-- PAND, R159: Predicate AND. -/
  | pand (c : BitVec 1) (d : BitVec 3) (a : BitVec 3) (b : BitVec 3)
  /-- POR, R159: Predicate OR. -/
  | por (c : BitVec 1) (d : BitVec 3) (a : BitVec 3) (b : BitVec 3)
  /-- PXOR, R159: Predicate exclusive OR. -/
  | pxor (c : BitVec 1) (d : BitVec 3) (a : BitVec 3) (b : BitVec 3)
  /-- PANDN, R159: Predicate AND with the complement of the second. -/
  | pandn (c : BitVec 1) (d : BitVec 3) (a : BitVec 3) (b : BitVec 3)
  /-- PTOV, R159: Packs p7 to p0 into a vector value tagged N32. -/
  | ptov (c : BitVec 1) (d : BitVec 6)
  /-- VTOP, R159: Loads p1 to p7 from bits 1 to 7 of a value. -/
  | vtop (c : BitVec 1) (a : BitVec 6)
  /-- VTOS, R160: Copies the lowest active lane's value into a scalar. -/
  | vtos (c : BitVec 1) (s : BitVec 5) (a : BitVec 6)
  /-- STOV, R160: Broadcasts a scalar to every active lane. -/
  | stov (c : BitVec 1) (d : BitVec 6) (s : BitVec 5)
  /-- VRETAG, R160: Gives a value a new tag without changing its bits. -/
  | vretag (c : BitVec 1) (d : BitVec 6) (a : BitVec 6) (t : BitVec 4)
  /-- SHFL, R168: Reads A from the indexed lane of the tile. -/
  | shfl (c : BitVec 1) (d : BitVec 6) (a : BitVec 6) (b : BitVec 6) (p : BitVec 1) (m : BitVec 3)
  /-- SHFLUP, R168: Reads A from the lane b positions below. -/
  | shflup (c : BitVec 1) (d : BitVec 6) (a : BitVec 6) (b : BitVec 6) (p : BitVec 1) (m : BitVec 3)
  /-- SHFLDN, R168: Reads A from the lane b positions above. -/
  | shfldn (c : BitVec 1) (d : BitVec 6) (a : BitVec 6) (b : BitVec 6) (p : BitVec 1) (m : BitVec 3)
  /-- SHFLX, R168: Reads A from the lane at position XOR b. -/
  | shflx (c : BitVec 1) (d : BitVec 6) (a : BitVec 6) (b : BitVec 6) (p : BitVec 1) (m : BitVec 3)
  /-- BCAST, R168: Broadcasts A from the lane indexed by the lowest present lane's B. -/
  | bcast (c : BitVec 1) (d : BitVec 6) (a : BitVec 6) (b : BitVec 6) (p : BitVec 1) (m : BitVec 3)
  /-- VOTE_ANY, R170: 1 if some member counts 1. -/
  | voteAny (c : BitVec 1) (d : BitVec 6) (p : BitVec 3) (m : BitVec 3)
  /-- VOTE_ALL, R170: 1 if every member counts 1. -/
  | voteAll (c : BitVec 1) (d : BitVec 6) (p : BitVec 3) (m : BitVec 3)
  /-- VOTE_BAL, R169: Mask of the members that count 1. -/
  | voteBal (c : BitVec 1) (d : BitVec 6) (p : BitVec 3) (m : BitVec 3)
  /-- VOTE_EQ, R169: 1 if all members count alike. -/
  | voteEq (c : BitVec 1) (d : BitVec 6) (p : BitVec 3) (m : BitVec 3)
  /-- REDADD, R172: Sum over present members by the fixed pairwise tree. -/
  | redadd (c : BitVec 1) (d : BitVec 6) (a : BitVec 6) (m : BitVec 3)
  /-- REDMIN, R172: Minimum over present members. -/
  | redmin (c : BitVec 1) (d : BitVec 6) (a : BitVec 6) (m : BitVec 3)
  /-- REDMAX, R172: Maximum over present members. -/
  | redmax (c : BitVec 1) (d : BitVec 6) (a : BitVec 6) (m : BitVec 3)
  /-- REDAND, R169: AND over present members. -/
  | redand (c : BitVec 1) (d : BitVec 6) (a : BitVec 6) (m : BitVec 3)
  /-- REDOR, R169: OR over present members. -/
  | redor (c : BitVec 1) (d : BitVec 6) (a : BitVec 6) (m : BitVec 3)
  /-- REDXOR, R169: Exclusive OR over present members. -/
  | redxor (c : BitVec 1) (d : BitVec 6) (a : BitVec 6) (m : BitVec 3)
  /-- SCANADD, R108: Inclusive prefix sum over present members. -/
  | scanadd (c : BitVec 1) (d : BitVec 6) (a : BitVec 6) (m : BitVec 3)
  /-- SCANADDX, R108: Exclusive prefix sum over present members. -/
  | scanaddx (c : BitVec 1) (d : BitVec 6) (a : BitVec 6) (m : BitVec 3)
  /-- MATCH, R169: Mask of present members whose A equals this lane's in value and tag. -/
  | xmatch (c : BitVec 1) (d : BitVec 6) (a : BitVec 6) (m : BitVec 3)
  /-- LD, R246: Per-lane load from scratchpad, vault or berth, pushed at issue and pending until returned. -/
  | ld (c : BitVec 1) (d : BitVec 6) (a : BitVec 6) (p : BitVec 2) (z : BitVec 3) (t : BitVec 4) (o : BitVec 2) (m : BitVec 2)
  /-- ST, R247: Per-lane store entered into the crew's store queue. -/
  | st (c : BitVec 1) (d : BitVec 6) (a : BitVec 6) (p : BitVec 2) (z : BitVec 3) (t : BitVec 4) (o : BitVec 2) (m : BitVec 2)
  /-- ATOM, R249: Per-lane ticketed atomic entered into the store queue, returning the old value. -/
  | atom (c : BitVec 1) (d : BitVec 6) (a : BitVec 6) (p : BitVec 2) (z : BitVec 3) (k : BitVec 4) (o : BitVec 2) (m : BitVec 2)
  /-- FENCE, R254: Stalls until earlier accesses have returned or performed at the named scope. -/
  | fence (c : BitVec 1) (s : BitVec 3)
  /-- PUBLISH, R259: After earlier stores perform, inverts a berth's visible side in one action. -/
  | publish (c : BitVec 1) (b : BitVec 4) (t : BitVec 1)
  /-- BERTH_SET, R256: Installs a berth descriptor in the core's berth table for the issuing block. -/
  | berthSet (c : BitVec 1) (b : BitVec 4) (a : BitVec 5)
  /-- BERTH_CLR, R257: Invalidates a berth-table entry that the block owns. -/
  | berthClr (c : BitVec 1) (b : BitVec 4)
  /-- LDT, R267: Tile operation that copies a strided memory region into a tile view. -/
  | ldt (c : BitVec 1) (t : BitVec 4) (a : BitVec 5) (b : BitVec 5) (p : BitVec 2)
  /-- STT, R267: Tile operation that copies a tile view into memory. -/
  | stt (c : BitVec 1) (t : BitVec 4) (a : BitVec 5) (b : BitVec 5) (p : BitVec 2)
  /-- LND_INIT, R264: Writes a landing whole with its reset values and EXP. -/
  | lndInit (c : BitVec 1) (a : BitVec 5) (b : BitVec 5) (s : BitVec 3)
  /-- LND_EXPECT_IN, R264: Adds a byte count to a landing's INB. -/
  | lndExpectIn (c : BitVec 1) (a : BitVec 5) (b : BitVec 5) (s : BitVec 3)
  /-- LND_EXPECT_OUT, R264: Adds a byte count to a landing's OUTB. -/
  | lndExpectOut (c : BitVec 1) (a : BitVec 5) (b : BitVec 5) (s : BitVec 3)
  /-- LND_ARRIVE, R264: Lowers ARR by one as a release and returns the prior GEN. -/
  | lndArrive (c : BitVec 1) (d : BitVec 5) (a : BitVec 5) (s : BitVec 3)
  /-- LND_WAIT, R265: Stalls until the landing's GEN differs from the captured one, or traps on fault status. -/
  | lndWait (c : BitVec 1) (a : BitVec 5) (b : BitVec 5) (s : BitVec 3)
  /-- LND_TEST, R264: Reads bits 31:0 of a landing with acquire ordering. -/
  | lndTest (c : BitVec 1) (d : BitVec 5) (a : BitVec 5) (s : BitVec 3)
  /-- STRM_SET, R270: Installs a Pilot stream descriptor on an operand queue. -/
  | strmSet (c : BitVec 1) (a : BitVec 5) (q : BitVec 2)
  /-- STRM_STOP, R270: Discards an operand queue. -/
  | strmStop (c : BitVec 1) (q : BitVec 2)
  /-- FCOPY, R295: Ferry command that copies a strided region of up to four dimensions. -/
  | fcopy (c : BitVec 1) (d : BitVec 5) (a : BitVec 5) (b : BitVec 5) (l : BitVec 1)
  /-- FGATH, R298: Ferry command that gathers indexed elements into a contiguous list. -/
  | fgath (c : BitVec 1) (d : BitVec 5) (a : BitVec 5) (b : BitVec 5) (l : BitVec 1)
  /-- FSCAT, R298: Ferry command that scatters a contiguous list to indexed elements. -/
  | fscat (c : BitVec 1) (d : BitVec 5) (a : BitVec 5) (b : BitVec 5) (l : BitVec 1)
  /-- FATOM, R300: Ticketed far-memory atomic performed at the L2, with the old value written to scratchpad. -/
  | fatom (c : BitVec 1) (d : BitVec 5) (a : BitVec 5) (b : BitVec 5) (l : BitVec 1)
  /-- FPUT, R304: Ticketed remote write to a roster peer, counted part by part. -/
  | fput (c : BitVec 1) (d : BitVec 5) (a : BitVec 5) (b : BitVec 5) (l : BitVec 1)
  /-- FPUTS, R304: Remote write whose remote landing is counted down once when the whole payload is visible. -/
  | fputs (c : BitVec 1) (d : BitVec 5) (a : BitVec 5) (b : BitVec 5) (l : BitVec 1)
  /-- FGET, R304: Remote read from a roster peer into local memory. -/
  | fget (c : BitVec 1) (d : BitVec 5) (a : BitVec 5) (b : BitVec 5) (l : BitVec 1)
  /-- COLL_ALLRED, R307: All-reduce over the group in ascending roster rank. -/
  | collAllred (c : BitVec 1) (d : BitVec 5) (a : BitVec 5) (b : BitVec 5) (l : BitVec 1)
  /-- COLL_ALLGATH, R307: All-gather of every member's elements. -/
  | collAllgath (c : BitVec 1) (d : BitVec 5) (a : BitVec 5) (b : BitVec 5) (l : BitVec 1)
  /-- COLL_REDSCAT, R307: Reduce-scatter over the group. -/
  | collRedscat (c : BitVec 1) (d : BitVec 5) (a : BitVec 5) (b : BitVec 5) (l : BitVec 1)
  /-- COLL_BCAST, R307: Broadcast of the root's elements. -/
  | collBcast (c : BitVec 1) (d : BitVec 5) (a : BitVec 5) (b : BitVec 5) (l : BitVec 1)
  /-- COLL_CBAR, R308: Collective barrier over the group. -/
  | collCbar (c : BitVec 1) (d : BitVec 5) (a : BitVec 5) (b : BitVec 5) (l : BitVec 1)
  /-- NMC, R311: Ticketed near-memory command on one interleave granule with a completion record. -/
  | nmc (c : BitVec 1) (d : BitVec 5) (a : BitVec 5) (b : BitVec 5)
  /-- FPREF, R314: Prefetches a global range into the slice L2 with a hint. -/
  | fpref (c : BitVec 1) (a : BitVec 5) (b : BitVec 5) (h : BitVec 2)
  /-- FCANCEL, R315: Stops an unfinished replayable command of the crew and returns the bytes cancelled. -/
  | fcancel (c : BitVec 1) (d : BitVec 5) (a : BitVec 5)
  /-- MMA, R182: Queued matrix multiply-accumulate into accumulator memory, on one core or a twin. -/
  | mma (c : BitVec 1) (b : BitVec 6) (a : BitVec 4) (t : BitVec 4) (n : BitVec 6) (m : BitVec 2) (g : BitVec 1) (z : BitVec 1) (w : BitVec 1)
  /-- MOVTS, R188: Writes a tile's shape record from a scalar at issue. -/
  | movts (c : BitVec 1) (t : BitVec 4) (a : BitVec 5)
  /-- MOVST, R188: Reads a tile's shape record into a scalar. -/
  | movst (c : BitVec 1) (d : BitVec 5) (t : BitVec 4)
  /-- ACCZ, R191: Tile operation that zeroes an accumulator and resets its check entries. -/
  | accz (c : BitVec 1) (a : BitVec 5)
  /-- MCHK, R192: Tile operation that returns and clears the block's matrix check status. -/
  | mchk (c : BitVec 1) (d : BitVec 5)
  /-- TCVT, R190: Tile operation that converts a tile view in place to a new format. -/
  | tcvt (c : BitVec 1) (t : BitVec 4) (s : BitVec 1) (m : BitVec 2) (f : BitVec 4)
  /-- TZERO, R189: Tile operation that zeroes a tile's storage. -/
  | tzero (c : BitVec 1) (t : BitVec 4)
  /-- ACCST, R196: Tile operation that drains an accumulator through the epilogue into scratchpad or vault. -/
  | accst (c : BitVec 1) (d : BitVec 5) (a : BitVec 5) (b : BitVec 5) (x : BitVec 1) (y : BitVec 1) (q : BitVec 1) (p : BitVec 1) (u : BitVec 1) (f : BitVec 3) (t : BitVec 2)
  /-- ACCLD, R193: Tile operation that loads an accumulator from memory. -/
  | accld (c : BitVec 1) (d : BitVec 5) (a : BitVec 5) (p : BitVec 1)
  /-- TRAP, R374: Raises a TRAP cause carrying a 12-bit code. -/
  | trap (c : BitVec 1) (n : BitVec 12)
  /-- RTE_RETRY, R375: Returns from a handler and issues the trapping word again. -/
  | rteRetry (c : BitVec 1)
  /-- RTE_COMMIT, R375: Returns from a handler, committing h0 as the word's result and merging its flags. -/
  | rteCommit (c : BitVec 1)
  /-- RTE_SKIP, R375: Returns from a handler passing over the trapping word. -/
  | rteSkip (c : BitVec 1)
  /-- BRK, R374: Raises a BRK cause to the supervisor with a 12-bit code. -/
  | brk (c : BitVec 1) (n : BitVec 12)
  /-- CSRR, R379: Reads a control register into a scalar. -/
  | csrr (c : BitVec 1) (d : BitVec 5) (r : BitVec 12)
  /-- CSRW, R379: Writes a control register from a scalar. -/
  | csrw (c : BitVec 1) (a : BitVec 5) (r : BitVec 12)
  /-- CSRS, R379: Sets control register bits from a scalar. -/
  | csrs (c : BitVec 1) (a : BitVec 5) (r : BitVec 12)
  /-- CSRC, R379: Clears control register bits from a scalar. -/
  | csrc (c : BitVec 1) (a : BitVec 5) (r : BitVec 12)
  /-- LAUNCH, R347: Waits as FENCE.SYS, then submits a launch record into a queue ring and returns its launch id. -/
  | launch (c : BitVec 1) (d : BitVec 5) (a : BitVec 5) (b : BitVec 5)
  /-- ILLEGAL_OPCODE_WORD, R35: Issue of a word whose major opcode is 0x30-0x3F or whose function or sub-op code no group assigns traps with ILLEGAL. -/
  | illegalOpcodeWord (w : Word)
  /-- ISSUE_OPPORTUNITY, R215: A free issue stream selects an eligible program-counter group and starts or continues its run. -/
  | issueOpportunity (r : StreamRef)
  /-- RUN_END, R21: At the end of a run the control transfer takes effect, the queue empties and groups split or merge. -/
  | runEnd
  /-- LOAD_RETURN, R246: A lane's load data returns and fills the pending register and queue entry. -/
  | loadReturn (crew lane : Nat)
  /-- STORE_PERFORM, R247: The oldest store-queue entry performs and becomes visible to the core. -/
  | storePerform (crew : Nat)
  /-- VAULT_STORE_HOME_ARRIVAL, R317: A vault store reaches its home vault and performs at wider scopes. -/
  | vaultStoreHomeArrival (core n : Nat)
  /-- ATOM_HOME_APPLY, R250: An atomic or vault LND update is applied indivisibly at its home. -/
  | atomHomeApply (crew : Nat)
  /-- ATOM_REPLY_RETURN, R250: The old values of an atomic return and its counters fall. -/
  | atomReplyReturn (crew op : Nat)
  /-- LANDING_UPDATE_APPLY, R261: An update of a landing is applied at its home and the phase tested. -/
  | landingUpdateApply (n : Nat)
  /-- STREAM_ELEMENT_FETCH, R271: The Pilot fetches a stream element ahead into an operand queue. -/
  | streamElementFetch (crew k lane : Nat)
  /-- TILE_OP_START, R175: The head tile operation of a tile queue begins once earlier ones have completed. -/
  | tileOpStart (block side : Nat)
  /-- MMA_TWIN_ENGAGE, R183: A twin MMA at the head of the leader's queue enters the follower's queue and starts on both arrays. -/
  | mmaTwinEngage (block : Nat)
  /-- TILE_OP_COMPLETE, R175: A tile operation completes and leaves the TILEOPS counter. -/
  | tileOpComplete (block side : Nat)
  /-- ENGINE_TRANSFER_PART, R295: An engine command moves a part of its data and counts its landing down. -/
  | engineTransferPart (core slot n : Nat)
  /-- FAULT_QUEUE_RECORD_WRITE, R408: A paused command writes its fault record into the slice fault queue when there is room. -/
  | faultQueueRecordWrite (core slot : Nat)
  /-- FQ_RESOLVE_RESUME, R409: FQ_RESOLVE write with a resume verdict makes the paused command translate again. -/
  | fqResolveResume (slice ftag : Nat)
  /-- FQ_RESOLVE_UNRESOLVABLE, R288: FQ_RESOLVE write with an unresolvable verdict ends the paused command with a fault. -/
  | fqResolveUnresolvable (slice ftag : Nat)
  /-- ENGINE_COMMAND_COMPLETE, R284: An engine command completes, releases its slot and leaves COPIES. -/
  | engineCommandComplete (core slot : Nat)
  /-- FATOM_PERFORM, R300: A far atomic is performed indivisibly at the L2 and its old value written. -/
  | fatomPerform (core slot : Nat)
  /-- NMC_RUN, R312: A near-memory engine runs an NMC in ascending sector order and writes its record. -/
  | nmcRun (core slot : Nat)
  /-- CBAR_ARRIVAL, R308: When every member has issued its CBAR, the landing's ARR falls by one. -/
  | cbarArrival (core slot : Nat)
  /-- TICKETED_REQUEST_ARRIVAL, R387: A ticketed request at a target is applied once or answered from the duplicate filter. -/
  | ticketedRequestArrival (n : Nat)
  /-- FABRIC_ACK_RECEIVE, R304: A peer's acknowledgement of a sent part counts the local landing's OUTB down. -/
  | fabricAckReceive (slice txn n : Nat)
  /-- HANDLER_ENTRY, R368: After pending queue entries fill, the trap frame is written and the group starts the handler. -/
  | handlerEntry (crew : Nat)
  /-- DEFERRED_TRAP_ENTRY, R361: A deferred trap is taken at the crew's next chain group after its event. -/
  | deferredTrapEntry (crew : Nat)
  /-- RENDEZVOUS_TIMEOUT, R166: A rendezvous waited 2^24 cycles traps with RVTO. -/
  | rendezvousTimeout (crew group : Nat)
  /-- TEMPLATE_CREW_CREATE, R220: The scheduler stages segment and vault cargo and creates the launch's template crew. -/
  | templateCrewCreate (launch core : Nat)
  /-- IMAGE_TAKE, R222: After FREEZE's waits, the template image is taken and stamped into crews as one action. -/
  | imageTake (crew : Nat)
  /-- DOORBELL_WRITE, R342: A host writes a submission count to a queue's doorbell, accepted or stopping the queue. -/
  | doorbellWrite (srcSlice pid : Nat) (addr : DWord) (v : DWord)
  /-- RECORD_ADMISSION, R348: The home scheduler reads and admits or refuses the next launch record. -/
  | recordAdmission (pid qnum : Nat)
  /-- BLOCK_ASSIGN, R356: The scheduler assigns a block or stage group to a core's block queue. -/
  | blockAssign (slice : Nat)
  /-- BLOCK_DISPATCH, R238: A core dispatches the head of its block queue once every declared resource is free. -/
  | blockDispatch (core : Nat)
  /-- CARGO_STAGING, R278: The block's in entries have been staged and its crews are created. -/
  | cargoStaging (block : Nat)
  /-- BLOCK_WRITEBACK, R279: When every crew has ended and operations completed, out entries are written back. -/
  | blockWriteback (block : Nat)
  /-- BLOCK_RETIREMENT, R207: Writeback reached the memory-side caches; the block retires and its resources are released. -/
  | blockRetirement (block : Nat)
  /-- LAUNCH_COMPLETION, R351: The status word is written and the completion landing updated. -/
  | launchCompletion (launch : Nat)
  /-- SCHED_QDESC, R340: Registers a queue descriptor with the slice scheduler. -/
  | schedQdesc (slice : Nat) (addr : DWord)
  /-- SCHED_QSTOP, R350: Stops a queue; its accepted and running launches complete ABORTED. -/
  | schedQstop (slice : Nat) (v : DWord)
  /-- BALANCE_EXCHANGE, R357: Every 8192 cycles a core exchanges queue depths and may move a block to a neighbour. -/
  | balanceExchange (core : Nat)
  /-- QUANTUM_EXPIRY, R354: A block that has held its core for its quantum is frozen when another queue waits. -/
  | quantumExpiry (block : Nat)
  /-- CANDIDATE_RESERVE, R355: A candidate waiting 2^22 cycles reserves the core nearest to fitting it. -/
  | candidateReserve (launch core : Nat)
  /-- FREEZE_SIGNAL, R382: The scheduler signals a frozen unit's cores and its groups stop at chain-group boundaries. -/
  | freezeSignal (u : FreezeUnit)
  /-- CAPTURE, R382: After settling, the core records outstanding operations in manifests and raises %ctxgen. -/
  | capture (unit : Nat)
  /-- CONTEXT_SAVE, R402: The Slipway writes and seals the unit's state in the save area and releases resources. -/
  | contextSave (unit : Nat)
  /-- RESTORE, R403: The Slipway checks the save area and loads a frozen unit onto free cores. -/
  | restore (unit : Nat) (cores : List Nat)
  /-- MANIFEST_REPLAY_STEP, R394: A restored crew advances its manifest replay in the fixed order. -/
  | manifestReplayStep (crew : Nat)
  /-- WATCHDOG, R407: A capture not done in 65,536 cycles marks the core failed and kills the context. -/
  | watchdog (core : Nat)
  /-- SHADOW_COMPARE, R464: A lead's held operation is compared with its shadow's matching word and released or halted. -/
  | shadowCompare (crew : Nat)
  /-- SHADOW_TIMEOUT, R465: A shadow 2^24 cycles behind its lead causes a SHADOW trap. -/
  | shadowTimeout (crew : Nat)
  /-- SACT_KILL_BLOCK, R380: %sact ACTION 01 kills the block; its launch completes FAULT. -/
  | sactKillBlock (crew : Nat)
  /-- SACT_KILL_CONTEXT, R380: %sact ACTION 10 kills the context; its launches complete ABORTED. -/
  | sactKillContext (crew : Nat)
  /-- PWAYS_WRITE, R418: Sets the protected-way count; lowering it starts sealing the released ways. -/
  | pwaysWrite (slice : Nat) (v : DWord)
  /-- PWAYS_CHANGE_COMPLETE, R418: The released ways are sealed and written back; PWBUSY clears. -/
  | pwaysChangeComplete (slice : Nat)
  /-- REGISTER_WRITE, R4: Write to a register without behaviour of its own, under its access code. -/
  | registerWrite (slice off : Nat) (v : DWord)
  /-- RESIZE_MOVE, R440: Mailbox MOVE checks and moves a slice between partitions with vacate, migrate and resume. -/
  | resizeMove (cmd : BitVec 128)
  /-- INTERRUPT_SOURCE_ENABLE, R487: The OS enables a moved source, delivering a pending interrupt once. -/
  | interruptSourceEnable (pid : Nat) (src : SourceSetting)
  /-- HOST_MEMORY_ACCESS, R335: A host core or PCIe function accesses partition memory through the firewall. -/
  | hostMemoryAccess (q : HostReq)
  /-- PCIE_INBOUND_WRITE, R462: An inbound PCIe write enters with a new sector check, or poisoned if EP. -/
  | pcieInboundWrite (q : HostReq) (ep : Bool)
  /-- IDE_INTEGRITY_FAILURE, R479: An IDE integrity failure moves the TDISP interface to ERROR. -/
  | ideIntegrityFailure (pid : Nat)
  /-- MIGRATION_CUT, R443: A context moved to another device is cut on every fabric channel with markers. The context is named by partition × 2^32 + CTX. -/
  | migrationCut (ctx : Nat)
  /-- FLIT_SEND, R446: A link sends its next flit encrypted under the active key slot. -/
  | flitSend (slice : Nat)
  /-- KEY_INSTALL, R448: The Harbourmaster installs a key and salt in a link key slot. -/
  | keyInstall (slice : Nat) (tx : Bool) (slot : Bool) (key : BitVec 256) (salt : BitVec 64)
  /-- FLIT_IDLE_RECEIVE, R447: Receipt of an IDLE flit, checked for tag, INV and SEQ. -/
  | flitIdleReceive (slice : Nat) (f : Flit)
  /-- FLIT_DATA_RECEIVE, R446: Receipt of a DATA flit, writing its payload and counting landings if accepted. -/
  | flitDataReceive (slice : Nat) (f : Flit)
  /-- FLIT_OPEN_RECEIVE, R488: Receipt of an OPEN flit carrying a transfer header. -/
  | flitOpenReceive (slice : Nat) (f : Flit)
  /-- FLIT_MARKER_RECEIVE, R450: Receipt of a MARKER flit retires the old key slot. -/
  | flitMarkerReceive (slice : Nat) (f : Flit)
  /-- FLIT_CUT_RECEIVE, R443: Receipt of a CUT marker closes a channel's recorded flits. -/
  | flitCutReceive (slice : Nat) (f : Flit)
  /-- FLIT_ABORT_RECEIVE, R454: Receipt of an ABORT flit marks the rank unusable and aborts the group's collectives. -/
  | flitAbortReceive (slice : Nat) (f : Flit)
  /-- LINK_RETRAIN, R451: A link retrains after repeated failures, keeping its key state. -/
  | linkRetrain (slice : Nat)
  /-- LINK_LANE_LOSS, R452: A link losing lanes falls to half width and updates routing costs, or goes down. -/
  | linkLaneLoss (slice : Nat) (trains : Bool)
  /-- DIE_BRIDGE_FAILURE, R444: A die bridge that cannot retrain takes its slices out as a slice trip. -/
  | dieBridgeFailure (slices : List Nat)
  /-- SLICE_TRIP, R485: An electrical or thermal trip halts a slice and loses its units. -/
  | sliceTrip (slice : Nat) (why : TripKind)
  /-- PATROL_READ, R461: The HBM base die patrol reads, corrects or reports a sector. -/
  | patrolRead (pid sector : Nat)
  /-- HBMTEST, R470: Mailbox command that parks, tests and restores or retires an HBM bank. -/
  | hbmtest (cmd : BitVec 128) (failRow : Option Nat)
  /-- LOGREAD, R474: Mailbox command that copies the physical error log, oldest first. -/
  | logread (buf : DWord) (count : Nat)
  /-- POWER_PSTATE, R484: Mailbox POWER command that sets P0, P1 or P2 for a slice or partition. -/
  | powerPstate (cmd : BitVec 128)
  /-- POWER_GATE, R484: Mailbox POWER command that gates a partition or unassigned slice. -/
  | powerGate (cmd : BitVec 128)
  /-- FWSTAGE, R480: Mailbox command that copies and checks a runtime firmware image. -/
  | fwstage (image : List Byte)
  /-- FWACTIVATE, R480: Mailbox command that freezes all units, loads the staged firmware and ends sessions. -/
  | fwactivate
  /-- BIND, R475: Mailbox command that accepts a binding and a wrapped tenant key and returns a handle. -/
  | bind (pid : Nat) (addr : DWord) (session : Nat) (wrapped : WrappedKey)
  /-- RELEASE, R413: Mailbox command that releases a key handle, deferred while launches use it. -/
  | release (pid : Nat) (handle : Word)
  /-- PORTMODE, R445: Mailbox command that sets a fabric port's mode during partition boot. -/
  | portmode (pid slice mode : Nat)
  /-- COLD_RESET, R476: The Harbourmaster boots the package through its numbered steps. -/
  | coldReset (t : BootTrial)
  /-- MEASUREMENT_REQUEST, R478: An SPDM measurement request is answered from retained blocks without waking. -/
  | measurementRequest (port fn pid : Nat) (nonce : DWord)
  /-- DEBUG_UNLOCK, R482: The debug function accepts a tenant unlock over SPDM. -/
  | debugUnlock (port session : Nat)
  /-- FLIT_INVALID_TYPE_RECEIVE, R446: Receipt of a flit whose TYPE is 6-15 is treated as failing authentication, discarded and NAKed. -/
  | flitInvalidTypeReceive (slice : Nat) (f : Flit)
  /-- LINK_TRAINED, R451: A fabric link that was down trains again, reports UP and width, and starts with fresh keys, slot 0, INV 0 and SEQ 0. -/
  | linkTrained (slice lanes : Nat) (keys : LinkKeys)
  /-- SPDM_SESSION_ESTABLISH, R480: A partition runtime or attached host establishes an SPDM session, on which IDE keys are programmed and after which units held by FWACTIVATE may be restored. -/
  | spdmSessionEstablish (session pid tenant : Nat) (role : SpdmRole)
  /-- SPDM_SESSION_END, R482: An SPDM session ends, ending any debug unlock on it and invalidating BINDs that name it. -/
  | spdmSessionEnd (session : Nat)
  /-- TDISP_REQUEST, R479: A TDISP request from the external host moves the partition's device interface among CONFIG_UNLOCKED, CONFIG_LOCKED and RUN. -/
  | tdispRequest (pid : Nat) (r : TdispMove)
  /-- DEBUG_BLOCK_RESUME, R482: The unlocked debug function resumes a block that a supervisor handler handed over on BRK. -/
  | debugBlockResume (port block : Nat)
  /-- MAILBOX_INVALID_CODE, R474: MB_DOOR rung with a command code that is not valid in that mailbox completes with LAST = 4 and no effect. -/
  | mailboxInvalidCode (owner : Bool) (pid code : Nat)
  /-- CONTEXT_CREATE, R398: The partition runtime creates a context, with its save area in HBM. -/
  | contextCreate (ctx pid : Nat) (node : Nat) (area : DWord)
  /-- CONTEXT_DESTROY, R387: A context ends; its duplicate-filter entries retire, its roster and save area are destroyed, and peers' commands to it end under R288. The context is named by partition × 2^32 + CTX. -/
  | contextDestroy (ctx : Nat)
  /-- ROSTER_ESTABLISH, R302: The partition runtime establishes or re-establishes a context's roster, marking ranks usable or unusable. The context is named by partition × 2^32 + CTX; the ranks name contexts by CTX. -/
  | rosterEstablish (ctx own : Nat) (ranks : List RosterEntry)
  /-- ETHERNET_FRAME_RECEIVE, R445: A port in mode 1 receives an IEEE 802.3dj frame for the host-core descriptor rings. -/
  | ethernetFrameReceive (slice : Nat) (frame : List Byte)
  deriving DecidableEq, Repr

end Sys2Proof
end

