-- ==== Sys2Proof/Decode.lean ====
section
/-! DEFINITION. The decoder, from a 32-bit word (R8, R34, R35) or from bytes as memory holds them (R1), and after it the encoder.
A word whose reserved bits are not zero, whose function code no group assigns, or whose major opcode is 0x30-0x3F is rejected by
name; the step then issues it as ILLEGAL_OPCODE_WORD. A field value that R33 or a chapter marks illegal decodes, and WellFormed
refuses it at issue with cause ILLEGAL. -/

namespace Sys2Proof

/-- Why a word is no instruction (R35). -/
inductive DecodeReject where
  /-- major opcode 0x30-0x3F -/
  | reservedMajor
  /-- a function or sub-op code that no group chapter assigns -/
  | unassignedFunction
  /-- a nonzero reserved field (R3) -/
  | reservedField
  /-- fewer than four bytes -/
  | tooShort
  deriving DecidableEq, Repr

/-- Bits lo+n-1 : lo of a word. -/
def field (w : Word) (lo n : Nat) : BitVec n := w.extractLsb' lo n

/-- Ctl, major opcode 0x00 (R32, R34). -/
def decodeCtl (w : Word) : Except DecodeReject Instr :=
  match (field w 21 4).toNat with
  | 0 => if field w 0 21 == 0#21 then .ok (.nop (field w 31 1)) else .error .reservedField
  | 1 => if field w 0 3 == 0#3 then .ok (.trl (field w 31 1) (field w 15 6) (field w 9 6) (field w 3 6)) else .error .reservedField
  | 2 => if field w 0 14 == 0#14 then .ok (.grd (field w 31 1) (field w 18 3) (field w 17 1) (field w 14 3)) else .error .reservedField
  | 3 => if field w 0 3 == 0#3 then .ok (.waitc (field w 31 1) (field w 17 4) (field w 13 4) (field w 7 6) (field w 3 4)) else .error .reservedField
  | 4 => if field w 0 21 == 0#21 then .ok (.yield (field w 31 1)) else .error .reservedField
  | 5 => if field w 0 21 == 0#21 then .ok (.exit (field w 31 1)) else .error .reservedField
  | 6 => if field w 0 19 == 0#19 then .ok (.freeze (field w 31 1) (field w 19 2)) else .error .reservedField
  | 7 => .ok (.setrl (field w 31 1) (field w 0 21))
  | 8 => if field w 0 18 == 0#18 then .ok (.elect (field w 31 1) (field w 18 3)) else .error .reservedField
  | _ => .error .unassignedFunction

/-- Br, major opcode 0x01 (R32, R34). -/
def decodeBr (w : Word) : Except DecodeReject Instr :=
  .ok (.br (field w 31 1) (field w 0 25))

/-- Brc, major opcode 0x02 (R32, R34). -/
def decodeBrc (w : Word) : Except DecodeReject Instr :=
  .ok (.brc (field w 31 1) (field w 22 3) (field w 17 5) (field w 0 17))

/-- Brp, major opcode 0x03 (R32, R34). -/
def decodeBrp (w : Word) : Except DecodeReject Instr :=
  .ok (.brp (field w 31 1) (field w 22 3) (field w 21 1) (field w 0 21))

/-- Call, major opcode 0x04 (R32, R34). -/
def decodeCall (w : Word) : Except DecodeReject Instr :=
  .ok (.call (field w 31 1) (field w 0 25))

/-- Jmpr, major opcode 0x05 (R32, R34). -/
def decodeJmpr (w : Word) : Except DecodeReject Instr :=
  match (field w 0 7).toNat with
  | 0 => if field w 19 6 == 0#6 && field w 7 6 == 0#6 then .ok (.jmpi (field w 31 1) (field w 13 6)) else .error .reservedField
  | 1 => if field w 7 18 == 0#18 then .ok (.ret (field w 31 1)) else .error .reservedField
  | 2 => if field w 19 6 == 0#6 && field w 7 6 == 0#6 then .ok (.jmpiL (field w 31 1) (field w 13 6)) else .error .reservedField
  | _ => .error .unassignedFunction

/-- Salu, major opcode 0x06 (R32, R34). -/
def decodeSalu (w : Word) : Except DecodeReject Instr :=
  match (field w 0 10).toNat with
  | 0 => .ok (.sadd (field w 31 1) (field w 20 5) (field w 15 5) (field w 10 5))
  | 1 => .ok (.ssub (field w 31 1) (field w 20 5) (field w 15 5) (field w 10 5))
  | 2 => .ok (.smul (field w 31 1) (field w 20 5) (field w 15 5) (field w 10 5))
  | 3 => .ok (.smulh (field w 31 1) (field w 20 5) (field w 15 5) (field w 10 5))
  | 4 => .ok (.smulhn (field w 31 1) (field w 20 5) (field w 15 5) (field w 10 5))
  | 5 => .ok (.sand (field w 31 1) (field w 20 5) (field w 15 5) (field w 10 5))
  | 6 => .ok (.sor (field w 31 1) (field w 20 5) (field w 15 5) (field w 10 5))
  | 7 => .ok (.sxor (field w 31 1) (field w 20 5) (field w 15 5) (field w 10 5))
  | 8 => .ok (.sshl (field w 31 1) (field w 20 5) (field w 15 5) (field w 10 5))
  | 9 => .ok (.sshr (field w 31 1) (field w 20 5) (field w 15 5) (field w 10 5))
  | 10 => .ok (.ssra (field w 31 1) (field w 20 5) (field w 15 5) (field w 10 5))
  | 11 => .ok (.smin (field w 31 1) (field w 20 5) (field w 15 5) (field w 10 5))
  | 12 => .ok (.smax (field w 31 1) (field w 20 5) (field w 15 5) (field w 10 5))
  | 13 => .ok (.sminn (field w 31 1) (field w 20 5) (field w 15 5) (field w 10 5))
  | 14 => .ok (.smaxn (field w 31 1) (field w 20 5) (field w 15 5) (field w 10 5))
  | 15 => .ok (.seq (field w 31 1) (field w 20 5) (field w 15 5) (field w 10 5))
  | 16 => .ok (.slt (field w 31 1) (field w 20 5) (field w 15 5) (field w 10 5))
  | 17 => .ok (.sltn (field w 31 1) (field w 20 5) (field w 15 5) (field w 10 5))
  | 18 => .ok (.smov (field w 31 1) (field w 20 5) (field w 15 5) (field w 10 5))
  | _ => .error .unassignedFunction

/-- Salui, major opcode 0x07 (R32, R34). -/
def decodeSalui (w : Word) : Except DecodeReject Instr :=
  match (field w 12 3).toNat with
  | 0 => .ok (.saddi (field w 31 1) (field w 20 5) (field w 15 5) (field w 0 12))
  | 1 => .ok (.sandi (field w 31 1) (field w 20 5) (field w 15 5) (field w 0 12))
  | 2 => .ok (.sori (field w 31 1) (field w 20 5) (field w 15 5) (field w 0 12))
  | 3 => .ok (.sxori (field w 31 1) (field w 20 5) (field w 15 5) (field w 0 12))
  | 4 => if field w 6 6 == 0#6 then .ok (.sshli (field w 31 1) (field w 20 5) (field w 15 5) (field w 0 6)) else .error .reservedField
  | 5 => if field w 6 6 == 0#6 then .ok (.sshri (field w 31 1) (field w 20 5) (field w 15 5) (field w 0 6)) else .error .reservedField
  | 6 => if field w 6 6 == 0#6 then .ok (.ssrai (field w 31 1) (field w 20 5) (field w 15 5) (field w 0 6)) else .error .reservedField
  | 7 => .ok (.slti (field w 31 1) (field w 20 5) (field w 15 5) (field w 0 12))
  | _ => .error .unassignedFunction

/-- Sli, major opcode 0x08 (R32, R34). -/
def decodeSli (w : Word) : Except DecodeReject Instr :=
  .ok (.sli (field w 31 1) (field w 20 5) (field w 0 20))

/-- Slih, major opcode 0x09 (R32, R34). -/
def decodeSlih (w : Word) : Except DecodeReject Instr :=
  .ok (.slih (field w 31 1) (field w 20 5) (field w 0 20))

/-- Xfer, major opcode 0x0A (R32, R34). -/
def decodeXfer (w : Word) : Except DecodeReject Instr :=
  match (field w 0 7).toNat with
  | 0 => if field w 24 1 == 0#1 && field w 7 6 == 0#6 then .ok (.vtos (field w 31 1) (field w 19 5) (field w 13 6)) else .error .reservedField
  | 1 => if field w 18 1 == 0#1 && field w 7 6 == 0#6 then .ok (.stov (field w 31 1) (field w 19 6) (field w 13 5)) else .error .reservedField
  | 2 => if field w 11 2 == 0#2 then .ok (.vretag (field w 31 1) (field w 19 6) (field w 13 6) (field w 7 4)) else .error .reservedField
  | _ => .error .unassignedFunction

/-- Pred, major opcode 0x0B (R32, R34). -/
def decodePred (w : Word) : Except DecodeReject Instr :=
  match (field w 0 7).toNat with
  | 0 => if field w 22 3 == 0#3 && field w 16 3 == 0#3 && field w 10 3 == 0#3 then .ok (.pand (field w 31 1) (field w 19 3) (field w 13 3) (field w 7 3)) else .error .reservedField
  | 1 => if field w 22 3 == 0#3 && field w 16 3 == 0#3 && field w 10 3 == 0#3 then .ok (.por (field w 31 1) (field w 19 3) (field w 13 3) (field w 7 3)) else .error .reservedField
  | 2 => if field w 22 3 == 0#3 && field w 16 3 == 0#3 && field w 10 3 == 0#3 then .ok (.pxor (field w 31 1) (field w 19 3) (field w 13 3) (field w 7 3)) else .error .reservedField
  | 3 => if field w 22 3 == 0#3 && field w 16 3 == 0#3 && field w 10 3 == 0#3 then .ok (.pandn (field w 31 1) (field w 19 3) (field w 13 3) (field w 7 3)) else .error .reservedField
  | 4 => if field w 7 12 == 0#12 then .ok (.ptov (field w 31 1) (field w 19 6)) else .error .reservedField
  | 5 => if field w 19 6 == 0#6 && field w 7 6 == 0#6 then .ok (.vtop (field w 31 1) (field w 13 6)) else .error .reservedField
  | _ => .error .unassignedFunction

/-- Vint, major opcode 0x0C (R32, R34). -/
def decodeVint (w : Word) : Except DecodeReject Instr :=
  match (field w 0 7).toNat with
  | 0 => .ok (.vadd (field w 31 1) (field w 19 6) (field w 13 6) (field w 7 6))
  | 1 => .ok (.vsub (field w 31 1) (field w 19 6) (field w 13 6) (field w 7 6))
  | 2 => .ok (.vmul (field w 31 1) (field w 19 6) (field w 13 6) (field w 7 6))
  | 3 => .ok (.vmulh (field w 31 1) (field w 19 6) (field w 13 6) (field w 7 6))
  | 4 => .ok (.vmulhn (field w 31 1) (field w 19 6) (field w 13 6) (field w 7 6))
  | 5 => .ok (.vand (field w 31 1) (field w 19 6) (field w 13 6) (field w 7 6))
  | 6 => .ok (.vor (field w 31 1) (field w 19 6) (field w 13 6) (field w 7 6))
  | 7 => .ok (.vxor (field w 31 1) (field w 19 6) (field w 13 6) (field w 7 6))
  | 8 => .ok (.vandn (field w 31 1) (field w 19 6) (field w 13 6) (field w 7 6))
  | 9 => .ok (.vshl (field w 31 1) (field w 19 6) (field w 13 6) (field w 7 6))
  | 10 => .ok (.vshr (field w 31 1) (field w 19 6) (field w 13 6) (field w 7 6))
  | 11 => .ok (.vsra (field w 31 1) (field w 19 6) (field w 13 6) (field w 7 6))
  | 12 => .ok (.vmin (field w 31 1) (field w 19 6) (field w 13 6) (field w 7 6))
  | 13 => .ok (.vmax (field w 31 1) (field w 19 6) (field w 13 6) (field w 7 6))
  | 14 => .ok (.vminn (field w 31 1) (field w 19 6) (field w 13 6) (field w 7 6))
  | 15 => .ok (.vmaxn (field w 31 1) (field w 19 6) (field w 13 6) (field w 7 6))
  | 16 => .ok (.vabs (field w 31 1) (field w 19 6) (field w 13 6) (field w 7 6))
  | 17 => .ok (.vneg (field w 31 1) (field w 19 6) (field w 13 6) (field w 7 6))
  | 18 => .ok (.vclz (field w 31 1) (field w 19 6) (field w 13 6) (field w 7 6))
  | 19 => .ok (.vpopc (field w 31 1) (field w 19 6) (field w 13 6) (field w 7 6))
  | 20 => .ok (.vadds (field w 31 1) (field w 19 6) (field w 13 6) (field w 7 6))
  | 21 => .ok (.vsubs (field w 31 1) (field w 19 6) (field w 13 6) (field w 7 6))
  | 22 => .ok (.vbfe (field w 31 1) (field w 19 6) (field w 13 6) (field w 7 6))
  | 23 => .ok (.vbfi (field w 31 1) (field w 19 6) (field w 13 6) (field w 7 6))
  | 24 => .ok (.vpack (field w 31 1) (field w 19 6) (field w 13 6) (field w 7 6))
  | 25 => .ok (.vunpk (field w 31 1) (field w 19 6) (field w 13 6) (field w 7 6))
  | 26 => .ok (.vadda (field w 31 1) (field w 19 6) (field w 13 6) (field w 7 6))
  | _ => .error .unassignedFunction

/-- Vinti, major opcode 0x0D (R32, R34). -/
def decodeVinti (w : Word) : Except DecodeReject Instr :=
  match (field w 10 3).toNat with
  | 0 => .ok (.vaddi (field w 31 1) (field w 19 6) (field w 13 6) (field w 0 10))
  | 1 => .ok (.vandi (field w 31 1) (field w 19 6) (field w 13 6) (field w 0 10))
  | 2 => .ok (.vori (field w 31 1) (field w 19 6) (field w 13 6) (field w 0 10))
  | 3 => .ok (.vxori (field w 31 1) (field w 19 6) (field w 13 6) (field w 0 10))
  | 4 => if field w 6 4 == 0#4 then .ok (.vshli (field w 31 1) (field w 19 6) (field w 13 6) (field w 0 6)) else .error .reservedField
  | 5 => if field w 6 4 == 0#4 then .ok (.vshri (field w 31 1) (field w 19 6) (field w 13 6) (field w 0 6)) else .error .reservedField
  | 6 => if field w 6 4 == 0#4 then .ok (.vsrai (field w 31 1) (field w 19 6) (field w 13 6) (field w 0 6)) else .error .reservedField
  | 7 => .ok (.vmuli (field w 31 1) (field w 19 6) (field w 13 6) (field w 0 10))
  | _ => .error .unassignedFunction

/-- Vfp, major opcode 0x0E (R32, R34). -/
def decodeVfp (w : Word) : Except DecodeReject Instr :=
  match (field w 0 5).toNat with
  | 0 => .ok (.fadd (field w 31 1) (field w 19 6) (field w 13 6) (field w 7 6) (field w 5 2))
  | 1 => .ok (.fsub (field w 31 1) (field w 19 6) (field w 13 6) (field w 7 6) (field w 5 2))
  | 2 => .ok (.fmul (field w 31 1) (field w 19 6) (field w 13 6) (field w 7 6) (field w 5 2))
  | 3 => .ok (.fdiv (field w 31 1) (field w 19 6) (field w 13 6) (field w 7 6) (field w 5 2))
  | 4 => .ok (.fsqrt (field w 31 1) (field w 19 6) (field w 13 6) (field w 7 6) (field w 5 2))
  | 5 => if field w 5 2 == 0#2 then .ok (.fmin (field w 31 1) (field w 19 6) (field w 13 6) (field w 7 6)) else .error .reservedField
  | 6 => if field w 5 2 == 0#2 then .ok (.fmax (field w 31 1) (field w 19 6) (field w 13 6) (field w 7 6)) else .error .reservedField
  | 7 => if field w 5 2 == 0#2 then .ok (.fabs (field w 31 1) (field w 19 6) (field w 13 6) (field w 7 6)) else .error .reservedField
  | 8 => if field w 5 2 == 0#2 then .ok (.fneg (field w 31 1) (field w 19 6) (field w 13 6) (field w 7 6)) else .error .reservedField
  | 9 => if field w 5 2 == 0#2 then .ok (.fcopysign (field w 31 1) (field w 19 6) (field w 13 6) (field w 7 6)) else .error .reservedField
  | 10 => if field w 5 2 == 0#2 then .ok (.fminnum (field w 31 1) (field w 19 6) (field w 13 6) (field w 7 6)) else .error .reservedField
  | 11 => if field w 5 2 == 0#2 then .ok (.fmaxnum (field w 31 1) (field w 19 6) (field w 13 6) (field w 7 6)) else .error .reservedField
  | _ => .error .unassignedFunction

/-- Vfma, major opcode 0x0F (R32, R34). -/
def decodeVfma (w : Word) : Except DecodeReject Instr :=
  .ok (.ffma (field w 31 1) (field w 19 6) (field w 13 6) (field w 7 6) (field w 1 6) (field w 0 1))

/-- Vfman, major opcode 0x10 (R32, R34). -/
def decodeVfman (w : Word) : Except DecodeReject Instr :=
  .ok (.ffman (field w 31 1) (field w 19 6) (field w 13 6) (field w 7 6) (field w 1 6) (field w 0 1))

/-- Vimad, major opcode 0x11 (R32, R34). -/
def decodeVimad (w : Word) : Except DecodeReject Instr :=
  .ok (.vimad (field w 31 1) (field w 19 6) (field w 13 6) (field w 7 6) (field w 1 6) (field w 0 1))

/-- Vsfu, major opcode 0x12 (R32, R34). -/
def decodeVsfu (w : Word) : Except DecodeReject Instr :=
  match (field w 0 7).toNat with
  | 0 => .ok (.frcp (field w 31 1) (field w 19 6) (field w 13 6) (field w 7 6))
  | 1 => .ok (.frsq (field w 31 1) (field w 19 6) (field w 13 6) (field w 7 6))
  | 2 => .ok (.fexp2 (field w 31 1) (field w 19 6) (field w 13 6) (field w 7 6))
  | 3 => .ok (.flog2 (field w 31 1) (field w 19 6) (field w 13 6) (field w 7 6))
  | 4 => .ok (.fsinpi (field w 31 1) (field w 19 6) (field w 13 6) (field w 7 6))
  | 5 => .ok (.fcospi (field w 31 1) (field w 19 6) (field w 13 6) (field w 7 6))
  | 6 => .ok (.ftanh (field w 31 1) (field w 19 6) (field w 13 6) (field w 7 6))
  | _ => .error .unassignedFunction

/-- Vcvt, major opcode 0x13 (R32, R34). -/
def decodeVcvt (w : Word) : Except DecodeReject Instr :=
  if field w 10 3 == 0#3 then .ok (.vcvt (field w 31 1) (field w 19 6) (field w 13 6) (field w 7 3) (field w 3 4) (field w 1 2) (field w 0 1)) else .error .reservedField

/-- Vcmp, major opcode 0x14 (R32, R34). -/
def decodeVcmp (w : Word) : Except DecodeReject Instr :=
  if field w 22 3 == 0#3 && field w 6 1 == 0#1 then .ok (.vcmp (field w 31 1) (field w 19 3) (field w 13 6) (field w 7 6) (field w 4 2) (field w 0 4)) else .error .reservedField

/-- Vsel, major opcode 0x15 (R32, R34). -/
def decodeVsel (w : Word) : Except DecodeReject Instr :=
  if field w 4 3 == 0#3 then .ok (.vsel (field w 31 1) (field w 19 6) (field w 13 6) (field w 7 6) (field w 1 3) (field w 0 1)) else .error .reservedField

/-- Vdot, major opcode 0x16 (R32, R34). -/
def decodeVdot (w : Word) : Except DecodeReject Instr :=
  .ok (.vdot (field w 31 1) (field w 19 6) (field w 13 6) (field w 7 6) (field w 1 6) (field w 0 1))

/-- Xlane, major opcode 0x17 (R32, R34). -/
def decodeXlane (w : Word) : Except DecodeReject Instr :=
  match (field w 3 3).toNat with
  | 0 => .ok (.shfl (field w 31 1) (field w 19 6) (field w 13 6) (field w 7 6) (field w 6 1) (field w 0 3))
  | 1 => .ok (.shflup (field w 31 1) (field w 19 6) (field w 13 6) (field w 7 6) (field w 6 1) (field w 0 3))
  | 2 => .ok (.shfldn (field w 31 1) (field w 19 6) (field w 13 6) (field w 7 6) (field w 6 1) (field w 0 3))
  | 3 => .ok (.shflx (field w 31 1) (field w 19 6) (field w 13 6) (field w 7 6) (field w 6 1) (field w 0 3))
  | 4 => .ok (.bcast (field w 31 1) (field w 19 6) (field w 13 6) (field w 7 6) (field w 6 1) (field w 0 3))
  | _ => .error .unassignedFunction

/-- Xred, major opcode 0x18 (R32, R34). -/
def decodeXred (w : Word) : Except DecodeReject Instr :=
  match (field w 3 4).toNat with
  | 0 => if field w 16 3 == 0#3 && field w 7 6 == 0#6 then .ok (.voteAny (field w 31 1) (field w 19 6) (field w 13 3) (field w 0 3)) else .error .reservedField
  | 1 => if field w 16 3 == 0#3 && field w 7 6 == 0#6 then .ok (.voteAll (field w 31 1) (field w 19 6) (field w 13 3) (field w 0 3)) else .error .reservedField
  | 2 => if field w 16 3 == 0#3 && field w 7 6 == 0#6 then .ok (.voteBal (field w 31 1) (field w 19 6) (field w 13 3) (field w 0 3)) else .error .reservedField
  | 3 => if field w 16 3 == 0#3 && field w 7 6 == 0#6 then .ok (.voteEq (field w 31 1) (field w 19 6) (field w 13 3) (field w 0 3)) else .error .reservedField
  | 4 => if field w 7 6 == 0#6 then .ok (.redadd (field w 31 1) (field w 19 6) (field w 13 6) (field w 0 3)) else .error .reservedField
  | 5 => if field w 7 6 == 0#6 then .ok (.redmin (field w 31 1) (field w 19 6) (field w 13 6) (field w 0 3)) else .error .reservedField
  | 6 => if field w 7 6 == 0#6 then .ok (.redmax (field w 31 1) (field w 19 6) (field w 13 6) (field w 0 3)) else .error .reservedField
  | 7 => if field w 7 6 == 0#6 then .ok (.redand (field w 31 1) (field w 19 6) (field w 13 6) (field w 0 3)) else .error .reservedField
  | 8 => if field w 7 6 == 0#6 then .ok (.redor (field w 31 1) (field w 19 6) (field w 13 6) (field w 0 3)) else .error .reservedField
  | 9 => if field w 7 6 == 0#6 then .ok (.redxor (field w 31 1) (field w 19 6) (field w 13 6) (field w 0 3)) else .error .reservedField
  | 10 => if field w 7 6 == 0#6 then .ok (.scanadd (field w 31 1) (field w 19 6) (field w 13 6) (field w 0 3)) else .error .reservedField
  | 11 => if field w 7 6 == 0#6 then .ok (.scanaddx (field w 31 1) (field w 19 6) (field w 13 6) (field w 0 3)) else .error .reservedField
  | 12 => if field w 7 6 == 0#6 then .ok (.xmatch (field w 31 1) (field w 19 6) (field w 13 6) (field w 0 3)) else .error .reservedField
  | _ => .error .unassignedFunction

/-- Ld, major opcode 0x19 (R32, R34). -/
def decodeLd (w : Word) : Except DecodeReject Instr :=
  .ok (.ld (field w 31 1) (field w 19 6) (field w 13 6) (field w 11 2) (field w 8 3) (field w 4 4) (field w 2 2) (field w 0 2))

/-- St, major opcode 0x1A (R32, R34). -/
def decodeSt (w : Word) : Except DecodeReject Instr :=
  .ok (.st (field w 31 1) (field w 19 6) (field w 13 6) (field w 11 2) (field w 8 3) (field w 4 4) (field w 2 2) (field w 0 2))

/-- Atom, major opcode 0x1B (R32, R34). -/
def decodeAtom (w : Word) : Except DecodeReject Instr :=
  .ok (.atom (field w 31 1) (field w 19 6) (field w 13 6) (field w 11 2) (field w 8 3) (field w 4 4) (field w 2 2) (field w 0 2))

/-- Fence, major opcode 0x1C (R32, R34). -/
def decodeFence (w : Word) : Except DecodeReject Instr :=
  match (field w 21 4).toNat with
  | 0 => if field w 0 18 == 0#18 then .ok (.fence (field w 31 1) (field w 18 3)) else .error .reservedField
  | 1 => if field w 0 16 == 0#16 then .ok (.publish (field w 31 1) (field w 17 4) (field w 16 1)) else .error .reservedField
  | 2 => if field w 0 12 == 0#12 then .ok (.berthSet (field w 31 1) (field w 17 4) (field w 12 5)) else .error .reservedField
  | 3 => if field w 0 17 == 0#17 then .ok (.berthClr (field w 31 1) (field w 17 4)) else .error .reservedField
  | _ => .error .unassignedFunction

/-- Ldt, major opcode 0x1D (R32, R34). -/
def decodeLdt (w : Word) : Except DecodeReject Instr :=
  if field w 0 9 == 0#9 then .ok (.ldt (field w 31 1) (field w 21 4) (field w 16 5) (field w 11 5) (field w 9 2)) else .error .reservedField

/-- Stt, major opcode 0x1E (R32, R34). -/
def decodeStt (w : Word) : Except DecodeReject Instr :=
  if field w 0 9 == 0#9 then .ok (.stt (field w 31 1) (field w 21 4) (field w 16 5) (field w 11 5) (field w 9 2)) else .error .reservedField

/-- Lnd, major opcode 0x1F (R32, R34). -/
def decodeLnd (w : Word) : Except DecodeReject Instr :=
  match (field w 21 4).toNat with
  | 0 => if field w 16 5 == 0#5 && field w 0 3 == 0#3 then .ok (.lndInit (field w 31 1) (field w 11 5) (field w 6 5) (field w 3 3)) else .error .reservedField
  | 1 => if field w 16 5 == 0#5 && field w 0 3 == 0#3 then .ok (.lndExpectIn (field w 31 1) (field w 11 5) (field w 6 5) (field w 3 3)) else .error .reservedField
  | 2 => if field w 16 5 == 0#5 && field w 0 3 == 0#3 then .ok (.lndExpectOut (field w 31 1) (field w 11 5) (field w 6 5) (field w 3 3)) else .error .reservedField
  | 3 => if field w 6 5 == 0#5 && field w 0 3 == 0#3 then .ok (.lndArrive (field w 31 1) (field w 16 5) (field w 11 5) (field w 3 3)) else .error .reservedField
  | 4 => if field w 16 5 == 0#5 && field w 0 3 == 0#3 then .ok (.lndWait (field w 31 1) (field w 11 5) (field w 6 5) (field w 3 3)) else .error .reservedField
  | 5 => if field w 6 5 == 0#5 && field w 0 3 == 0#3 then .ok (.lndTest (field w 31 1) (field w 16 5) (field w 11 5) (field w 3 3)) else .error .reservedField
  | _ => .error .unassignedFunction

/-- Strm, major opcode 0x20 (R32, R34). -/
def decodeStrm (w : Word) : Except DecodeReject Instr :=
  match (field w 2 1).toNat with
  | 0 => if field w 20 5 == 0#5 && field w 3 12 == 0#12 then .ok (.strmSet (field w 31 1) (field w 15 5) (field w 0 2)) else .error .reservedField
  | 1 => if field w 3 22 == 0#22 then .ok (.strmStop (field w 31 1) (field w 0 2)) else .error .reservedField
  | _ => .error .unassignedFunction

/-- Fcopy, major opcode 0x21 (R32, R34). -/
def decodeFcopy (w : Word) : Except DecodeReject Instr :=
  if field w 1 9 == 0#9 then .ok (.fcopy (field w 31 1) (field w 20 5) (field w 15 5) (field w 10 5) (field w 0 1)) else .error .reservedField

/-- Fgath, major opcode 0x22 (R32, R34). -/
def decodeFgath (w : Word) : Except DecodeReject Instr :=
  match (field w 1 1).toNat with
  | 0 => if field w 2 8 == 0#8 then .ok (.fgath (field w 31 1) (field w 20 5) (field w 15 5) (field w 10 5) (field w 0 1)) else .error .reservedField
  | 1 => if field w 2 8 == 0#8 then .ok (.fscat (field w 31 1) (field w 20 5) (field w 15 5) (field w 10 5) (field w 0 1)) else .error .reservedField
  | _ => .error .unassignedFunction

/-- Fatom, major opcode 0x23 (R32, R34). -/
def decodeFatom (w : Word) : Except DecodeReject Instr :=
  if field w 1 9 == 0#9 then .ok (.fatom (field w 31 1) (field w 20 5) (field w 15 5) (field w 10 5) (field w 0 1)) else .error .reservedField

/-- Fput, major opcode 0x24 (R32, R34). -/
def decodeFput (w : Word) : Except DecodeReject Instr :=
  match (field w 1 2).toNat with
  | 0 => if field w 3 7 == 0#7 then .ok (.fput (field w 31 1) (field w 20 5) (field w 15 5) (field w 10 5) (field w 0 1)) else .error .reservedField
  | 1 => if field w 3 7 == 0#7 then .ok (.fputs (field w 31 1) (field w 20 5) (field w 15 5) (field w 10 5) (field w 0 1)) else .error .reservedField
  | 2 => if field w 3 7 == 0#7 then .ok (.fget (field w 31 1) (field w 20 5) (field w 15 5) (field w 10 5) (field w 0 1)) else .error .reservedField
  | _ => .error .unassignedFunction

/-- Coll, major opcode 0x25 (R32, R34). -/
def decodeColl (w : Word) : Except DecodeReject Instr :=
  match (field w 1 3).toNat with
  | 0 => if field w 4 6 == 0#6 then .ok (.collAllred (field w 31 1) (field w 20 5) (field w 15 5) (field w 10 5) (field w 0 1)) else .error .reservedField
  | 1 => if field w 4 6 == 0#6 then .ok (.collAllgath (field w 31 1) (field w 20 5) (field w 15 5) (field w 10 5) (field w 0 1)) else .error .reservedField
  | 2 => if field w 4 6 == 0#6 then .ok (.collRedscat (field w 31 1) (field w 20 5) (field w 15 5) (field w 10 5) (field w 0 1)) else .error .reservedField
  | 3 => if field w 4 6 == 0#6 then .ok (.collBcast (field w 31 1) (field w 20 5) (field w 15 5) (field w 10 5) (field w 0 1)) else .error .reservedField
  | 4 => if field w 4 6 == 0#6 then .ok (.collCbar (field w 31 1) (field w 20 5) (field w 15 5) (field w 10 5) (field w 0 1)) else .error .reservedField
  | _ => .error .unassignedFunction

/-- Nmc, major opcode 0x26 (R32, R34). -/
def decodeNmc (w : Word) : Except DecodeReject Instr :=
  if field w 0 10 == 0#10 then .ok (.nmc (field w 31 1) (field w 20 5) (field w 15 5) (field w 10 5)) else .error .reservedField

/-- Fctl, major opcode 0x27 (R32, R34). -/
def decodeFctl (w : Word) : Except DecodeReject Instr :=
  match (field w 0 1).toNat with
  | 0 => if field w 20 5 == 0#5 && field w 3 7 == 0#7 then .ok (.fpref (field w 31 1) (field w 15 5) (field w 10 5) (field w 1 2)) else .error .reservedField
  | 1 => if field w 1 14 == 0#14 then .ok (.fcancel (field w 31 1) (field w 20 5) (field w 15 5)) else .error .reservedField
  | _ => .error .unassignedFunction

/-- Mma, major opcode 0x28 (R32, R34). -/
def decodeMma (w : Word) : Except DecodeReject Instr :=
  .ok (.mma (field w 31 1) (field w 19 6) (field w 15 4) (field w 11 4) (field w 5 6) (field w 3 2) (field w 2 1) (field w 1 1) (field w 0 1))

/-- Mctl, major opcode 0x29 (R32, R34). -/
def decodeMctl (w : Word) : Except DecodeReject Instr :=
  match (field w 0 3).toNat with
  | 0 => if field w 24 1 == 0#1 && field w 3 12 == 0#12 then .ok (.movts (field w 31 1) (field w 20 4) (field w 15 5)) else .error .reservedField
  | 1 => if field w 19 1 == 0#1 && field w 3 12 == 0#12 then .ok (.movst (field w 31 1) (field w 20 5) (field w 15 4)) else .error .reservedField
  | 2 => if field w 20 5 == 0#5 && field w 3 12 == 0#12 then .ok (.accz (field w 31 1) (field w 15 5)) else .error .reservedField
  | 3 => if field w 3 17 == 0#17 then .ok (.mchk (field w 31 1) (field w 20 5)) else .error .reservedField
  | 4 => if field w 24 1 == 0#1 && field w 10 10 == 0#10 then .ok (.tcvt (field w 31 1) (field w 20 4) (field w 9 1) (field w 7 2) (field w 3 4)) else .error .reservedField
  | 5 => if field w 24 1 == 0#1 && field w 3 17 == 0#17 then .ok (.tzero (field w 31 1) (field w 20 4)) else .error .reservedField
  | _ => .error .unassignedFunction

/-- Accst, major opcode 0x2A (R32, R34). -/
def decodeAccst (w : Word) : Except DecodeReject Instr :=
  .ok (.accst (field w 31 1) (field w 20 5) (field w 15 5) (field w 10 5) (field w 9 1) (field w 8 1) (field w 7 1) (field w 6 1) (field w 5 1) (field w 2 3) (field w 0 2))

/-- Accld, major opcode 0x2B (R32, R34). -/
def decodeAccld (w : Word) : Except DecodeReject Instr :=
  if field w 1 14 == 0#14 then .ok (.accld (field w 31 1) (field w 20 5) (field w 15 5) (field w 0 1)) else .error .reservedField

/-- Sys, major opcode 0x2C (R32, R34). -/
def decodeSys (w : Word) : Except DecodeReject Instr :=
  match (field w 12 3).toNat with
  | 0 => if field w 15 10 == 0#10 then .ok (.trap (field w 31 1) (field w 0 12)) else .error .reservedField
  | 1 => if field w 15 10 == 0#10 && field w 0 12 == 0#12 then .ok (.rteRetry (field w 31 1)) else .error .reservedField
  | 2 => if field w 15 10 == 0#10 && field w 0 12 == 0#12 then .ok (.rteCommit (field w 31 1)) else .error .reservedField
  | 3 => if field w 15 10 == 0#10 && field w 0 12 == 0#12 then .ok (.rteSkip (field w 31 1)) else .error .reservedField
  | 4 => if field w 15 10 == 0#10 then .ok (.brk (field w 31 1) (field w 0 12)) else .error .reservedField
  | _ => .error .unassignedFunction

/-- Csr, major opcode 0x2D (R32, R34). -/
def decodeCsr (w : Word) : Except DecodeReject Instr :=
  match (field w 12 3).toNat with
  | 0 => if field w 15 5 == 0#5 then .ok (.csrr (field w 31 1) (field w 20 5) (field w 0 12)) else .error .reservedField
  | 1 => if field w 20 5 == 0#5 then .ok (.csrw (field w 31 1) (field w 15 5) (field w 0 12)) else .error .reservedField
  | 2 => if field w 20 5 == 0#5 then .ok (.csrs (field w 31 1) (field w 15 5) (field w 0 12)) else .error .reservedField
  | 3 => if field w 20 5 == 0#5 then .ok (.csrc (field w 31 1) (field w 15 5) (field w 0 12)) else .error .reservedField
  | _ => .error .unassignedFunction

/-- Launch, major opcode 0x2E (R32, R34). -/
def decodeLaunch (w : Word) : Except DecodeReject Instr :=
  if field w 0 10 == 0#10 then .ok (.launch (field w 31 1) (field w 20 5) (field w 15 5) (field w 10 5)) else .error .reservedField

/-- Vli, major opcode 0x2F (R32, R34). -/
def decodeVli (w : Word) : Except DecodeReject Instr :=
  .ok (.vli (field w 31 1) (field w 19 6) (field w 15 4) (field w 0 15))

/-- The instruction a 32-bit word stands for (R34, R35): its group by the major opcode, then the group's own function code. -/
def decode (w : Word) : Except DecodeReject Instr :=
  match (field w 25 6).toNat with
  | 0x00 => decodeCtl w
  | 0x01 => decodeBr w
  | 0x02 => decodeBrc w
  | 0x03 => decodeBrp w
  | 0x04 => decodeCall w
  | 0x05 => decodeJmpr w
  | 0x06 => decodeSalu w
  | 0x07 => decodeSalui w
  | 0x08 => decodeSli w
  | 0x09 => decodeSlih w
  | 0x0A => decodeXfer w
  | 0x0B => decodePred w
  | 0x0C => decodeVint w
  | 0x0D => decodeVinti w
  | 0x0E => decodeVfp w
  | 0x0F => decodeVfma w
  | 0x10 => decodeVfman w
  | 0x11 => decodeVimad w
  | 0x12 => decodeVsfu w
  | 0x13 => decodeVcvt w
  | 0x14 => decodeVcmp w
  | 0x15 => decodeVsel w
  | 0x16 => decodeVdot w
  | 0x17 => decodeXlane w
  | 0x18 => decodeXred w
  | 0x19 => decodeLd w
  | 0x1A => decodeSt w
  | 0x1B => decodeAtom w
  | 0x1C => decodeFence w
  | 0x1D => decodeLdt w
  | 0x1E => decodeStt w
  | 0x1F => decodeLnd w
  | 0x20 => decodeStrm w
  | 0x21 => decodeFcopy w
  | 0x22 => decodeFgath w
  | 0x23 => decodeFatom w
  | 0x24 => decodeFput w
  | 0x25 => decodeColl w
  | 0x26 => decodeNmc w
  | 0x27 => decodeFctl w
  | 0x28 => decodeMma w
  | 0x29 => decodeMctl w
  | 0x2A => decodeAccst w
  | 0x2B => decodeAccld w
  | 0x2C => decodeSys w
  | 0x2D => decodeCsr w
  | 0x2E => decodeLaunch w
  | 0x2F => decodeVli w
  | _ => .error .reservedMajor
/-- The little-endian 32-bit word of four bytes (R1, R8). -/
def wordOfBytes (b0 b1 b2 b3 : Byte) : Word := b3 ++ b2 ++ b1 ++ b0

/-- The bytes of a word, the lowest address first (R1). -/
def bytesOfWord (w : Word) : List Byte :=
  [w.extractLsb' 0 8, w.extractLsb' 8 8, w.extractLsb' 16 8, w.extractLsb' 24 8]

/-- Decoding from bytes, total: the instruction of the first four bytes and the bytes after them. -/
def decodeBytes : List Byte → Except DecodeReject (Instr × List Byte)
  | b0 :: b1 :: b2 :: b3 :: rest => (decode (wordOfBytes b0 b1 b2 b3)).map (·, rest)
  | _ => .error .tooShort

/-- The instruction read from a word numbered as spec/opcode_table.json numbers it. -/
def decodeTableWord (nbits w : Nat) : Option Instr :=
  match decodeBytes (bytesOfWord (BitVec.ofNat 32 (w % 2 ^ nbits))) with
  | .ok (i, _) => some i
  | .error _ => none

/-- The word of an instruction, field by field from bit 31 down (R32, R37 and the encoding tables of the groups); an event has none. -/
def encode : Instr → Option Word
  | .nop c => some (c ++ 0x0#31)
  | .trl c x y z => some (c ++ 0x1#10 ++ x ++ y ++ z ++ 0x0#3)
  | .grd c p n k => some (c ++ 0x2#10 ++ p ++ n ++ k ++ 0x0#14)
  | .waitc c l s y t => some (c ++ 0x3#10 ++ l ++ s ++ y ++ t ++ 0x0#3)
  | .yield c => some (c ++ 0x800000#31)
  | .exit c => some (c ++ 0xA00000#31)
  | .freeze c l => some (c ++ 0x6#10 ++ l ++ 0x0#19)
  | .setrl c i => some (c ++ 0x7#10 ++ i)
  | .elect c p => some (c ++ 0x8#10 ++ p ++ 0x0#18)
  | .br c i => some (c ++ 0x1#6 ++ i)
  | .brc c k a i => some (c ++ 0x2#6 ++ k ++ a ++ i)
  | .brp c p n i => some (c ++ 0x3#6 ++ p ++ n ++ i)
  | .call c i => some (c ++ 0x4#6 ++ i)
  | .jmpi c a => some (c ++ 0x140#12 ++ a ++ 0x0#13)
  | .ret c => some (c ++ 0xA000001#31)
  | .jmpiL c a => some (c ++ 0x140#12 ++ a ++ 0x2#13)
  | .sadd c d a b => some (c ++ 0x6#6 ++ d ++ a ++ b ++ 0x0#10)
  | .ssub c d a b => some (c ++ 0x6#6 ++ d ++ a ++ b ++ 0x1#10)
  | .smul c d a b => some (c ++ 0x6#6 ++ d ++ a ++ b ++ 0x2#10)
  | .smulh c d a b => some (c ++ 0x6#6 ++ d ++ a ++ b ++ 0x3#10)
  | .smulhn c d a b => some (c ++ 0x6#6 ++ d ++ a ++ b ++ 0x4#10)
  | .sand c d a b => some (c ++ 0x6#6 ++ d ++ a ++ b ++ 0x5#10)
  | .sor c d a b => some (c ++ 0x6#6 ++ d ++ a ++ b ++ 0x6#10)
  | .sxor c d a b => some (c ++ 0x6#6 ++ d ++ a ++ b ++ 0x7#10)
  | .sshl c d a b => some (c ++ 0x6#6 ++ d ++ a ++ b ++ 0x8#10)
  | .sshr c d a b => some (c ++ 0x6#6 ++ d ++ a ++ b ++ 0x9#10)
  | .ssra c d a b => some (c ++ 0x6#6 ++ d ++ a ++ b ++ 0xA#10)
  | .smin c d a b => some (c ++ 0x6#6 ++ d ++ a ++ b ++ 0xB#10)
  | .smax c d a b => some (c ++ 0x6#6 ++ d ++ a ++ b ++ 0xC#10)
  | .sminn c d a b => some (c ++ 0x6#6 ++ d ++ a ++ b ++ 0xD#10)
  | .smaxn c d a b => some (c ++ 0x6#6 ++ d ++ a ++ b ++ 0xE#10)
  | .seq c d a b => some (c ++ 0x6#6 ++ d ++ a ++ b ++ 0xF#10)
  | .slt c d a b => some (c ++ 0x6#6 ++ d ++ a ++ b ++ 0x10#10)
  | .sltn c d a b => some (c ++ 0x6#6 ++ d ++ a ++ b ++ 0x11#10)
  | .smov c d a t => some (c ++ 0x6#6 ++ d ++ a ++ t ++ 0x12#10)
  | .saddi c d a i => some (c ++ 0x7#6 ++ d ++ a ++ 0x0#3 ++ i)
  | .sandi c d a i => some (c ++ 0x7#6 ++ d ++ a ++ 0x1#3 ++ i)
  | .sori c d a i => some (c ++ 0x7#6 ++ d ++ a ++ 0x2#3 ++ i)
  | .sxori c d a i => some (c ++ 0x7#6 ++ d ++ a ++ 0x3#3 ++ i)
  | .sshli c d a n => some (c ++ 0x7#6 ++ d ++ a ++ 0x100#9 ++ n)
  | .sshri c d a n => some (c ++ 0x7#6 ++ d ++ a ++ 0x140#9 ++ n)
  | .ssrai c d a n => some (c ++ 0x7#6 ++ d ++ a ++ 0x180#9 ++ n)
  | .slti c d a i => some (c ++ 0x7#6 ++ d ++ a ++ 0x7#3 ++ i)
  | .sli c d i => some (c ++ 0x8#6 ++ d ++ i)
  | .slih c d i => some (c ++ 0x9#6 ++ d ++ i)
  | .vadd c d a b => some (c ++ 0xC#6 ++ d ++ a ++ b ++ 0x0#7)
  | .vsub c d a b => some (c ++ 0xC#6 ++ d ++ a ++ b ++ 0x1#7)
  | .vmul c d a b => some (c ++ 0xC#6 ++ d ++ a ++ b ++ 0x2#7)
  | .vmulh c d a b => some (c ++ 0xC#6 ++ d ++ a ++ b ++ 0x3#7)
  | .vmulhn c d a b => some (c ++ 0xC#6 ++ d ++ a ++ b ++ 0x4#7)
  | .vand c d a b => some (c ++ 0xC#6 ++ d ++ a ++ b ++ 0x5#7)
  | .vor c d a b => some (c ++ 0xC#6 ++ d ++ a ++ b ++ 0x6#7)
  | .vxor c d a b => some (c ++ 0xC#6 ++ d ++ a ++ b ++ 0x7#7)
  | .vandn c d a b => some (c ++ 0xC#6 ++ d ++ a ++ b ++ 0x8#7)
  | .vshl c d a b => some (c ++ 0xC#6 ++ d ++ a ++ b ++ 0x9#7)
  | .vshr c d a b => some (c ++ 0xC#6 ++ d ++ a ++ b ++ 0xA#7)
  | .vsra c d a b => some (c ++ 0xC#6 ++ d ++ a ++ b ++ 0xB#7)
  | .vmin c d a b => some (c ++ 0xC#6 ++ d ++ a ++ b ++ 0xC#7)
  | .vmax c d a b => some (c ++ 0xC#6 ++ d ++ a ++ b ++ 0xD#7)
  | .vminn c d a b => some (c ++ 0xC#6 ++ d ++ a ++ b ++ 0xE#7)
  | .vmaxn c d a b => some (c ++ 0xC#6 ++ d ++ a ++ b ++ 0xF#7)
  | .vabs c d a b => some (c ++ 0xC#6 ++ d ++ a ++ b ++ 0x10#7)
  | .vneg c d a b => some (c ++ 0xC#6 ++ d ++ a ++ b ++ 0x11#7)
  | .vclz c d a b => some (c ++ 0xC#6 ++ d ++ a ++ b ++ 0x12#7)
  | .vpopc c d a b => some (c ++ 0xC#6 ++ d ++ a ++ b ++ 0x13#7)
  | .vadds c d a b => some (c ++ 0xC#6 ++ d ++ a ++ b ++ 0x14#7)
  | .vsubs c d a b => some (c ++ 0xC#6 ++ d ++ a ++ b ++ 0x15#7)
  | .vbfe c d a b => some (c ++ 0xC#6 ++ d ++ a ++ b ++ 0x16#7)
  | .vbfi c d a b => some (c ++ 0xC#6 ++ d ++ a ++ b ++ 0x17#7)
  | .vpack c d a b => some (c ++ 0xC#6 ++ d ++ a ++ b ++ 0x18#7)
  | .vunpk c d a b => some (c ++ 0xC#6 ++ d ++ a ++ b ++ 0x19#7)
  | .vadda c d a b => some (c ++ 0xC#6 ++ d ++ a ++ b ++ 0x1A#7)
  | .vaddi c d a i => some (c ++ 0xD#6 ++ d ++ a ++ 0x0#3 ++ i)
  | .vandi c d a i => some (c ++ 0xD#6 ++ d ++ a ++ 0x1#3 ++ i)
  | .vori c d a i => some (c ++ 0xD#6 ++ d ++ a ++ 0x2#3 ++ i)
  | .vxori c d a i => some (c ++ 0xD#6 ++ d ++ a ++ 0x3#3 ++ i)
  | .vshli c d a n => some (c ++ 0xD#6 ++ d ++ a ++ 0x40#7 ++ n)
  | .vshri c d a n => some (c ++ 0xD#6 ++ d ++ a ++ 0x50#7 ++ n)
  | .vsrai c d a n => some (c ++ 0xD#6 ++ d ++ a ++ 0x60#7 ++ n)
  | .vmuli c d a i => some (c ++ 0xD#6 ++ d ++ a ++ 0x7#3 ++ i)
  | .vli c d t i => some (c ++ 0x2F#6 ++ d ++ t ++ i)
  | .fadd c d a b r => some (c ++ 0xE#6 ++ d ++ a ++ b ++ r ++ 0x0#5)
  | .fsub c d a b r => some (c ++ 0xE#6 ++ d ++ a ++ b ++ r ++ 0x1#5)
  | .fmul c d a b r => some (c ++ 0xE#6 ++ d ++ a ++ b ++ r ++ 0x2#5)
  | .fdiv c d a b r => some (c ++ 0xE#6 ++ d ++ a ++ b ++ r ++ 0x3#5)
  | .fsqrt c d a b r => some (c ++ 0xE#6 ++ d ++ a ++ b ++ r ++ 0x4#5)
  | .fmin c d a b => some (c ++ 0xE#6 ++ d ++ a ++ b ++ 0x5#7)
  | .fmax c d a b => some (c ++ 0xE#6 ++ d ++ a ++ b ++ 0x6#7)
  | .fabs c d a b => some (c ++ 0xE#6 ++ d ++ a ++ b ++ 0x7#7)
  | .fneg c d a b => some (c ++ 0xE#6 ++ d ++ a ++ b ++ 0x8#7)
  | .fcopysign c d a b => some (c ++ 0xE#6 ++ d ++ a ++ b ++ 0x9#7)
  | .fminnum c d a b => some (c ++ 0xE#6 ++ d ++ a ++ b ++ 0xA#7)
  | .fmaxnum c d a b => some (c ++ 0xE#6 ++ d ++ a ++ b ++ 0xB#7)
  | .ffma c d a b e x => some (c ++ 0xF#6 ++ d ++ a ++ b ++ e ++ x)
  | .ffman c d a b e x => some (c ++ 0x10#6 ++ d ++ a ++ b ++ e ++ x)
  | .vimad c d a b e x => some (c ++ 0x11#6 ++ d ++ a ++ b ++ e ++ x)
  | .frcp c d a b => some (c ++ 0x12#6 ++ d ++ a ++ b ++ 0x0#7)
  | .frsq c d a b => some (c ++ 0x12#6 ++ d ++ a ++ b ++ 0x1#7)
  | .fexp2 c d a b => some (c ++ 0x12#6 ++ d ++ a ++ b ++ 0x2#7)
  | .flog2 c d a b => some (c ++ 0x12#6 ++ d ++ a ++ b ++ 0x3#7)
  | .fsinpi c d a b => some (c ++ 0x12#6 ++ d ++ a ++ b ++ 0x4#7)
  | .fcospi c d a b => some (c ++ 0x12#6 ++ d ++ a ++ b ++ 0x5#7)
  | .ftanh c d a b => some (c ++ 0x12#6 ++ d ++ a ++ b ++ 0x6#7)
  | .vcvt c d a p t m s => some (c ++ 0x13#6 ++ d ++ a ++ 0x0#3 ++ p ++ t ++ m ++ s)
  | .vcmp c p a b m k => some (c ++ 0xA0#9 ++ p ++ a ++ b ++ 0x0#1 ++ m ++ k)
  | .vsel c d a b p x => some (c ++ 0x15#6 ++ d ++ a ++ b ++ 0x0#3 ++ p ++ x)
  | .vdot c d a b e x => some (c ++ 0x16#6 ++ d ++ a ++ b ++ e ++ x)
  | .pand c d a b => some (c ++ 0x58#9 ++ d ++ 0x0#3 ++ a ++ 0x0#3 ++ b ++ 0x0#7)
  | .por c d a b => some (c ++ 0x58#9 ++ d ++ 0x0#3 ++ a ++ 0x0#3 ++ b ++ 0x1#7)
  | .pxor c d a b => some (c ++ 0x58#9 ++ d ++ 0x0#3 ++ a ++ 0x0#3 ++ b ++ 0x2#7)
  | .pandn c d a b => some (c ++ 0x58#9 ++ d ++ 0x0#3 ++ a ++ 0x0#3 ++ b ++ 0x3#7)
  | .ptov c d => some (c ++ 0xB#6 ++ d ++ 0x4#19)
  | .vtop c a => some (c ++ 0x2C0#12 ++ a ++ 0x5#13)
  | .vtos c s a => some (c ++ 0x14#7 ++ s ++ a ++ 0x0#13)
  | .stov c d s => some (c ++ 0xA#6 ++ d ++ 0x0#1 ++ s ++ 0x1#13)
  | .vretag c d a t => some (c ++ 0xA#6 ++ d ++ a ++ 0x0#2 ++ t ++ 0x2#7)
  | .shfl c d a b p m => some (c ++ 0x17#6 ++ d ++ a ++ b ++ p ++ 0x0#3 ++ m)
  | .shflup c d a b p m => some (c ++ 0x17#6 ++ d ++ a ++ b ++ p ++ 0x1#3 ++ m)
  | .shfldn c d a b p m => some (c ++ 0x17#6 ++ d ++ a ++ b ++ p ++ 0x2#3 ++ m)
  | .shflx c d a b p m => some (c ++ 0x17#6 ++ d ++ a ++ b ++ p ++ 0x3#3 ++ m)
  | .bcast c d a b p m => some (c ++ 0x17#6 ++ d ++ a ++ b ++ p ++ 0x4#3 ++ m)
  | .voteAny c d p m => some (c ++ 0x18#6 ++ d ++ 0x0#3 ++ p ++ 0x0#10 ++ m)
  | .voteAll c d p m => some (c ++ 0x18#6 ++ d ++ 0x0#3 ++ p ++ 0x1#10 ++ m)
  | .voteBal c d p m => some (c ++ 0x18#6 ++ d ++ 0x0#3 ++ p ++ 0x2#10 ++ m)
  | .voteEq c d p m => some (c ++ 0x18#6 ++ d ++ 0x0#3 ++ p ++ 0x3#10 ++ m)
  | .redadd c d a m => some (c ++ 0x18#6 ++ d ++ a ++ 0x4#10 ++ m)
  | .redmin c d a m => some (c ++ 0x18#6 ++ d ++ a ++ 0x5#10 ++ m)
  | .redmax c d a m => some (c ++ 0x18#6 ++ d ++ a ++ 0x6#10 ++ m)
  | .redand c d a m => some (c ++ 0x18#6 ++ d ++ a ++ 0x7#10 ++ m)
  | .redor c d a m => some (c ++ 0x18#6 ++ d ++ a ++ 0x8#10 ++ m)
  | .redxor c d a m => some (c ++ 0x18#6 ++ d ++ a ++ 0x9#10 ++ m)
  | .scanadd c d a m => some (c ++ 0x18#6 ++ d ++ a ++ 0xA#10 ++ m)
  | .scanaddx c d a m => some (c ++ 0x18#6 ++ d ++ a ++ 0xB#10 ++ m)
  | .xmatch c d a m => some (c ++ 0x18#6 ++ d ++ a ++ 0xC#10 ++ m)
  | .ld c d a p z t o m => some (c ++ 0x19#6 ++ d ++ a ++ p ++ z ++ t ++ o ++ m)
  | .st c d a p z t o m => some (c ++ 0x1A#6 ++ d ++ a ++ p ++ z ++ t ++ o ++ m)
  | .atom c d a p z k o m => some (c ++ 0x1B#6 ++ d ++ a ++ p ++ z ++ k ++ o ++ m)
  | .fence c s => some (c ++ 0x1C0#10 ++ s ++ 0x0#18)
  | .publish c b t => some (c ++ 0x1C1#10 ++ b ++ t ++ 0x0#16)
  | .berthSet c b a => some (c ++ 0x1C2#10 ++ b ++ a ++ 0x0#12)
  | .berthClr c b => some (c ++ 0x1C3#10 ++ b ++ 0x0#17)
  | .ldt c t a b p => some (c ++ 0x1D#6 ++ t ++ a ++ b ++ p ++ 0x0#9)
  | .stt c t a b p => some (c ++ 0x1E#6 ++ t ++ a ++ b ++ p ++ 0x0#9)
  | .lndInit c a b s => some (c ++ 0x3E00#15 ++ a ++ b ++ s ++ 0x0#3)
  | .lndExpectIn c a b s => some (c ++ 0x3E20#15 ++ a ++ b ++ s ++ 0x0#3)
  | .lndExpectOut c a b s => some (c ++ 0x3E40#15 ++ a ++ b ++ s ++ 0x0#3)
  | .lndArrive c d a s => some (c ++ 0x1F3#10 ++ d ++ a ++ 0x0#5 ++ s ++ 0x0#3)
  | .lndWait c a b s => some (c ++ 0x3E80#15 ++ a ++ b ++ s ++ 0x0#3)
  | .lndTest c d a s => some (c ++ 0x1F5#10 ++ d ++ a ++ 0x0#5 ++ s ++ 0x0#3)
  | .strmSet c a q => some (c ++ 0x400#11 ++ a ++ 0x0#13 ++ q)
  | .strmStop c q => some (c ++ 0x10000001#29 ++ q)
  | .fcopy c d a b l => some (c ++ 0x21#6 ++ d ++ a ++ b ++ 0x0#9 ++ l)
  | .fgath c d a b l => some (c ++ 0x22#6 ++ d ++ a ++ b ++ 0x0#9 ++ l)
  | .fscat c d a b l => some (c ++ 0x22#6 ++ d ++ a ++ b ++ 0x1#9 ++ l)
  | .fatom c d a b l => some (c ++ 0x23#6 ++ d ++ a ++ b ++ 0x0#9 ++ l)
  | .fput c d a b l => some (c ++ 0x24#6 ++ d ++ a ++ b ++ 0x0#9 ++ l)
  | .fputs c d a b l => some (c ++ 0x24#6 ++ d ++ a ++ b ++ 0x1#9 ++ l)
  | .fget c d a b l => some (c ++ 0x24#6 ++ d ++ a ++ b ++ 0x2#9 ++ l)
  | .collAllred c d a b l => some (c ++ 0x25#6 ++ d ++ a ++ b ++ 0x0#9 ++ l)
  | .collAllgath c d a b l => some (c ++ 0x25#6 ++ d ++ a ++ b ++ 0x1#9 ++ l)
  | .collRedscat c d a b l => some (c ++ 0x25#6 ++ d ++ a ++ b ++ 0x2#9 ++ l)
  | .collBcast c d a b l => some (c ++ 0x25#6 ++ d ++ a ++ b ++ 0x3#9 ++ l)
  | .collCbar c d a b l => some (c ++ 0x25#6 ++ d ++ a ++ b ++ 0x4#9 ++ l)
  | .nmc c d a b => some (c ++ 0x26#6 ++ d ++ a ++ b ++ 0x0#10)
  | .fpref c a b h => some (c ++ 0x4E0#11 ++ a ++ b ++ 0x0#7 ++ h ++ 0x0#1)
  | .fcancel c d a => some (c ++ 0x27#6 ++ d ++ a ++ 0x1#15)
  | .mma c b a t n m g z w => some (c ++ 0x28#6 ++ b ++ a ++ t ++ n ++ m ++ g ++ z ++ w)
  | .movts c t a => some (c ++ 0x52#7 ++ t ++ a ++ 0x0#15)
  | .movst c d t => some (c ++ 0x29#6 ++ d ++ 0x0#1 ++ t ++ 0x1#15)
  | .accz c a => some (c ++ 0x520#11 ++ a ++ 0x2#15)
  | .mchk c d => some (c ++ 0x29#6 ++ d ++ 0x3#20)
  | .tcvt c t s m f => some (c ++ 0x52#7 ++ t ++ 0x0#10 ++ s ++ m ++ f ++ 0x4#3)
  | .tzero c t => some (c ++ 0x52#7 ++ t ++ 0x5#20)
  | .accst c d a b x y q p u f t => some (c ++ 0x2A#6 ++ d ++ a ++ b ++ x ++ y ++ q ++ p ++ u ++ f ++ t)
  | .accld c d a p => some (c ++ 0x2B#6 ++ d ++ a ++ 0x0#14 ++ p)
  | .trap c n => some (c ++ 0x58000#19 ++ n)
  | .rteRetry c => some (c ++ 0x58001000#31)
  | .rteCommit c => some (c ++ 0x58002000#31)
  | .rteSkip c => some (c ++ 0x58003000#31)
  | .brk c n => some (c ++ 0x58004#19 ++ n)
  | .csrr c d r => some (c ++ 0x2D#6 ++ d ++ 0x0#8 ++ r)
  | .csrw c a r => some (c ++ 0x5A0#11 ++ a ++ 0x1#3 ++ r)
  | .csrs c a r => some (c ++ 0x5A0#11 ++ a ++ 0x2#3 ++ r)
  | .csrc c a r => some (c ++ 0x5A0#11 ++ a ++ 0x3#3 ++ r)
  | .launch c d a b => some (c ++ 0x2E#6 ++ d ++ a ++ b ++ 0x0#10)
  | .illegalOpcodeWord _ => none
  | .issueOpportunity _ => none
  | .runEnd => none
  | .loadReturn _ _ => none
  | .storePerform _ => none
  | .vaultStoreHomeArrival _ _ => none
  | .atomHomeApply _ => none
  | .atomReplyReturn _ _ => none
  | .landingUpdateApply _ => none
  | .streamElementFetch _ _ _ => none
  | .tileOpStart _ _ => none
  | .mmaTwinEngage _ => none
  | .tileOpComplete _ _ => none
  | .engineTransferPart _ _ _ => none
  | .faultQueueRecordWrite _ _ => none
  | .fqResolveResume _ _ => none
  | .fqResolveUnresolvable _ _ => none
  | .engineCommandComplete _ _ => none
  | .fatomPerform _ _ => none
  | .nmcRun _ _ => none
  | .cbarArrival _ _ => none
  | .ticketedRequestArrival _ => none
  | .fabricAckReceive _ _ _ => none
  | .handlerEntry _ => none
  | .deferredTrapEntry _ => none
  | .rendezvousTimeout _ _ => none
  | .templateCrewCreate _ _ => none
  | .imageTake _ => none
  | .doorbellWrite _ _ _ _ => none
  | .recordAdmission _ _ => none
  | .blockAssign _ => none
  | .blockDispatch _ => none
  | .cargoStaging _ => none
  | .blockWriteback _ => none
  | .blockRetirement _ => none
  | .launchCompletion _ => none
  | .schedQdesc _ _ => none
  | .schedQstop _ _ => none
  | .balanceExchange _ => none
  | .quantumExpiry _ => none
  | .candidateReserve _ _ => none
  | .freezeSignal _ => none
  | .capture _ => none
  | .contextSave _ => none
  | .restore _ _ => none
  | .manifestReplayStep _ => none
  | .watchdog _ => none
  | .shadowCompare _ => none
  | .shadowTimeout _ => none
  | .sactKillBlock _ => none
  | .sactKillContext _ => none
  | .pwaysWrite _ _ => none
  | .pwaysChangeComplete _ => none
  | .registerWrite _ _ _ => none
  | .resizeMove _ => none
  | .interruptSourceEnable _ _ => none
  | .hostMemoryAccess _ => none
  | .pcieInboundWrite _ _ => none
  | .ideIntegrityFailure _ => none
  | .migrationCut _ => none
  | .flitSend _ => none
  | .keyInstall _ _ _ _ _ => none
  | .flitIdleReceive _ _ => none
  | .flitDataReceive _ _ => none
  | .flitOpenReceive _ _ => none
  | .flitMarkerReceive _ _ => none
  | .flitCutReceive _ _ => none
  | .flitAbortReceive _ _ => none
  | .linkRetrain _ => none
  | .linkLaneLoss _ _ => none
  | .dieBridgeFailure _ => none
  | .sliceTrip _ _ => none
  | .patrolRead _ _ => none
  | .hbmtest _ _ => none
  | .logread _ _ => none
  | .powerPstate _ => none
  | .powerGate _ => none
  | .fwstage _ => none
  | .fwactivate => none
  | .bind _ _ _ _ => none
  | .release _ _ => none
  | .portmode _ _ _ => none
  | .coldReset _ => none
  | .measurementRequest _ _ _ _ => none
  | .debugUnlock _ _ => none
  | .flitInvalidTypeReceive _ _ => none
  | .linkTrained _ _ _ => none
  | .spdmSessionEstablish _ _ _ _ => none
  | .spdmSessionEnd _ => none
  | .tdispRequest _ _ => none
  | .debugBlockResume _ _ => none
  | .mailboxInvalidCode _ _ _ => none
  | .contextCreate _ _ _ _ => none
  | .contextDestroy _ => none
  | .rosterEstablish _ _ _ => none
  | .ethernetFrameReceive _ _ => none

end Sys2Proof
end

