-- ==== Sys2Proof/Config.lean ====
section
/-! DEFINITION. What one implementation fixes and the spec leaves open: the free values. None has a body, so no proof can know one. -/

namespace Sys2Proof.Config

/-- Free bytes, taken one after another by State.freeCtr: contents that the spec calls undefined (log 5). -/
opaque freeByte : Nat → BitVec 8

/-- A special function's result where the model's enclosure does not decide the rounding, by function code, format and operand (log 10). -/
opaque freeSpecial : Nat → Nat → Nat → Nat

/-- The order in which the check of an accumulator row adds binary64 values (R199, R200): the spec states none (log 20). -/
opaque sumOrder : List Nat → Nat

/-- Where in a context's save area the Slipway writes the trap frame of the crew with a key (R370): the spec fixes no place (log 17). -/
opaque frameOffset : Nat → Nat

/-- Where in a context's save area core part k begins: the spec lets each part's header say it (R398, log 45). -/
opaque partOffset : Nat → BitVec 40

/-- The bytes of the sections of a core part whose form the spec does not give, by section, contents and place (R398, log 45). -/
opaque saveForm : Nat → List Nat → Nat → BitVec 8

/-- Whether the collectives of a group's members on other devices disagree with those here in what no flit says: operation, ETYPE or ROOT, by the members, as node and
context, and the number of the collective (R306, R488, log 23). -/
opaque collDiffers : List (Nat × Nat) → Nat → Bool

/-- The measurement of the ROM (R476, R477). -/
opaque rom : List (BitVec 8)

/-- The signature of the device key over a measurement answer (R478): the spec gives no key (log 11). -/
opaque deviceSign : List (List (BitVec 8)) → List (BitVec 8)

/-- Whether a runtime image carries a valid Prafel signature (R480): the spec gives no key (log 11). -/
opaque prafelSigned : List (BitVec 8) → Bool

/-- The two keys of XTS that a tenant's key gives (R420): the spec gives the cipher and no derivation of its keys (log 11). -/
opaque xtsKeys : BitVec 256 → BitVec 256 × BitVec 256

/-- The key of CMAC that a tenant's key gives (R420): the spec gives the algorithm and no derivation of its key (log 11). -/
opaque macKey : BitVec 256 → BitVec 256

/-- A partition's save key, which the Harbourmaster makes (R402, log 45). -/
opaque saveKey : Nat → BitVec 256

/-- The integrity tag of a sector of a core part, by save key, address, SAVESEQ and bytes (R402): the spec names no algorithm (log 45). -/
opaque saveTag : BitVec 256 → Nat → Nat → List (BitVec 8) → BitVec 96

/-- Half of what a fabric port may have sent and not acknowledged at full width, in flits above one (R452). -/
opaque halfWindow : Nat

/-- The IDE key that the Harbourmaster programs over a session (R479). -/
opaque ideKey : Nat → BitVec 256

/-- The physical address at which a slice's scheduler answers the doorbell of a partition's queue (R340): the spec fixes no place (log 42). -/
opaque doorbell : Nat → Nat → Nat → BitVec 64

end Sys2Proof.Config
end

