-- ==== Sys2Proof/Machine/State.lean ====
section
/-! DEFINITION. The state of the PMX-9160 as plain data: everything INVENTORY.md lists under State, and State.reset.
Maps from numbers (crews, blocks, slots ...) are lists of pairs with rising keys; memories are lists of cells in the one canonical form of Machine/Mem.lean. -/

namespace Sys2Proof.Machine

/-- A map from numbers to records, as a list of pairs; Machine/Mem.lean reads and writes it and keeps the keys rising. -/
abbrev Table (α : Type) := List (Nat × α)

/-- Bytes at addresses; an unlisted address reads 0 (R239, R210, R42, R476 step 3). -/
abbrev Memory := List Host.Cell

/-- The format tags (R52). -/
inductive Tag where
  | raw | i32 | n32 | i64 | n64 | f32 | f64 | f16x4 | bf16x4 | e4m3x8 | e5m2x8 | tt8x8 | i8x8 | i16x4 | m64 | poison
  deriving DecidableEq, Repr

/-- A register or result-queue entry: 64 bits, a tag, and the operation whose result it awaits (R25, R246). -/
structure RegVal where
  bits : DWord := 0
  tag : Tag := .raw
  pend : Option Nat := none
  deriving DecidableEq, Repr

/-- The state of one item (R42): v0-v31, h0-h7, p0-p7 (bit k is pk; p0 is read as true by the accessor), the result queue with q1 first, and whether it has exited. -/
structure Lane where
  v : Vector RegVal 32 := Vector.replicate 32 {}
  h : Vector RegVal 8 := Vector.replicate 8 {}
  p : BitVec 8 := 1
  q : List RegVal := []
  exited : Bool := false
  deriving DecidableEq, Repr

/-- The four counters of %cnt (R72). -/
structure Counts where
  loads : Nat := 0
  stores : Nat := 0
  copies : Nat := 0
  tileops : Nat := 0
  deriving DecidableEq, Repr

/-- The registers 0x400-0x406 (R69, R359). -/
structure TrapRegs where
  tcause : DWord := 0
  tpc : DWord := 0
  tmask : DWord := 0
  taddr : DWord := 0
  tskid : DWord := 0
  tinfo : DWord := 0
  tframe : DWord := 0
  deriving DecidableEq, Repr

/-- What the words of a crew read and write: its lanes, scalars and control registers. A chain group reads the copy taken before it issued (R14). -/
structure CrewRegs where
  lanes : List Lane := []
  s : Vector RegVal 32 := Vector.replicate 32 {}
  hs : Vector RegVal 4 := Vector.replicate 4 {}
  fpmode : DWord := 0
  fpflags : DWord := 0
  fptrap : DWord := 0
  tile : BitVec 3 := 0
  cnt : Counts := {}
  restart : DWord := 0
  cowcnt : DWord := 0
  treg : TrapRegs := {}
  shandler : DWord := 0
  deriving DecidableEq, Repr

/-- The trap causes (R359). -/
inductive Cause where
  | illegal | illop | tag | fpx | align | bounds | prot | lane | rvto | runlen | freeze | stream | landing
  | mcheck | shadow | poison | ndet | trap | brk | watchdog
  deriving DecidableEq, Repr

/-- What one trap carries to its handler (R359, R370, R372). -/
structure TrapInfo where
  cause : Cause
  packet : DWord
  word : Nat
  mask : DWord
  addr : DWord := 0
  info : DWord := 0
  defer : Bool := false
  amask : DWord := 0
  flags : BitVec 5 := 0
  /-- for FPX, per lane the pending result and the operands A, B, Cx (R372) -/
  fpx : List (Nat × (RegVal × RegVal × RegVal × RegVal)) := []
  deriving DecidableEq, Repr

/-- The three returns (R375). -/
inductive RteForm where
  | retry | commit | skip
  deriving DecidableEq, Repr

/-- What a control-transfer word decided when it issued (R119, R130, R134, R375); it acts at run end. -/
inductive TransferKind where
  /-- the lanes that take the transfer and their targets -/
  | jump (take : DWord) (dest : List (Nat × DWord))
  /-- the active lanes of an EXIT -/
  | exit (mask : DWord)
  /-- a FREEZE that passed its checks -/
  | freeze (level : Nat)
  /-- a return from the handler -/
  | rte (form : RteForm)
  deriving DecidableEq, Repr

/-- A recorded control transfer with the place of its word. -/
structure Transfer where
  packet : DWord
  word : Nat
  /-- the lanes active at the word -/
  active : DWord
  kind : TransferKind
  deriving DecidableEq, Repr

/-- A guard in force: the lanes it admits and the words it still covers (R124). -/
structure Guard where
  allow : DWord
  left : Nat
  deriving DecidableEq, Repr

/-- Why a group does not issue its next word now (R22, R217). -/
inductive Wait where
  | operand | waitc | landing | rendezvous | ferrySlot | ring | storeSpace | element | horizon | fence | freeze | shadow | follow | rte | manifest
  deriving DecidableEq, Repr

/-- What a cross-lane word that issued for several groups together left to one of them to write: per lane the result and its flags (R164). -/
structure Rendezvous where
  results : List (Nat × RegVal × BitVec 5)
  deriving DecidableEq, Repr

/-- A stream installed on an operand queue (R269-R271): the descriptor, the installed width, each lane's position, and per lane the elements fetched ahead with any fault or poison. -/
structure StreamInst where
  desc : List Byte
  width : Nat
  pos : List Nat
  fetched : List (Nat × Nat × RegVal × Option (Cause × DWord)) := []
  /-- the issue number of the STRM.SET: earlier stores perform before any fetch -/
  setAt : Nat := 0
  word : Word := 0
  /-- the lowest lane that was active at the word (R426) -/
  lane : Nat := 0
  deriving DecidableEq, Repr

/-- One program-counter group (R213). -/
structure Group where
  id : Nat
  lanes : DWord
  /-- the packet and word that issue next; at a run start, the run's first packet -/
  packet : DWord
  word : Nat := 0
  runStart : DWord
  /-- the run's final packet once the run check has passed; none at a run start -/
  final : Option DWord := none
  /-- every word of the run has issued -/
  atEnd : Bool := false
  /-- the packet that the group has fetched whole and not left, with its address (R11) -/
  code : Option (DWord × List Word) := none
  /-- the registers as they stood before the chain group now issuing; none when the next word begins one -/
  snap : Option CrewRegs := none
  /-- the fill count as it stood before the chain group now issuing -/
  snapFill : Nat := 0
  /-- the crew's operand queues as they stood before the chain group now issuing, its own pops taken (R14, R28) -/
  snapQueues : Table StreamInst := []
  /-- the shape records of the crew's side as they stood before the chain group now issuing (R14) -/
  snapShapes : List DWord := []
  fill : Nat := 0
  guards : List Guard := []
  transfer : Option Transfer := none
  /-- the %tile code in force for this run (R73) -/
  tileCode : BitVec 3 := 0
  /-- the codes the last trailer named (R24) -/
  trailer : List (BitVec 6) := []
  wait : Option Wait := none
  /-- the core's %clk when a rendezvous wait began (R166) -/
  since : Option Nat := none
  passed : Nat := 0
  owed : Option Nat := none
  /-- the YIELD marker that the selection looks at (R129, R215) -/
  yielded : Bool := false
  /-- a YIELD has issued in this run; the marker is set at its end (R129) -/
  yielding : Bool := false
  /-- a trap detected and not yet entered (R366) -/
  trap : Option TrapInfo := none
  /-- the core's %clk when that trap was detected (R367) -/
  trapAt : Nat := 0
  halted : Bool := false
  skid : Nat := 0
  /-- the group's cross-lane word has issued with those of other groups, and these are its results to write (R164) -/
  joined : Option Rendezvous := none
  deriving DecidableEq, Repr

/-- Where an access of a crew falls. A berth access captures the entry's installation and both sides (R258), with its berth-logical address. -/
inductive Loc where
  /-- block-relative scratchpad of the crew's own side -/
  | spad (off : Nat)
  /-- vault SRAM, numbered through the package: core × 8 MB + offset -/
  | vault (pa : Nat)
  | berth (install : Nat) (vault : Bool) (side0 side1 addr : Nat)
  deriving DecidableEq, Repr

/-- The atomic operations (R249). -/
inductive AtomOp where
  | add | fadd | min | max | minn | maxn | and | or | xor | exch | cas
  deriving DecidableEq, Repr

/-- The updates of a landing (R261-R264, R308, R351, R454). -/
inductive LandOp where
  /-- LND.INIT with its EXP -/
  | init (exp : Nat)
  | expectIn (n : Nat)
  | expectOut (n : Nat)
  | arrive
  | countIn (n : Nat)
  | countOut (n : Nat)
  | status (st : Nat)
  deriving DecidableEq, Repr

/-- One lane of an atomic: its place, its operand, and for CAS the new value. -/
structure AtomLane where
  lane : Nat
  loc : Loc
  operand : RegVal
  second : RegVal
  deriving DecidableEq, Repr

/-- What a store-queue entry does when it performs (R247, R250). -/
inductive StoreOp where
  | st (lanes : List (Nat × Loc × List Byte))
  | atom (op : AtomOp) (size : Nat) (rd : Nat) (lanes : List AtomLane)
  | lnd (op : LandOp) (loc : Loc) (sd : Option Nat)
  deriving DecidableEq, Repr

/-- A store-queue entry: its issue order, ordering, scope, ticket (R385), the operation number its results carry, and its word. -/
structure StoreEnt where
  id : Nat
  op : StoreOp
  release : Bool := false
  acquire : Bool := false
  sc : Bool := false
  scope : Nat := 0
  ticket : Option DWord := none
  word : Word := 0
  /-- the crew's next ticket sequence when a release-ordered entry issued (R391) -/
  atSeq : BitVec 16 := 0
  /-- the crew's ticket horizon as it stood at issue (R386) -/
  hor : BitVec 16 := 0
  /-- for a crew-uniform word, the lowest active lane (R426) -/
  lane : Nat := 0
  deriving DecidableEq, Repr

/-- An outstanding load (R246): its operation number is its issue order too. -/
structure LoadOp where
  id : Nat
  ty : Tag
  size : Nat
  dest : BitVec 6
  lanes : List (Nat × Loc)
  acquire : Bool := false
  sc : Bool := false
  word : Word := 0
  gen : BitVec 8 := 0
  deriving DecidableEq, Repr

/-- An atomic or landing update that has performed and whose reply is on its way (R250, R264). -/
structure Reply where
  id : Nat
  rd : Option Nat
  sd : Option Nat
  lanes : List (Nat × RegVal)
  ticket : Option DWord := none
  gen : BitVec 8 := 0
  /-- the entry that was applied, kept for the manifest (KIND 0x06) -/
  ent : StoreEnt
  deriving DecidableEq, Repr

/-- A translation fault at which the scheduler or the Slipway waits (R278, R288, R340): address, write, the FTAG of its record once written, and the 16-byte chunks moved before it. -/
structure Pause where
  addr : DWord
  write : Bool
  ftag : Option Nat := none
  moved : Nat := 0
  /-- whether it still waits; after a resume verdict the move goes on -/
  waiting : Bool := true
  /-- the granule of global memory that a cargo move read last: partition, granule, bytes, poisoned (R324) -/
  ahead : Option (Nat × Nat × List Byte × Bool) := none
  deriving DecidableEq, Repr

/-- A deferred trap owed to a crew (R361, R362): its cause, %taddr with its validity, %tinfo. -/
structure Deferred where
  cause : Cause
  addr : Option DWord
  info : DWord
  /-- its address is a guest virtual address (R455) -/
  guest : Bool := false
  /-- the event fell during a halt of the crew's block (R366) -/
  duringHalt : Bool := false
  deriving DecidableEq, Repr

/-- The role of a crew in a launch's template (R219, R220, R224). -/
inductive CrewRole where
  | normal | launchTemplate | blockTemplate
  deriving DecidableEq, Repr

/-- The handler that a crew runs and the interrupted group's position, to which the return goes back (R360, R368, R375). -/
structure Serving where
  supervisor : Bool
  info : TrapInfo
  gmask : DWord
  runStart : DWord
  final : Option DWord
  atEnd : Bool
  guards : List Guard
  transfer : Option Transfer
  tileCode : BitVec 3
  trailer : List (BitVec 6)
  yielding : Bool := false
  joined : Option Rendezvous := none
  deriving DecidableEq, Repr

/-- A releasing word as it is compared (R464): its word and place, its active lanes, per lane the address and the
data, the operands of an engine or tile operation with the descriptor bytes it reads. -/
structure HeldWord where
  word : Word
  packet : DWord
  wpos : Nat
  mask : DWord
  addrs : List (Nat × DWord) := []
  data : List (Nat × List RegVal) := []
  operands : List RegVal := []
  descr : List Byte := []
  deriving DecidableEq, Repr

/-- The chain group that a lead holds for comparison (R464): its group's lanes, its releasing words, and the core's %clk when it was first held. -/
structure HeldChain where
  lanes : DWord
  words : List HeldWord
  since : Nat := 0
  deriving DecidableEq, Repr

/-- An entry of a load-value queue (R464): the lead's operation, the lanes whose value has not come yet, and per lane the value and the second value of a pair. -/
structure LvEnt where
  op : Nat := 0
  left : List Nat := []
  vals : List (Nat × RegVal × RegVal) := []
  deriving DecidableEq, Repr

/-- A crew's part in shadow mode (R463, R464, R467). The lead's part holds the chain group that waits for comparison, and whether it was released; the
shadow's part holds the load-value queue, oldest first, and the steps of the lead that the shadow has not taken yet, each as the lanes of its group (log 12). -/
structure ShadowPart where
  partner : Nat
  isShadow : Bool
  lvq : List LvEnt := []
  trail : List DWord := []
  held : Option HeldChain := none
  granted : Bool := false
  deriving DecidableEq, Repr

/-- The position of a block and the launch's sizes, as the index registers read them (R69, R70). -/
structure Geometry where
  stage : Nat := 0
  bxPos : Nat := 0
  bzPos : Nat := 0
  byPos : Nat := 0
  nbx : Nat := 1
  nby : Nat := 1
  nbz : Nat := 1
  nix : Nat := 1
  niy : Nat := 1
  niz : Nat := 1
  launchId : Word := 0
  deriving DecidableEq, Repr

/-- The kind of operation and the data of an engine command as it was issued (R281). -/
inductive EngOp where
  | fcopy | fgath | fscat | fatom | fput | fputs | fget
  | collAllred | collAllgath | collRedscat | collBcast | collCbar | nmc
  deriving DecidableEq, Repr

/-- The reference of a landing with its home (R242): scratchpad of a block's side, vault, or none. -/
inductive LandHome where
  | spad (block side off : Nat)
  | vault (pa : Nat)
  deriving DecidableEq, Repr

/-- A range written: in global memory of a partition (kind 0), in vault (1), in scratchpad of a block's side (2). -/
structure Written where
  kind : Nat
  owner : Nat
  side : Nat
  start : Nat
  len : Nat
  /-- it was written from poisoned data -/
  bad : Bool := false
  deriving DecidableEq, Repr

/-- One command in a Ferry slot (R283, R284). -/
structure FerryCmd where
  op : EngOp
  crew : Nat
  block : Nat
  side : Nat := 0
  handle : DWord
  desc : List Byte
  landing : Option LandHome := none
  landVa : Option DWord := none
  recordOff : Nat := 0
  sd : Nat := 0
  word : Word := 0
  seq : Nat := 0
  ticket : Option DWord := none
  hor : BitVec 16 := 0
  /-- the physical side of a berth destination, fixed at issue (R258) -/
  berthBase : Option (Bool × DWord) := none
  /-- elements done and bytes counted -/
  prog : Nat := 0
  total : Nat := 0
  /-- paused at a translation fault: address, write, for a peer (R408) -/
  paused : Option (DWord × Bool × Bool) := none
  ftag : Option Nat := none
  fault : Option DWord := none
  /-- the first bad sector that it read, and whether that address is a guest virtual one (R290) -/
  badRead : Option (DWord × Bool) := none
  done : Bool := false
  updates : Nat := 0
  /-- the transfers that carry it over a fabric port: port × 4096 + TXN, and the offset of the first byte (R446) -/
  txns : List (Nat × Nat) := []
  acked : Nat := 0
  /-- bytes that members on other devices must acknowledge, and whether a collective's SEND has gone out (R308) -/
  toSend : Nat := 0
  sent : Bool := false
  cancelled : Bool := false
  gen : BitVec 8 := 0
  /-- ranges written in sectors that the command has not yet written whole (R291, R292) -/
  written : List Written := []
  /-- the 32-byte granule of global memory that it read last and has not written whole: partition, granule, bytes, poisoned (R324) -/
  ahead : Option (Nat × Nat × List Byte × Bool) := none
  /-- it has ended, and its last update waits for the home of its landing: the status that the update sets (0 none, 1 aborted, 2 fault) (R288, R315, R454) -/
  ending : Option Nat := none
  /-- all that it has written (R315) -/
  wrote : List Written := []
  /-- its landing cannot be translated (R288) -/
  landDead : Bool := false
  /-- the lowest lane that was active at the word (R426) -/
  lane : Nat := 0
  deriving DecidableEq, Repr

/-- A flit before encryption: the sender's retry buffer and send queue hold these. -/
structure PlainFlit where
  ftype : Nat
  seq : BitVec 16 := 0
  len : Nat := 0
  dest : Nat := 0
  txn : Nat := 0
  fidx : Nat := 0
  payload : List Byte := []
  deriving DecidableEq, Repr

/-- What a captured command has sent and not had acknowledged: its writes may still land, and count nothing (R390). -/
structure Stray where
  core : Nat
  cmd : FerryCmd
  deriving DecidableEq, Repr

/-- A manifest entry (R391, R392): the header's fields and the operation itself as plain data. -/
inductive ManifestOp where
  /-- KIND 0x02 -/
  | storeQ (e : StoreEnt)
  /-- KIND 0x03, 0x04, 0x05, 0x07 -/
  | engine (c : FerryCmd)
  /-- KIND 0x06 -/
  | reply (r : Reply)
  /-- KIND 0x01 -/
  | load (l : LoadOp)
  /-- KIND 0x08 -/
  | stream (k : Nat) (st : StreamInst)
  /-- KIND 0x09: a tile operation, named by its number in the tile queue -/
  | tile (id : Nat)
  /-- KIND 0x0A: flits recorded at a migration cut on a slice's port (R443) -/
  | flits (slice : Nat) (ps : List PlainFlit)
  deriving DecidableEq, Repr

/-- One manifest entry with the header's KIND, CLASS, PAUSED, STARTED, WORD, TICKET, PROG and LMASK. -/
structure ManifestEnt where
  kind : Nat
  cls : Nat
  paused : Bool := false
  started : Bool := false
  word : Word := 0
  ticket : DWord := 0
  prog : Nat := 0
  lmask : DWord := 0
  op : ManifestOp
  deriving DecidableEq, Repr

/-- One crew (R205, R211). -/
structure Crew where
  id : Nat
  block : Nat
  launch : Nat
  idx : Nat
  width : Nat
  side : Nat := 0
  core : Nat := 0
  half : Nat := 0
  slot : Nat := 0
  lanePos : Nat := 0
  role : CrewRole := .normal
  geo : Geometry := {}
  regs : CrewRegs := {}
  groups : List Group := []
  /-- the chain groups that the crew's halted groups have issued since the broadcast (R365) -/
  skids : Nat := 0
  handler : Option Serving := none
  /-- template-backed registers still shared: bit k for vk, bit 32 + k for sk (R401) -/
  shared : DWord := 0
  /-- registers this crew wrote, for the backed set of an image it gives (R222) -/
  wrote : DWord := 0
  storeQ : List StoreEnt := []
  loads : List LoadOp := []
  replies : List Reply := []
  streams : Table StreamInst := []
  key : BitVec 16 := 0
  seq : BitVec 16 := 0
  /-- ticketed operations not completed, oldest first (R386) -/
  tickets : List (BitVec 16) := []
  deferred : List Deferred := []
  gen : BitVec 8 := 0
  nextOp : Nat := 1
  /-- the ACTION written to %sact, until it takes effect after the chain group (R380) -/
  sact : Nat := 0
  frozen : Bool := false
  replay : List ManifestEnt := []
  shadow : Option ShadowPart := none
  deriving DecidableEq, Repr

/-- Bytes on chip with the poison marks of their 16-byte granules (R252), the granules that hold an uncorrectable or a correctable error not yet
detected (R460), and the valid checks of their 256-byte sectors (R201), each list rising. -/
structure Store where
  mem : Memory := []
  poison : List Nat := []
  uncorr : List Nat := []
  corr : List Nat := []
  checks : List (Nat × Word) := []
  /-- in tile storage and accumulator memory, the byte ranges marked poisoned: the elements of poisoned rows, and detected errors (R203, R460) -/
  badRanges : List (Nat × Nat) := []
  deriving DecidableEq, Repr

/-- The accumulator formats of a geometry word (R186). -/
inductive AccFmt where
  | fp32 | i32 | fp64
  deriving DecidableEq, Repr

/-- A valid geometry word (R186). -/
structure AccGeo where
  base : Nat
  rows : Nat
  cols : Nat
  fmt : AccFmt
  pitch : Nat
  deriving DecidableEq, Repr

/-- Where a tile operation or an engine command finds memory, as it was translated at issue: scratchpad of the block's side,
vault pages (virtual page base, physical base, length), or a berth entry captured at issue (R195, R258). -/
inductive Span where
  | spad (base : Nat)
  | vault (base : DWord) (pages : List (Nat × Nat × Nat))
  | berth (install : Nat) (vault : Bool) (base0 base1 : DWord) (off : Nat) (pages : List (Nat × Nat × Nat)) (entry : Nat)
  deriving DecidableEq, Repr

/-- A tile operation in the queue with what it captured at issue (R174, R177). -/
inductive TileOp where
  | mma (base : Nat) (ta tb : DWord) (sa sb : Option DWord) (ftb fsb : Option DWord) (n : Nat) (m : Nat) (neg acd tw : Bool)
  | accz (g : AccGeo)
  | accld (g : AccGeo) (src : Span)
  | accst (g : AccGeo) (dst : Span) (dstAddr : DWord) (param : Nat) (act ofmt : Nat) (os sc bi sat : Bool)
  | mchk (sd : Nat)
  | tcvt (old new : DWord) (rm : Nat) (odd : Bool) (sat : Bool)
  | tzero (reg : DWord)
  | ldt (reg : DWord) (src : Span) (pitch : Nat)
  | stt (reg : DWord) (dst : Span) (pitch : Nat)
  deriving DecidableEq, Repr

/-- An entry of a tile queue. -/
structure TileEnt where
  id : Nat
  crew : Nat
  op : TileOp
  rows : Nat := 0
  started : Bool := false
  engaged : Bool := false
  /-- on the follower, the leader block's entry that engaged it -/
  guest : Bool := false
  /-- the crew's issue number, after whose earlier stores ACCLD, ACCST and LDT read memory -/
  seq : Nat := 0
  word : Word := 0
  /-- an ACCST's most recent row that failed its check (R200) -/
  failed : Option Nat := none
  /-- the lowest lane that was active at the word (R426) -/
  lane : Nat := 0
  deriving DecidableEq, Repr

/-- The check entry of one accumulator row (R198): CS, CM, NC, AF, V. -/
structure CheckEnt where
  cs : DWord := 0
  cm : DWord := 0
  nc : Nat := 0
  af : AccFmt := .fp32
  v : Bool := false
  deriving DecidableEq, Repr

/-- A check slot: its base, when it was last used, and the entries of its rows (R198). -/
structure CheckSlot where
  base : Nat
  used : Nat
  rows : Table CheckEnt
  deriving DecidableEq, Repr

/-- The matrix check status (R192). -/
structure MchkStatus where
  fail : Nat := 0
  skip : Nat := 0
  fbase : Nat := 0
  frow : Nat := 0
  deriving DecidableEq, Repr

/-- The part of a block that lies on one core (R176, R233). The segment's private granules lie in spad below TS (R228). -/
structure Side where
  core : Nat
  spad : Store := {}
  tiles : Table Store := []
  shapes : List DWord := []
  acc : Store := {}
  queue : List TileEnt := []
  tick : Nat := 0
  slots : List CheckSlot := []
  mchk : MchkStatus := {}
  claimed : List Nat := []
  copied : List Nat := []
  pool : Nat := 0
  /-- the half that holds slot 0 of the block (R212) -/
  half0 : Nat := 0
  deriving DecidableEq, Repr

/-- The life of a block (R207, R278, R279, R381). -/
inductive BlockState where
  | assigned | staging | running | frozen | writeback | retiring
  deriving DecidableEq, Repr

/-- One block (R204, R207); a launch's template crew runs in a block of its own, marked template (R220). -/
structure Block where
  id : Nat
  launch : Nat
  beta : Nat := 0
  geo : Geometry := {}
  group : Nat := 0
  sides : List Side := []
  state : BlockState := .assigned
  template : Bool := false
  /-- scratchpad regions: TS, P, CH in bytes (R210) -/
  ts : Nat := 0
  p : Nat := 0
  ch : Nat := 0
  halted : Bool := false
  /-- the block stopped for a supervisor handler that serves BRK, offered to the debug function (R374, R482) -/
  brk : Bool := false
  /-- the clock when it was dispatched or restored, by its core's slice; in a block queue and saved, when it came there, by its launch's home -/
  dispatchedAt : Nat := 0
  debit : Nat := 0
  retried : Bool := false
  released : Bool := false
  killed : Bool := false
  /-- the writeback is done -/
  wroteBack : Bool := false
  /-- the translation fault at which its staging or writeback waits (R278, R279) -/
  pause : Option Pause := none
  deriving DecidableEq, Repr

/-- A stage group and its channel, one copy per core used (R208, R209). -/
structure StageGroup where
  id : Nat
  launch : Nat
  blocks : List Nat
  chan : Table Store := []
  staged : Bool := false
  deriving DecidableEq, Repr

/-- The fields of a launch record (R344). -/
structure Record where
  entry : DWord := 0
  nbx : Nat := 1
  nby : Nat := 1
  nbz : Nat := 1
  nix : Nat := 8
  niy : Nat := 1
  niz : Nat := 1
  crews : Nat := 1
  width : Nat := 8
  stages : Nat := 1
  level : Nat := 0
  chKb : Nat := 0
  tiles : Nat := 0
  tsize : Nat := 0
  accu : Nat := 0
  tsKb : Nat := 0
  pKb : Nat := 0
  budget : Nat := 0
  prio : Nat := 0
  cargoN : Nat := 0
  key : Word := 0
  cargo : DWord := 0
  deps : List Word := []
  handler : DWord := 0
  hcause : BitVec 5 := 0
  trapa : Nat := 0
  recompute : Bool := false
  shadow : Bool := false
  strict : Bool := false
  twin : Bool := false
  coop : Bool := false
  retry : Bool := false
  mcheck : Bool := false
  cland : DWord := 0
  staddr : DWord := 0
  deriving DecidableEq, Repr

/-- A cargo entry (R276). -/
structure CargoEnt where
  gaddr : DWord
  laddr : DWord
  bytes : Nat
  gstr : Int
  lstr : Int
  dirIn : Bool
  dirOut : Bool
  vault : Bool
  declass : Bool
  hint : Nat
  deriving DecidableEq, Repr

/-- The status codes of a launch (R351); pending is the model's name for a launch that has none yet. -/
inductive Status where
  | pending | ok | fault | refused | depfail | contextLost | aborted
  deriving DecidableEq, Repr

/-- The states of a launch (R350). -/
inductive LaunchPhase where
  | waiting | ready | template | running | completing | complete
  deriving DecidableEq, Repr

/-- A template image (R222): scalars, lanes (v and p), the backed set and the segment. -/
structure Image where
  s : Vector RegVal 32
  lanes : List Lane
  backed : DWord
  segment : Store
  resume : DWord
  deriving DecidableEq, Repr

/-- One launch from admission on (R348-R351). -/
structure Launch where
  id : Nat
  lid : Word
  pid : Nat
  qnum : Nat
  home : Nat
  ctx : Nat
  record : Record := {}
  cargo : List CargoEnt := []
  prio : Nat := 0
  ceil : Nat := 0
  phase : LaunchPhase := .waiting
  status : Status := .pending
  detail : Nat := 0
  deps : List Nat := []
  /-- blocks (stage groups) handed out so far, in ascending block index -/
  nextBeta : Nat := 0
  /-- block indices that came back unassigned from a slice that left, rising (R486) -/
  back : List Nat := []
  retired : Nat := 0
  /-- the home scheduler's clock when the launch became READY or last had a block assigned (R352) -/
  readyAt : Nat := 0
  /-- what is added to the home scheduler's clock for this launch, so that a new home counts on (R352, R486) -/
  clkShift : Int := 0
  image : Option Image := none
  blockImages : Table Image := []
  templateBlock : Option Nat := none
  /-- the queue's own number and the record's number in the queue (R341) -/
  quid : Nat := 0
  num : Nat := 0
  /-- the staging of R221 is done -/
  vaultStaged : Bool := false
  deriving DecidableEq, Repr

/-- A registered queue (R340). -/
structure Queue where
  pid : Nat
  qnum : Nat
  desc : DWord
  ring : DWord
  log2n : Nat
  ceil : Nat
  launchMode : Bool
  ctx : Nat
  dbell : DWord
  home : Nat
  head : Word := 0
  tail : Word := 0
  stopped : Bool := false
  /-- statuses held, by record number modulo 2^32 (R349); 0 for a launch that has none yet -/
  held : List (Nat × Nat) := []
  /-- the model's own number of the queue, which no other queue has -/
  uid : Nat := 0
  /-- doorbells that a resize took away, with their slices (R486) -/
  oldBells : List (Nat × DWord) := []
  pause : Option Pause := none
  deriving DecidableEq, Repr

/-- A berth-table entry (R255, R256). -/
structure Berth where
  block : Nat
  install : Nat
  base0 : DWord
  base1 : DWord
  size : Nat
  vault : Bool
  visible : Bool
  desc : List Byte := []
  deriving DecidableEq, Repr

/-- What one store word writes in one 16-byte granule of vault, visible at its core, and for a twin block at both cores, and not yet at its home (R317):
the writes in lane order, and their place in the order in which stores left the queues. -/
structure VaultPend where
  crew : Nat
  id : Nat
  gran : Nat
  writes : List (Nat × List Byte)
  seq : Nat
  twin : Bool := false
  /-- the store acquires: it was SC (R251) -/
  acquire : Bool := false
  deriving DecidableEq, Repr

/-- One core. A core that State.cores does not list holds these default values. -/
structure Core where
  clk : Nat := 0
  shandler : DWord := 0
  ctxgen : BitVec 8 := 0
  berths : Table Berth := []
  /-- the visible side of an entry at the moment it was cleared or replaced (R258), by installation -/
  berthGone : Table Bool := []
  ferry : Table FerryCmd := []
  useCount : Table Nat := []
  /-- what each stream (half × 2 + stream) carries: crew and group -/
  streams : Table (Nat × Nat) := []
  blockQueue : List Nat := []
  /-- the launches whose image and segment the core holds a copy of (R228, R232) -/
  copies : List Nat := []
  /-- the candidate for which the core is reserved: its launch and the block index of its stage group (R355) -/
  reservedBy : Option (Nat × Nat) := none
  vaultPend : List VaultPend := []
  failed : Bool := false
  /-- the exchanges of R357 made so far -/
  exchanges : Nat := 0
  deriving DecidableEq, Repr

/-- A fault-queue record waiting or written (R408). -/
structure PausedRef where
  ftag : Nat
  core : Nat
  slot : Nat
  deriving DecidableEq, Repr

/-- An entry of a duplicate filter (R387). -/
structure FilterEnt where
  /-- the ticket, above 2^64 the partition of its context here, or 2^32 and the node that sent it (log 51) -/
  ticket : Nat
  lane : Nat
  result : List RegVal
  deriving DecidableEq, Repr

/-- One key slot of one direction of a link (R448). -/
structure KeySlot where
  key : BitVec 256 := 0
  salt : BitVec 64 := 0
  fresh : Bool := false
  live : Bool := false
  /-- last INV accepted under the slot (receiver) -/
  lastInv : Option Word := none
  deriving DecidableEq, Repr

/-- An inbound transfer opened by an OPEN flit (R446, R488): node and ctx name its sender. -/
structure Inbound where
  txn : Nat
  node : Nat
  ctx : Nat
  ticket : DWord
  remote : DWord
  bytes : Nat
  rland : DWord
  kind : Nat
  rl : Bool
  declass : Bool
  group : List Nat
  nextFidx : Nat := 1
  got : Nat := 0
  skip : Bool := false
  /-- parts that have come and are not written, by offset (R303) -/
  held : List (Nat × List Byte) := []
  /-- the translation fault at which it waits, address and write, and the FTAG of its record (R303, R408) -/
  paused : Option (DWord × Bool) := none
  ftag : Option Nat := none
  /-- for a collective, its number in the order of the group (R306) -/
  number : Nat := 0
  /-- ranges written in sectors that the transfer has not yet written whole (R291, R292) -/
  written : List Written := []
  /-- of a request served: the second half of the 32-byte granule that was read last, by its address (R324) -/
  ahead : Option (Nat × List Byte) := none
  deriving DecidableEq, Repr

/-- A slice's fabric port and link (R445-R453). -/
structure Link where
  mode : Nat := 0
  up : Bool := false
  lanes : Nat := 0
  txSlot : Bool := false
  stopped : Bool := false
  txInv : Nat := 0
  retries : Nat := 0
  tx0 : KeySlot := {}
  tx1 : KeySlot := {}
  rx0 : KeySlot := {}
  rx1 : KeySlot := {}
  rekeyAsked : Bool := false
  seq : BitVec 16 := 0
  /-- next SEQ expected from the other side -/
  expect : BitVec 16 := 0
  /-- flits sent and not acknowledged, oldest first -/
  retry : List PlainFlit := []
  /-- flits of the retry buffer still to be sent again -/
  resend : Nat := 0
  sendQ : List PlainFlit := []
  wire : List Flit := []
  nakDue : Bool := false
  discarding : Bool := false
  fails : Nat := 0
  inbound : List Inbound := []
  /-- the link's routing cost, its send window in flits, and its weight in the arbitration of the slice's router (R452) -/
  cost : Nat := 1
  window : Nat := 0
  weight : Nat := 0
  /-- channels recorded at a migration cut: context, whether the marker has come, and flits in arrival order (R443) -/
  cut : List (Nat × Bool × List PlainFlit) := []
  nextTxn : Nat := 0
  frames : List (List Byte) := []
  deriving DecidableEq, Repr

/-- An interrupt source (R435, R487). -/
structure IntSource where
  pending : Bool := false
  enabled : Bool := false
  target : Nat := 0
  identity : Nat := 0
  deriving DecidableEq, Repr

/-- One slice. A slice that State.slices does not list holds these default values. -/
structure Slice where
  fwPid : Nat := 0
  fwTab : List Nat := List.replicate 16 0
  quantum : List Nat := List.replicate 24 0x200000
  balance : Nat := 4
  fqBase : DWord := 0
  fqLog2n : Nat := 0
  fqProd : Word := 0
  fqCons : Word := 0
  paused : List PausedRef := []
  nextFtag : Nat := 0
  pways : Nat := 0
  pwTarget : Nat := 0
  pwBusy : Bool := false
  /-- sectors held in protected ways in plaintext: global sector number and handle -/
  plines : List (Nat × Word) := []
  cecnt : Nat := 0
  link : Link := {}
  pstate : Nat := 0
  tripped : Bool := false
  /-- host cores 0-7 of the slice that run -/
  harts : List Nat := []
  /-- the slice's three sources, by source number (R435) -/
  sources : Table IntSource := []
  /-- the interrupt files of its host cores 0-7: the identities pending at each, ascending (R435) -/
  imsic : Table (List Nat) := []
  l2Filter : List FilterEnt := []
  mscFilter : List FilterEnt := []
  vaultFilter : List FilterEnt := []
  collFilter : List FilterEnt := []
  clk : Nat := 0
  /-- the queue served last at each priority level (R353) -/
  turns : Table Nat := []
  parking : Bool := false
  retiredBanks : List (Nat × Nat) := []
  deriving DecidableEq, Repr

/-- What a sealed sector is sealed under: the handle whose SLOT and GEN its line carries, and the tenant's key (R419, R420). -/
structure Seal where
  handle : Word
  key : BitVec 256
  deriving DecidableEq, Repr

/-- Global memory of a partition with the metadata of its 256-byte sectors (R275): poison marks, uncorrectable errors not yet
detected, correctable errors, stored checks that differ from the CRC of the bytes. A sealed sector (R420) is listed with its seal and
its plaintext stands in mem; a broken one holds in mem ciphertext that a write from outside changed, so that its tag no longer verifies (R422), and is listed
with its tag, the ITAG. -/
structure GlobalMem where
  mem : Memory := []
  poison : List Nat := []
  uncorr : List Nat := []
  corr : List Nat := []
  /-- the sectors whose error stands in a memory-side cache (1) or in an L2 (2), not in HBM (R456, R460) -/
  errAt : Table Nat := []
  badCheck : List (Nat × Word) := []
  sealed : Table Seal := []
  broken : Table (BitVec 96) := []
  /-- 32-byte granules that an L2 holds changed by an engine write: what agents beyond partition scope still read there (R316, R334, log 56) -/
  behind : List (Nat × List Byte) := []
  /-- the integrity tags that saves left in the ITAG of core parts' sectors (R402) -/
  itags : Table (BitVec 96) := []
  deriving DecidableEq, Repr

/-- One mapping of the partition OS (R241, R288): virtual base, size, whether it is vault, physical base, write permission. -/
structure Page where
  va : Nat
  size : Nat
  vault : Bool
  pa : Nat
  writable : Bool
  deriving DecidableEq, Repr

/-- The states of a TDISP interface (R479). -/
inductive TdispState where
  | configUnlocked | configLocked | run | error
  deriving DecidableEq, Repr

/-- A mailbox of the Harbourmaster (R473). -/
structure Mailbox where
  addr : DWord := 0
  code : Nat := 0
  /-- the commands rung, codes and addresses, in doorbell order; the first executes (R473) -/
  queue : List (Nat × DWord) := []
  last : Nat := 0
  bootStep : Nat := 0
  /-- the RESULT doubleword of the last command -/
  result : DWord := 0
  deriving DecidableEq, Repr

/-- An error record (R455). -/
structure ErrRec where
  type : Nat
  retried : Bool := false
  fatal : Bool := false
  aval : Bool := false
  slice : Nat := 0
  core : Nat := 0xFF
  ctx : Nat := 0
  launch : Word := 0
  seq : Word := 0
  addr : DWord := 0
  info : DWord := 0
  pid : Nat := 0
  deriving DecidableEq, Repr

/-- One partition (R428-R436). -/
structure Partition where
  pid : Nat
  itab : List Nat
  sg : Nat
  rseq : Nat := 0
  gm : GlobalMem := {}
  pages : List Page := []
  vqBase : DWord := 0
  vqLog2n : Nat := 0
  vqProd : Word := 0
  vqCons : Word := 0
  vqLost : Nat := 0
  tdisp : TdispState := .configUnlocked
  /-- the IDE stream: the session over which its key was programmed, and the key (R479, R480) -/
  ide : Option (Nat × BitVec 256) := none
  /-- where the host cores start (R476) -/
  vector : DWord := 0
  attached : Bool := false
  mailbox : Mailbox := {}
  booting : Bool := false
  meas4 : List Nat := []
  meas5 : Option Nat := none
  powerFlag : Nat := 0
  /-- restores of this partition wait for a new session (R480) -/
  needSession : Bool := false
  deriving DecidableEq, Repr

/-- A unit in the save area (R398): its blocks, crews and stage groups as they were captured, its berth entries with the side of their block and their number,
its cores, and the core parts with their SAVESEQ. -/
structure SavedUnit where
  id : Nat
  ctx : Nat
  unit : FreezeUnit
  blocks : List Block
  crews : List Crew
  groups : List StageGroup
  berths : List (Nat × Nat × Berth) := []
  cores : List Nat := []
  parts : List (Nat × Nat) := []
  /-- what was visible in berth entries that are gone, for accesses captured before (R258) -/
  gone : Table Bool := []
  deriving DecidableEq, Repr

/-- One context (R302, R398). ctx is partition × 2^32 + CTX, and so are the roster's. -/
structure Context where
  ctx : Nat
  pid : Nat
  node : Nat := 0
  own : Nat := 0
  roster : List RosterEntry := []
  lost : Bool := false
  killed : Bool := false
  /-- the Slipway moves it to another device: the fabric channels, port and peer's node, on which its markers have gone out (R443) -/
  cutting : Option (List (Nat × Nat)) := none
  /-- latest SAVESEQ of each core part (R402) -/
  saveSeq : Table Nat := []
  nextKey : BitVec 16 := 0
  /-- the global virtual address of the save area (R398) -/
  area : DWord := 0
  deriving DecidableEq, Repr

/-- A key slot of the Harbourmaster's table (R411-R413). -/
structure KeyHandle where
  gen : Nat := 0
  live : Bool := false
  ctx : Nat := 0
  pid : Nat := 0
  scrubV : Bool := false
  key : BitVec 256 := 0
  tenant : Nat := 0
  gwin : List (Nat × Nat) := []
  vwin : List (Nat × Nat) := []
  releaseWanted : Bool := false
  deriving DecidableEq, Repr

/-- An SPDM session (R475, R477, R482). -/
structure Session where
  id : Nat
  pid : Nat
  tenant : Nat
  role : SpdmRole
  deriving DecidableEq, Repr

/-- A frozen unit from its freeze signal to its save (R382): its blocks, and the clocks of its cores when the signal came. -/
structure FreezingUnit where
  id : Nat
  unit : FreezeUnit
  blocks : List Nat
  since : Table Nat
  captured : Bool := false
  /-- the model's next number when the unit was captured: what is on its way to vault since before has a lower one (R318, R336) -/
  pendMark : Nat := 0
  deriving DecidableEq, Repr

/-- An update of a landing on its way to its home, with the command or agent it belongs to (R261, R287). -/
structure LandUpd where
  home : LandHome
  op : LandOp
  /-- the status that the same action sets (R288) -/
  st : Option Nat := none
  /-- core and slot of the command, if one waits for it -/
  owner : Option (Nat × Nat) := none
  /-- crew and issue number: the update follows the crew's earlier LND words (R287) -/
  after : Option (Nat × Nat) := none
  pid : Nat := 0
  deriving DecidableEq, Repr

/-- A ticketed request on its way to its target (R387). -/
structure TicketedReq where
  ticket : DWord
  horizon : BitVec 16
  crew : Nat
  /-- the core on which the crew issued it, with the generation that the request carries (R388, R389) -/
  core : Nat := 0
  reply : Reply
  deriving DecidableEq, Repr

/-- What one member sends to another in a collective (R307): the operation, COUNT, ETYPE and ROOT as the sender issued them, where they are known, and the bytes that have come. -/
structure CollPart where
  src : Nat
  dst : Nat
  shape : Option (EngOp × Nat × Nat × Nat) := none
  bytes : List Byte := []
  /-- from another device: the bytes that the sender sends, once its last transfer is open -/
  size : Option Nat := none
  deriving DecidableEq, Repr

/-- One matched collective of a group (R306): the members as node and context, and its number in the order of the group. -/
structure Collective where
  group : List (Nat × Nat)
  number : Nat
  parts : List CollPart := []
  failed : Bool := false
  deriving DecidableEq, Repr

/-- The Harbourmaster's own state (R473-R482). -/
structure Harbour where
  mailbox : Mailbox := {}
  log : List ErrRec := []
  logSeq : Word := 0
  overflow : Nat := 0
  handles : Table KeyHandle := []
  /-- the partitions' save keys (R402) -/
  saveKeys : Table (BitVec 256) := []
  flash : Flash := {}
  /-- the security version fused in the package (R481) -/
  fuse : BitVec 16 := 0
  staged : Option (List Byte) := none
  firmware : List Byte := []
  meas1 : List Byte := []
  meas2 : List Byte × BitVec 16 := ([], 0)
  /-- the configuration block as it was measured (R476); no index of R477 names it -/
  measConfig : List FusePart := []
  meas3 : List Byte := []
  sessions : List Session := []
  /-- debug unlocks: port and session -/
  unlocks : List (Nat × Nat) := []
  booted : Bool := false
  /-- the MOVE that executes, from its first step on (R440) -/
  moving : Option (BitVec 128) := none
  /-- the FWACTIVATE (as 0) or gate command that executes, with the slices whose units are being saved (R480, R484) -/
  emptying : Option (BitVec 128 × List Nat) := none
  /-- the system owner's own memory, in which its commands and buffers lie (R473, R474) -/
  ownerMem : Memory := []
  deriving DecidableEq, Repr

/-- What moves next: an event, the next word (or run end) of a stream, two streams in one cycle (R49, R216), time passing, one row of the tile operation at the head
of a queue, or a changed granule of an L2 reaching its memory-side cache (R334). -/
inductive Agendum where
  | event (i : Instr)
  | issue (r : StreamRef)
  | pair (a b : StreamRef)
  | tick (core n : Nat)
  | schedTick (slice n : Nat)
  | tileRow (block side : Nat)
  | l2Write (pid granule : Nat)
  deriving DecidableEq, Repr

/-- The state of the package. -/
structure State where
  /-- what moves next; the model's own field (log 3) -/
  agenda : List Agendum := []
  /-- the stream whose group issues next; the model's own field (log 3) -/
  focus : Option StreamRef := none
  crews : Table Crew := []
  blocks : Table Block := []
  stageGroups : Table StageGroup := []
  launches : Table Launch := []
  queues : List Queue := []
  contexts : Table Context := []
  partitions : Table Partition := []
  slices : Table Slice := []
  cores : Table Core := []
  /-- vault SRAM of the package: core × 8 MB + offset -/
  vault : Store := {}
  freezing : List FreezingUnit := []
  saved : List SavedUnit := []
  landUpds : List LandUpd := []
  requests : List TicketedReq := []
  /-- the commands of captured units whose writes may still land (R390) -/
  strays : List Stray := []
  collectives : List Collective := []
  /-- collectives issued so far by a context on a group: context, first, count, stride, number -/
  collCount : List (Nat × Nat × Nat × Nat × Nat) := []
  harbour : Harbour := {}
  /-- the fabric node of this device (R302) -/
  node : Nat := 0
  /-- the bytes the last host read returned, none for an access fault -/
  hostAnswer : Option (List Byte) := none
  /-- whether those bytes left with the EP bit: a sector was poisoned or failed its check (R462) -/
  hostEp : Bool := false
  /-- the answer to the last measurement request -/
  measAnswer : List (List Byte) := []
  /-- the next unused internal number; the model's own field -/
  nextId : Nat := 1
  /-- how many free values have been taken; the model's own field (log 5) -/
  freeCtr : Nat := 0
  deriving DecidableEq, Repr

/-- Why the machine stops with a fault. -/
inductive Fault where
  /-- Instruction fetch from an address that the partition's tables do not map: the spec names no cause for it. Raised by the fetch of a step. Safe: no next state is claimed. -/
  | fetchUnmapped
  deriving DecidableEq, Repr

/-- Why a step has no meaning. -/
inductive Refusal where
  /-- An instruction without a meaning in this model. Raised by exec's refused arms only. Safe. -/
  | notModelled (mnemonic : String)
  /-- The event named on the agenda cannot take place in this state, so the agenda describes no execution of the device. Raised by the events' meanings. Safe. -/
  | notEnabled
  /-- An instruction word or RUN_END was executed while no stream carries a group that could issue it. Raised by the words' meanings. Safe. -/
  | noIssue
  deriving DecidableEq, Repr

/-- The package right after power-on and before the Harbourmaster's boot (R476): every field at the Reset value of its register
map; where the spec gives none, the value log 1 names. COLD_RESET boots it. -/
def State.reset : State := {}

end Sys2Proof.Machine
end

