-- ==== Sys2Proof/Machine/Float.lean ====
section
/-! DEFINITION. Number formats and exact arithmetic (spec/03): every rounded result is formed from an exact value. -/

namespace Sys2Proof.Machine

/-! ### Flags (R72, R91) -/

/-- A set of IEEE flags, bit positions as in %fpflags: 0 NX, 1 UF, 2 OF, 3 DZ, 4 NV. -/
abbrev Flags := BitVec 5

/-- Inexact. -/
def fNX : Flags := 0x01
/-- Underflow. -/
def fUF : Flags := 0x02
/-- Overflow. -/
def fOF : Flags := 0x04
/-- Division by zero. -/
def fDZ : Flags := 0x08
/-- Invalid operation. -/
def fNV : Flags := 0x10

/-- The flags f when c holds, else none. -/
def flagIf (c : Bool) (f : Flags) : Flags := if c then f else 0

/-! ### Formats (R76-R83) -/

/-- The binary floating-point formats of R77. -/
inductive FloatFmt where
  | f16 | bf16 | f32 | f64 | e4m3 | e5m2
  deriving DecidableEq, Repr

/-- E, the width of the exponent field. -/
def FloatFmt.expBits : FloatFmt → Nat
  | .f16 => 5 | .bf16 => 8 | .f32 => 8 | .f64 => 11 | .e4m3 => 4 | .e5m2 => 5

/-- p, the width of the mantissa field. -/
def FloatFmt.manBits : FloatFmt → Nat
  | .f16 => 10 | .bf16 => 7 | .f32 => 23 | .f64 => 52 | .e4m3 => 3 | .e5m2 => 2

/-- b, the bias. -/
def FloatFmt.bias : FloatFmt → Nat
  | .f16 => 15 | .bf16 => 127 | .f32 => 127 | .f64 => 1023 | .e4m3 => 7 | .e5m2 => 15

/-- The exponent of the smallest subnormal, 1 - b - p. -/
def FloatFmt.minExp (f : FloatFmt) : Int := 1 - (f.bias : Int) - (f.manBits : Int)

/-- The sign bit's weight. -/
def FloatFmt.signBit (f : FloatFmt) : Nat := 2 ^ (f.expBits + f.manBits)

/-- The pattern of the largest finite value (R77, R78). -/
def FloatFmt.maxBits : FloatFmt → Nat
  | .f16 => 0x7BFF | .bf16 => 0x7F7F | .f32 => 0x7F7FFFFF | .f64 => 0x7FEFFFFFFFFFFFFF | .e4m3 => 0x7E | .e5m2 => 0x7B

/-- The canonical NaN (R77). -/
def FloatFmt.nan : FloatFmt → Nat
  | .f16 => 0x7E00 | .bf16 => 0x7FC0 | .f32 => 0x7FC00000 | .f64 => 0x7FF8000000000000 | .e4m3 => 0x7F | .e5m2 => 0x7E

/-- The pattern of an infinity; E4M3 has none and gives its canonical NaN (R78, R86). -/
def FloatFmt.infBits : FloatFmt → Nat
  | .f16 => 0x7C00 | .bf16 => 0x7F80 | .f32 => 0x7F800000 | .f64 => 0x7FF0000000000000 | .e4m3 => 0x7F | .e5m2 => 0x7C

/-- A value read from a pattern: the finite value is (-1)^neg × m × 2^e. -/
inductive Num where
  | nan (signalling : Bool)
  | inf (neg : Bool)
  | fin (neg : Bool) (m : Nat) (e : Int)
  deriving DecidableEq, Repr

/-- A signed zero. -/
def Num.zero (neg : Bool) : Num := .fin neg 0 0

/-- Whether the value is a NaN. -/
def Num.isNan : Num → Bool
  | .nan _ => true
  | _ => false

/-- Whether the value is a signalling NaN. -/
def Num.isSnan : Num → Bool
  | .nan s => s
  | _ => false

/-- Whether the value is a zero of either sign. -/
def Num.isZero : Num → Bool
  | .fin _ m _ => m == 0
  | _ => false

/-- The sign. -/
def Num.neg? : Num → Bool
  | .nan _ => false
  | .inf n => n
  | .fin n _ _ => n

/-- The negated value. -/
def Num.negate : Num → Num
  | .nan s => .nan s
  | .inf n => .inf (!n)
  | .fin n m e => .fin (!n) m e

/-- Reads a pattern (R76, R78, R79). -/
def FloatFmt.read (f : FloatFmt) (bits : Nat) : Num :=
  let m := bits % 2 ^ f.manBits
  let e := bits / 2 ^ f.manBits % 2 ^ f.expBits
  let neg := bits / f.signBit % 2 == 1
  if f == .e4m3 && bits % 0x80 == 0x7F then .nan false
  else if f != .e4m3 && e + 1 == 2 ^ f.expBits then
    if m == 0 then .inf neg else .nan (m / 2 ^ (f.manBits - 1) == 0)
  else if e == 0 then .fin neg m f.minExp
  else .fin neg (2 ^ f.manBits + m) (f.minExp + (e : Int) - 1)

/-- Whether a pattern is a nonzero subnormal. -/
def FloatFmt.subnormal (f : FloatFmt) (bits : Nat) : Bool :=
  bits / 2 ^ f.manBits % 2 ^ f.expBits == 0 && bits % 2 ^ f.manBits != 0

/-- The pattern with FTZ applied to an operand: a subnormal becomes the zero of its sign (R90). -/
def FloatFmt.flush (f : FloatFmt) (ftz : Bool) (bits : Nat) : Nat :=
  if ftz && f.subnormal bits then bits / f.signBit % 2 * f.signBit else bits

/-- The pattern of a signed zero. -/
def FloatFmt.zeroBits (f : FloatFmt) (neg : Bool) : Nat := if neg then f.signBit else 0

/-- A TT8 byte's value (R80); its zero is always +0. -/
def tt8Read (b : Nat) : Num :=
  if b % 256 == 0xF7 then .nan false
  else
    let term (s c : Nat) : Int := if c == 7 then 0 else (if s == 1 then -1 else 1) * (2 ^ (6 - c) : Nat)
    let v := term (b / 128 % 2) (b / 16 % 8) + term (b / 8 % 2) (b % 8)
    .fin (decide (v < 0)) v.natAbs (-6)

/-- The canonical TT8 byte of v × 2^-6 (R81): the smallest byte other than 0xF7 that encodes it, 0x77 for zero; none where no byte does. -/
def tt8Canonical (v : Int) : Option Nat :=
  if v == 0 then some 0x77
  else (List.range 256).find? fun b =>
    b != 0xF7 && tt8Read b == .fin (decide (v < 0)) v.natAbs (-6)

/-- The 39 positive TT8 magnitudes in units of 2^-6, rising, with zero first (R80): one power of two, two powers of two, or one run of ones. -/
def tt8Mags : List Nat :=
  [0, 1, 2, 3, 4, 5, 6, 7, 8, 9, 10, 12, 14, 15, 16, 17, 18, 20, 24, 28, 30, 31, 32, 33, 34, 36, 40, 48, 56, 60, 62, 63,
   64, 65, 66, 68, 72, 80, 96, 128]

/-- The scale of an E8S byte as an exponent of two; none for the NaN 0xFF (R82). -/
def e8sExp (b : Nat) : Option Int := if b == 0xFF then none else some ((b : Int) - 127)

/-- A w-bit pattern as a two's-complement integer (R83). -/
def signedOf (w x : Nat) : Int := if x < 2 ^ (w - 1) then (x : Int) else (x : Int) - 2 ^ w

/-- An integer modulo 2^w (R83). -/
def wrapTo (w : Nat) (x : Int) : Nat := (x % (2 ^ w : Int)).toNat

/-- An integer clamped to a signed or unsigned range of w bits (R84). -/
def clampTo (w : Nat) (signed : Bool) (x : Int) : Nat :=
  let lo : Int := if signed then -(2 ^ (w - 1) : Nat) else 0
  let hi : Int := if signed then (2 ^ (w - 1) : Nat) - 1 else (2 ^ w : Nat) - 1
  wrapTo w (if x < lo then lo else if hi < x then hi else x)

/-! ### Rounding (R85-R88) -/

/-- The rounding modes (R85). -/
inductive RMode where
  | rne | rtz | rdn | rup | odd
  deriving DecidableEq, Repr

/-- The mode that two bits of %fpmode.RM name (R72). -/
def RMode.ofRM (b : BitVec 2) : RMode :=
  match b.toNat with
  | 0 => .rne
  | 1 => .rtz
  | 2 => .rdn
  | _ => .rup

/-- The magnitude m × 2^e, of a value of the given sign, as a whole number of units 2^q, and whether it is inexact (R85). -/
def roundMag (mode : RMode) (neg : Bool) (m : Nat) (e q : Int) : Nat × Bool :=
  if q ≤ e then (m * 2 ^ (e - q).toNat, false)
  else
    let u := 2 ^ (q - e).toNat
    let d := m / u
    let r := m % u
    if r == 0 then (d, false)
    else
      let up := match mode with
        | .rne => u < 2 * r || (2 * r == u && d % 2 == 1)
        | .rtz => false
        | .rdn => neg
        | .rup => !neg
        | .odd => d % 2 == 0
      (if up then d + 1 else d, true)

/-- Compares m × 2^e with n × 2^k. -/
def magLt (m : Nat) (e : Int) (n : Nat) (k : Int) : Bool :=
  let b := min e k
  m * 2 ^ (e - b).toNat < n * 2 ^ (k - b).toNat

/-- Whether an overflow in this mode and sign gives an infinity rather than the largest finite value (R86). -/
def overflowInf (mode : RMode) (neg : Bool) : Bool :=
  match mode with
  | .rne => true
  | .rtz => false
  | .rdn => neg
  | .rup => !neg
  | .odd => false

/-- A pattern with a sign put on a magnitude pattern. -/
def FloatFmt.withSign (f : FloatFmt) (neg : Bool) (mag : Nat) : Nat := f.zeroBits neg + mag

/-- The infinity of a sign, as a result: the signed infinity, or E4M3's NaN 0x7F (R86). -/
def FloatFmt.infinity (f : FloatFmt) (neg : Bool) : Nat := if f == .e4m3 then f.nan else f.withSign neg f.infBits

/-- The nonzero exact value (-1)^neg × m × 2^e, rounded once to the format (R85, R86, R90, R91). -/
def FloatFmt.roundPos (f : FloatFmt) (mode : RMode) (sat ftz neg : Bool) (m : Nat) (e : Int) : Nat × Flags :=
  let p : Int := f.manBits
  let top : Int := e + Nat.log2 m - p
  let u := (roundMag mode neg m e top).1
  let big := f.maxBits / 2 ^ f.manBits
  let ovf := magLt (2 ^ f.manBits + f.maxBits % 2 ^ f.manBits) (f.minExp + (big : Int) - 1) u top
  let tiny := magLt u top (2 ^ f.manBits) f.minExp
  if ovf then
    (if overflowInf mode neg && !sat then f.infinity neg else f.withSign neg f.maxBits, fOF ||| fNX)
  else if tiny && ftz then (f.zeroBits neg, fUF ||| fNX)
  else
    let q := max top f.minExp
    let r := roundMag mode neg m e q
    (f.withSign neg ((q - f.minExp).toNat * 2 ^ f.manBits + r.1),
      flagIf r.2 fNX ||| flagIf (r.2 && tiny) fUF)

/-- An exact value as a result of the format: a NaN is canonical (R89), an infinity stays one, a zero keeps its sign. -/
def FloatFmt.ofNum (f : FloatFmt) (mode : RMode) (sat ftz : Bool) : Num → Nat × Flags
  | .nan _ => (f.nan, 0)
  | .inf n => (f.infinity n, 0)
  | .fin n m e => if m == 0 then (f.zeroBits n, 0) else f.roundPos mode sat ftz n m e

/-! ### Exact operations -/

/-- The exact product and its NV flag (0 × infinity). -/
def Num.mul (a b : Num) : Num × Flags :=
  match a, b with
  | .nan _, _ => (.nan false, 0)
  | _, .nan _ => (.nan false, 0)
  | .inf x, .inf y => (.inf (x != y), 0)
  | .inf x, .fin y m _ => if m == 0 then (.nan false, fNV) else (.inf (x != y), 0)
  | .fin x m _, .inf y => if m == 0 then (.nan false, fNV) else (.inf (x != y), 0)
  | .fin x m e, .fin y n k => (.fin (x != y) (m * n) (e + k), 0)

/-- A finite value as an integer in units of 2^base, base no greater than its exponent. -/
def Num.toInt (base : Int) : Num → Int
  | .fin n m e => (if n then -1 else 1) * ((m * 2 ^ (e - base).toNat : Nat) : Int)
  | _ => 0

/-- The exponent of a finite nonzero value's representation, or the given bound. -/
def Num.expMin (bound : Int) : Num → Int
  | .fin _ m e => if m == 0 then bound else min bound e
  | _ => bound

/-- The exact sum of terms: NaN and infinities first, NV for opposite infinities, and the sign of an exact zero under R88. -/
def sumNums (mode : RMode) (ts : List Num) : Num × Flags :=
  let pos := ts.any fun t => t == .inf false
  let ngt := ts.any fun t => t == .inf true
  if pos && ngt then (.nan false, fNV)
  else if ts.any Num.isNan then (.nan false, 0)
  else if pos then (.inf false, 0)
  else if ngt then (.inf true, 0)
  else
    let base : Int := ts.foldl (fun b t => t.expMin b) 0
    let v : Int := ts.foldl (fun acc t => acc + t.toInt base) 0
    if v == 0 then
      let allNeg := ts.all fun t => t.neg? && t.isZero
      let allPos := ts.all fun t => !t.neg? && t.isZero
      (Num.zero (allNeg || (!allPos && mode == .rdn)), 0)
    else (.fin (decide (v < 0)) v.natAbs base, 0)

/-- NV for a signalling NaN among the operands (R79). -/
def snanFlag (ts : List Num) : Flags := flagIf (ts.any Num.isSnan) fNV

/-- FADD, FSUB and FMUL results and flags (R150): op forms the exact value. -/
def finish (f : FloatFmt) (mode : RMode) (ftz : Bool) (ts : List Num) (r : Num × Flags) : Nat × Flags :=
  let z := f.ofNum mode false ftz r.1
  (z.1, z.2 ||| r.2 ||| snanFlag ts)

/-- a + b (R150). -/
def fAdd (f : FloatFmt) (mode : RMode) (ftz : Bool) (a b : Nat) : Nat × Flags :=
  let x := f.read (f.flush ftz a)
  let y := f.read (f.flush ftz b)
  finish f mode ftz [x, y] (sumNums mode [x, y])

/-- a - b (R150). -/
def fSub (f : FloatFmt) (mode : RMode) (ftz : Bool) (a b : Nat) : Nat × Flags :=
  let x := f.read (f.flush ftz a)
  let y := f.read (f.flush ftz b)
  finish f mode ftz [x, y] (sumNums mode [x, y.negate])

/-- a × b (R150). -/
def fMul (f : FloatFmt) (mode : RMode) (ftz : Bool) (a b : Nat) : Nat × Flags :=
  let x := f.read (f.flush ftz a)
  let y := f.read (f.flush ftz b)
  finish f mode ftz [x, y] (x.mul y)

/-- The quotient of nonzero finite values with a sticky low bit, exact enough for one rounding to any format. -/
def quotient (m n : Nat) (e k : Int) : Nat × Int :=
  let s := 64 + Nat.log2 n
  let q := m * 2 ^ s / n
  (2 * q + (if m * 2 ^ s % n == 0 then 0 else 1), e - k - (s : Int) - 1)

/-- a / b (R150). -/
def fDiv (f : FloatFmt) (mode : RMode) (ftz : Bool) (a b : Nat) : Nat × Flags :=
  let x := f.read (f.flush ftz a)
  let y := f.read (f.flush ftz b)
  let r : Num × Flags := match x, y with
    | .nan _, _ => (.nan false, 0)
    | _, .nan _ => (.nan false, 0)
    | .inf _, .inf _ => (.nan false, fNV)
    | .inf s, .fin t _ _ => (.inf (s != t), 0)
    | .fin s _ _, .inf t => (Num.zero (s != t), 0)
    | .fin s m e, .fin t n k =>
      if n == 0 then (if m == 0 then (.nan false, fNV) else (.inf (s != t), fDZ))
      else if m == 0 then (Num.zero (s != t), 0)
      else
        let q := quotient m n e k
        (.fin (s != t) q.1 q.2, 0)
  finish f mode ftz [x, y] r

/-- The integer square root, one bit at a time from bit k down. -/
def isqrtFrom (n : Nat) : Nat → Nat → Nat
  | 0, r => r
  | k + 1, r =>
    let t := r + 2 ^ k
    isqrtFrom n k (if t * t ≤ n then t else r)

/-- The largest r with r × r ≤ n. -/
def isqrt (n : Nat) : Nat := isqrtFrom n (Nat.log2 n / 2 + 1) 0

/-- The square root of m × 2^e, m nonzero, with a sticky low bit. -/
def rootOf (m : Nat) (e : Int) : Nat × Int :=
  let s : Nat := 128 + (if (e - 128) % 2 == 0 then 0 else 1)
  let n := m * 2 ^ s
  let r := isqrt n
  (2 * r + (if r * r == n then 0 else 1), (e - (s : Int)) / 2 - 1)

/-- The square root (R150). -/
def fSqrt (f : FloatFmt) (mode : RMode) (ftz : Bool) (a : Nat) : Nat × Flags :=
  let x := f.read (f.flush ftz a)
  let r : Num × Flags := match x with
    | .nan _ => (.nan false, 0)
    | .inf n => if n then (.nan false, fNV) else (.inf false, 0)
    | .fin n m e =>
      if m == 0 then (Num.zero n, 0)
      else if n then (.nan false, fNV)
      else
        let q := rootOf m e
        (.fin false q.1 q.2, 0)
  finish f mode ftz [x] r

/-- ±(a × b) ± c with one rounding (R151): np negates the product and nc the addend. -/
def fFma (f : FloatFmt) (mode : RMode) (ftz np nc : Bool) (a b c : Nat) : Nat × Flags :=
  let x := f.read (f.flush ftz a)
  let y := f.read (f.flush ftz b)
  let z := f.read (f.flush ftz c)
  let p := x.mul y
  let pr := if np then p.1.negate else p.1
  let ad := if nc then z.negate else z
  let r := sumNums mode [pr, ad]
  finish f mode ftz [x, y, z] (r.1, r.2 ||| p.2)

/-! ### Comparison (R150, R156, R172) -/

/-- Whether a < b for values that are not NaN, -0 equal to +0. -/
def Num.lt (a b : Num) : Bool :=
  match a, b with
  | .nan _, _ => false
  | _, .nan _ => false
  | .inf x, .inf y => x && !y
  | .inf x, _ => x
  | _, .inf y => !y
  | .fin x m e, .fin y n k =>
    let base := min e k
    decide ((Num.fin x m e).toInt base < (Num.fin y n k).toInt base)

/-- Whether a = b for values that are not NaN, -0 equal to +0. -/
def Num.eqv (a b : Num) : Bool := !a.isNan && !b.isNan && !a.lt b && !b.lt a

/-- Whether a stands below b, with -0 below +0 (R150, R172). -/
def Num.below (a b : Num) : Bool := a.lt b || (a.isZero && b.isZero && a.neg? && !b.neg?)

/-- FMIN (wantMax false) and FMAX, or with num set FMINNUM and FMAXNUM: one of the operands as read under R90, or the canonical NaN (R150). -/
def fMinMax (f : FloatFmt) (ftz wantMax num : Bool) (a b : Nat) : Nat × Flags :=
  let a' := f.flush ftz a
  let b' := f.flush ftz b
  let x := f.read a'
  let y := f.read b'
  let pick := if wantMax then (if x.below y then b' else a') else (if y.below x then b' else a')
  let r :=
    if x.isNan && y.isNan then f.nan
    else if x.isNan then (if num then b' else f.nan)
    else if y.isNan then (if num then a' else f.nan)
    else pick
  (r, snanFlag [x, y])

/-! ### Special functions (R93) -/

/-- The fraction bits of the fixed-point series below. -/
def fixBits : Nat := 320

/-- A bound on the error of a series, in units of 2^-fixBits (log 10). -/
def fixErr : Nat := 2 ^ 64

/-- floor(ln 2 × 2^320). -/
def fixLn2 : Nat := 1480553391661173448385607439722553250922680800745876974795605978609098082859138712941075737848984

/-- floor(π × 2^320). -/
def fixPi : Nat := 6710401180212168915155840974220003240804194089427148950727106424351713218671805380099500388914039

/-- Sum of term, term × x / d1, ... with d = k × (k + 1) rising by two: the series of sinh x / x (k = 2), cosh x (k = 1), and with alt their circular forms, in fixed point; x2 is x squared. -/
def trigSeries (x2 : Nat) (alt : Bool) : Nat → Nat → Nat → Int → Int
  | 0, _, _, acc => acc
  | fuel + 1, k, term, acc =>
    let t := term * x2 / 2 ^ fixBits / (k * (k + 1))
    trigSeries x2 alt fuel (k + 2) t (if alt && (k / 2) % 2 == 1 then acc - t else acc + t)

/-- The series of e^x in fixed point for 0 ≤ x < 1. -/
def expSeries (x : Nat) : Nat → Nat → Nat → Nat → Nat
  | 0, _, _, acc => acc
  | fuel + 1, k, term, acc =>
    let t := term * x / 2 ^ fixBits / k
    expSeries x fuel (k + 1) t (acc + t)

/-- The series of atanh z / z = Σ z2^k / (2k + 1) in fixed point. -/
def atanhSeries (z2 : Nat) : Nat → Nat → Nat → Nat → Nat
  | 0, _, _, acc => acc
  | fuel + 1, k, pow, acc =>
    let t := pow * z2 / 2 ^ fixBits
    atanhSeries z2 fuel (k + 2) t (acc + t / k)

/-- The seven functions of VSFU by their F7 codes (R153). -/
inductive SfuOp where
  | rcp | rsq | exp2 | log2 | sinpi | cospi | tanh
  deriving DecidableEq, Repr

/-- The F7 code. -/
def SfuOp.code : SfuOp → Nat
  | .rcp => 0 | .rsq => 1 | .exp2 => 2 | .log2 => 3 | .sinpi => 4 | .cospi => 5 | .tanh => 6

/-- The exact value, or an irrational value enclosed between (m - err) × 2^e and (m + err) × 2^e. -/
inductive SfuVal where
  | exact (n : Num) (fl : Flags)
  | near (neg : Bool) (m err : Nat) (e : Int)
  deriving DecidableEq, Repr

/-- sin(π n / d) for 0 < n / d < 1/2, of the given sign. -/
def sinFrac (neg : Bool) (n d : Nat) : SfuVal :=
  let u := fixPi * n / d
  let g := trigSeries (u * u / 2 ^ fixBits) true 100 2 (2 ^ fixBits) (2 ^ fixBits)
  -- sin = u × g with u = π n / d taken exactly as n × π / d
  let s := Nat.log2 d + fixBits
  .near neg (n * fixPi * g.toNat * 2 ^ s / d) (n * 2 ^ s * fixErr * 2 ^ (fixBits + 3) / d + 2) (-(2 * fixBits + s : Nat) : Int)

/-- The value of a special function at a finite operand (-1)^neg × m × 2^e, with the special cases of R93. -/
def sfuFinite (op : SfuOp) (neg : Bool) (m : Nat) (e : Int) : SfuVal :=
  match op with
  | .rcp =>
    if m == 0 then .exact (.inf neg) fDZ
    else
      let q := quotient 1 m 0 e
      .exact (.fin neg q.1 q.2) 0
  | .rsq =>
    if m == 0 then .exact (.inf neg) fDZ
    else if neg then .exact (.nan false) fNV
    else
      -- 1/√(m 2^e) = √(2^s / m) × 2^(-(e + s)/2), with s + e even
      let s : Nat := 256 + 2 * Nat.log2 m + (if (e + 256) % 2 == 0 then 0 else 1)
      let r := isqrt (2 ^ s / m)
      .exact (.fin false (2 * r + (if r * r * m == 2 ^ s then 0 else 1)) (-(e + (s : Int)) / 2 - 1)) 0
  | .exp2 =>
    if m == 0 then .exact (.fin false 1 0) 0
    else if !magLt m e 1 12 then .exact (.fin false 3 (if neg then -4098 else 4096)) 0
    else if 0 ≤ e then
      .exact (.fin false 1 ((if neg then -1 else 1) * ((m * 2 ^ e.toNat : Nat) : Int))) 0
    else
      let d : Nat := 2 ^ (-e).toNat
      let v : Int := if neg then -(m : Int) else m
      let whole := v / (d : Int)
      let frac := (v % (d : Int)).toNat
      if frac == 0 then .exact (.fin false 1 whole) 0
      else
        let x := fixLn2 * frac / d
        .near false (expSeries x 100 1 (2 ^ fixBits) (2 ^ fixBits)) fixErr (whole - (fixBits : Int))
  | .log2 =>
    if m == 0 then .exact (.inf true) fDZ
    else if neg then .exact (.nan false) fNV
    else
      let k := Nat.log2 m
      let whole : Int := e + k
      if m == 2 ^ k then
        .exact (.fin (decide (whole < 0)) whole.natAbs 0) 0
      else
        -- m / 2^k in (1, 2): ln = 2 atanh ((m - 2^k) / (m + 2^k))
        let z := (m - 2 ^ k) * 2 ^ fixBits / (m + 2 ^ k)
        let s := atanhSeries (z * z / 2 ^ fixBits) 110 3 (2 ^ fixBits) (2 ^ fixBits)
        let l := 2 * z * s / fixLn2
        let v : Int := whole * (2 ^ fixBits : Nat) + l
        .near (decide (v < 0)) v.natAbs fixErr (-(fixBits : Int))
  | .sinpi =>
    if m == 0 || 0 ≤ e then .exact (Num.zero neg) 0
    else
      let d : Nat := 2 ^ (-e).toNat
      let n := m % (2 * d)
      let flip := d ≤ n
      let n := if flip then n - d else n
      let n := if d < 2 * n then d - n else n
      let sg := neg != flip
      if n == 0 then .exact (Num.zero neg) 0
      else if 2 * n == d then .exact (.fin sg 1 0) 0
      else sinFrac sg n d
  | .cospi =>
    if m == 0 then .exact (.fin false 1 0) 0
    else if 0 ≤ e then .exact (.fin (e == 0 && m % 2 == 1) 1 0) 0
    else
      let d : Nat := 2 ^ (-e).toNat
      let n := m % (2 * d)
      let n := if d < n then 2 * d - n else n
      let sg := d < 2 * n
      let n := if d < 2 * n then d - n else n
      if n == 0 then .exact (.fin sg 1 0) 0
      else if 2 * n == d then .exact (Num.zero false) 0
      else sinFrac sg (d - 2 * n) (2 * d)
  | .tanh =>
    if m == 0 then .exact (Num.zero neg) 0
    else if !magLt m e 1 6 then .near neg (2 ^ fixBits) fixErr (-(fixBits : Int))
    else
      -- tanh x = x × (sinh x / x) / cosh x
      let x := if 0 ≤ e then m * 2 ^ (e.toNat + fixBits) else m * 2 ^ fixBits / 2 ^ (-e).toNat
      let x2 := x * x / 2 ^ fixBits
      let sh := (trigSeries x2 false 300 2 (2 ^ fixBits) (2 ^ fixBits)).toNat
      let ch := (trigSeries x2 false 300 1 (2 ^ fixBits) (2 ^ fixBits)).toNat
      let g := sh * 2 ^ fixBits / ch
      .near neg (m * g) (m * fixErr) (e - (fixBits : Int))

/-- The value of a special function at any operand (R93). -/
def sfuValue (op : SfuOp) : Num → SfuVal
  | .nan _ => .exact (.nan false) 0
  | .inf neg =>
    match op with
    | .rcp => .exact (Num.zero neg) 0
    | .rsq => if neg then .exact (.nan false) fNV else .exact (Num.zero false) 0
    | .exp2 => if neg then .exact (Num.zero false) 0 else .exact (.inf false) 0
    | .log2 => if neg then .exact (.nan false) fNV else .exact (.inf false) 0
    | .sinpi => .exact (.nan false) fNV
    | .cospi => .exact (.nan false) fNV
    | .tanh => .exact (.fin neg 1 0) 0
  | .fin neg m e => sfuFinite op neg m e

/-- A special function's result (R93): the exact value rounded once in RNE; where the enclosure does not decide the rounding, a free value (log 10). -/
def fSfu (f : FloatFmt) (op : SfuOp) (ftz : Bool) (a : Nat) : Nat × Flags :=
  let x := f.read (f.flush ftz a)
  match sfuValue op x with
  | .exact n fl => finish f .rne ftz [x] (n, fl)
  | .near neg m err e =>
    let lo := f.roundPos .rne false ftz neg (2 * (m - err) + 1) (e - 1)
    let hi := f.roundPos .rne false ftz neg (2 * (m + err) + 1) (e - 1)
    if lo == hi then (lo.1, lo.2 ||| fNX)
    else (Config.freeSpecial op.code f.maxBits a % 2 ^ (1 + f.expBits + f.manBits), fNX)

/-! ### Conversions (R94-R100) -/

/-- The formats between which VCVT converts an element (R155). -/
inductive ElemFmt where
  | float (f : FloatFmt)
  | tt8
  | int (w : Nat) (signed : Bool)
  deriving DecidableEq, Repr

/-- The value of a floating-point element, TT8 among them, read under FTZ (R90, R155). -/
def ElemFmt.read (g : ElemFmt) (ftz : Bool) (bits : Nat) : Num :=
  match g with
  | .float f => f.read (f.flush ftz bits)
  | .tt8 => tt8Read bits
  | .int w signed =>
    let v : Int := if signed then signedOf w (bits % 2 ^ w) else ((bits % 2 ^ w : Nat) : Int)
    .fin (decide (v < 0)) v.natAbs 0

/-- The nearest TT8 magnitude not above x × 2^e (in units of 2^-6) and the next one above, where there is one. -/
def tt8Neighbours (m : Nat) (e : Int) : Nat × Option Nat :=
  let below := tt8Mags.filter fun t => !magLt m e t (-6)
  let above := tt8Mags.filter fun t => magLt m e t (-6)
  (below.getLast?.getD 0, above.head?)

/-- A conversion of a value to TT8 (R99): overflow is decided over the TT8 values together with every finite value beyond ±2. -/
def toTt8 (mode : RMode) (sat : Bool) : Num → Nat × Flags
  | .nan _ => (0xF7, 0)
  | .inf n => if sat then (if n then 0x88 else 0x00, fOF ||| fNX) else (0xF7, fNV)
  | .fin n m e =>
    let canon (k : Nat) : Nat := (tt8Canonical (if n then -(k : Int) else k)).getD 0x77
    if magLt 2 0 m e then
      let stays := match mode with
        | .rne => true
        | .rup => !n
        | .rdn => n
        | _ => false
      if stays then (if sat then (if n then 0x88 else 0x00, fOF ||| fNX) else (0xF7, fNV))
      else (if n then 0x88 else 0x00, fNX)
    else
      let nb := tt8Neighbours m e
      if !magLt nb.1 (-6) m e then (canon nb.1, 0)
      else
        let hi := nb.2.getD nb.1
        -- twice the value against the sum of the neighbours: a tie takes the smaller magnitude
        let up := match mode with
          | .rne => magLt (nb.1 + hi) (-6) (2 * m) e
          | .rup => !n
          | .rdn => n
          | _ => false
        (canon (if up then hi else nb.1), fNX)

/-- A conversion of a floating-point value to an integer of w bits (R96). -/
def toInt (mode : RMode) (w : Nat) (signed : Bool) : Num → Nat × Flags
  | .nan _ => (0, fNV)
  | .inf n => (clampTo w signed (if n then -(2 ^ 65 : Nat) else (2 ^ 65 : Nat)), fNV)
  | .fin n m e =>
    -- a magnitude of 2^65 or more is out of every range
    if !magLt m e 1 65 then (clampTo w signed (if n then -(2 ^ 65 : Nat) else (2 ^ 65 : Nat)), fNV)
    else
      let r := roundMag mode n m e 0
      let v : Int := if n then -(r.1 : Int) else r.1
      let c := clampTo w signed v
      if (if signed then signedOf w c else (c : Int)) == v then (c, flagIf r.2 fNX) else (c, fNV)

/-- Convert(element) of R155 under R94 to R100. -/
def convert (src dst : ElemFmt) (mode : RMode) (sat ftz : Bool) (bits : Nat) : Nat × Flags :=
  let x := src.read ftz bits
  match src, dst with
  | .int sw _, .int w signed =>
    let v := match x with
      | .fin n m _ => if n then -(m : Int) else (m : Int)
      | _ => 0
    (if sat && w ≤ sw then clampTo w signed v else wrapTo w v, 0)
  | _, .int w signed =>
    let r := toInt mode w signed x
    (r.1, r.2 ||| snanFlag [x])
  | _, .tt8 =>
    let r := toTt8 mode sat x
    (r.1, r.2 ||| snanFlag [x])
  | _, .float f =>
    match x with
    | .inf n =>
      if sat then (f.withSign n f.maxBits, fNX)
      else (f.infinity n, flagIf (f == .e4m3) fNV)
    | _ =>
      let r := f.ofNum mode sat ftz x
      (r.1, r.2 ||| snanFlag [x])

/-! ### The matrix array's sums (R101-R105) -/

/-- The exponent of the leading bit of a nonzero finite value. -/
def Num.leading? : Num → Option Int
  | .fin _ m e => if m == 0 then none else some (e + Nat.log2 m)
  | _ => none

/-- The largest of the leading exponents. -/
def maxLeading (ts : List Num) : Option Int :=
  ts.foldl (fun acc t => match acc, t.leading? with
    | none, x => x
    | x, none => x
    | some a, some b => some (max a b)) none

/-- A value truncated to whole units of 2^q, as that whole number (R103). -/
def Num.truncUnits (q : Int) : Num → Int
  | .fin n m e =>
    let k := (roundMag .rtz false m e q).1
    if n then -(k : Int) else k
  | _ => 0

/-- One group of the array's rule: the terms, the accumulator value among them, give the next accumulator pattern (R103). -/
def groupSum (f : FloatFmt) (window : Nat) (infTimesZero : Bool) (ts : List Num) : Nat :=
  let pos := ts.any fun t => t == .inf false
  let ngt := ts.any fun t => t == .inf true
  if ts.any Num.isNan || infTimesZero then f.nan
  else if pos && ngt then f.nan
  else if pos then f.infinity false
  else if ngt then f.infinity true
  else match maxLeading ts with
    | none => f.zeroBits false
    | some e =>
      let q := e - (window : Int)
      let s : Int := ts.foldl (fun acc t => acc + t.truncUnits q) 0
      if s == 0 then f.zeroBits false
      else (f.roundPos .rne false false (decide (s < 0)) s.natAbs q).1

/-! ### Short dot product (R158) -/

/-- c + Σ ±aᵢ bᵢ as one exact sum rounded once to F32. -/
def dotF32 (mode : RMode) (ftz np : Bool) (ga gb : ElemFmt) (c : Nat) (as bs : List Nat) : Nat × Flags :=
  let xs := as.map (ga.read ftz)
  let ys := bs.map (gb.read ftz)
  let z := FloatFmt.f32.read (FloatFmt.f32.flush ftz c)
  let ps := (xs.zip ys).map fun p => p.1.mul p.2
  let prods := ps.map fun p => if np then p.1.negate else p.1
  let fl := ps.foldl (fun acc p => acc ||| p.2) 0
  let r := sumNums mode (z :: prods)
  finish .f32 mode ftz (z :: (xs ++ ys)) (r.1, r.2 ||| fl)

end Sys2Proof.Machine
end

