-- ==== Sys2Proof/Machine/Mem.lean ====
section
/-! DEFINITION. Tables, memories in their canonical form, and on-chip stores with poison marks and sector checks (R201, R252). -/

namespace Sys2Proof.Machine

/-- The number under which the model keeps a context: context numbers are a partition's own (R340, log 51). -/
def ctxKey (pid ctx : Nat) : Nat := pid * 2 ^ 32 + ctx % 2 ^ 32

/-! ### Tables -/

/-- The record under a key. -/
def tget {α : Type} : Table α → Nat → Option α
  | [], _ => none
  | (j, b) :: t, k => if j = k then some b else tget t k

/-- A table with a record put under a key, the keys kept rising. -/
def tput {α : Type} : Table α → Nat → α → Table α
  | [], k, a => [(k, a)]
  | (j, b) :: t, k, a =>
    if k < j then (k, a) :: (j, b) :: t
    else if k = j then (k, a) :: t
    else (j, b) :: tput t k a

/-- A table without a key. -/
def tdel {α : Type} (t : Table α) (k : Nat) : Table α := t.filter fun p => p.1 != k

/-! ### Memories -/

/-- The byte at an address; an unlisted address reads 0 (log 4). -/
def readByte : Memory → Nat → Byte
  | [], _ => 0
  | (j, b) :: t, a => if j = a then b else readByte t a

/-- A memory with one byte written: the entry goes in its place, and a zero byte is not listed. -/
def writeByte : Memory → Nat → Byte → Memory
  | [], a, v => if v = 0 then [] else [(a, v)]
  | (j, b) :: t, a, v =>
    if a < j then (if v = 0 then (j, b) :: t else (a, v) :: (j, b) :: t)
    else if a = j then (if v = 0 then t else (a, v) :: t)
    else (j, b) :: writeByte t a v

/-- The n bytes from an address up. -/
def readBytes (m : Memory) (a : Nat) : Nat → List Byte
  | 0 => []
  | n + 1 => readByte m a :: readBytes m (a + 1) n

/-- A memory with bytes written from an address up. -/
def writeBytes : Memory → Nat → List Byte → Memory
  | m, _, [] => m
  | m, a, b :: bs => writeBytes (writeByte m a b) (a + 1) bs

/-- A memory with the n bytes from an address up set to zero. -/
def clearBytes (m : Memory) (a n : Nat) : Memory := m.filter fun c => c.1 < a || a + n ≤ c.1

/-- The cells above a key, strictly rising and none zero. -/
def wfAbove : Nat → Memory → Bool
  | _, [] => true
  | k, (j, b) :: t => decide (k < j) && b != 0 && wfAbove j t

/-- The canonical form: addresses strictly rising, no entry equal to what an unlisted address reads as. -/
def Memory.wf : Memory → Bool
  | [] => true
  | (j, b) :: t => b != 0 && wfAbove j t

/-- The bytes of a number, n of them, the low byte first (R1). -/
def bytesOfNat (n : Nat) (v : Nat) : List Byte := (List.range n).map fun i => BitVec.ofNat 8 (v / 2 ^ (8 * i))

/-- The number that bytes hold, the low byte first (R1). -/
def natOfBytes : List Byte → Nat
  | [] => 0
  | b :: bs => b.toNat + 256 * natOfBytes bs

/-- The little-endian field of n bytes at an offset of a byte list. -/
def leAt (bs : List Byte) (off n : Nat) : Nat := natOfBytes ((bs.drop off).take n)

/-- A bit field of a number. -/
def bitsAt (v lo n : Nat) : Nat := v / 2 ^ lo % 2 ^ n

/-! ### Rising lists of numbers -/

/-- A rising list with a number put in. -/
def ninsert : List Nat → Nat → List Nat
  | [], a => [a]
  | b :: t, a => if a < b then a :: b :: t else if a = b then b :: t else b :: ninsert t a

/-- A list without the numbers for which p holds. -/
def ndrop (l : List Nat) (p : Nat → Bool) : List Nat := l.filter fun x => !p x

/-! ### CRC-32C (R201) -/

/-- Eight steps of the reflected Castagnoli division. -/
def crcBits : Nat → Word → Word
  | 0, c => c
  | n + 1, c => crcBits n (if c.getLsbD 0 then (c >>> 1) ^^^ 0x82F63B78 else c >>> 1)

/-- The CRC register after the bytes. -/
def crcBytes : List Byte → Word → Word
  | [], c => c
  | b :: bs, c => crcBytes bs (crcBits 8 (c ^^^ b.zeroExtend 32))

/-- The CRC-32C of bytes (R201). -/
def crc32c (bs : List Byte) : Word := crcBytes bs 0xFFFFFFFF ^^^ 0xFFFFFFFF

/-! ### On-chip stores -/

/-- The 16-byte granules that the n bytes at a touch. -/
def granulesOf (a n : Nat) : List Nat :=
  if n = 0 then [] else (List.range ((a + n - 1) / 16 - a / 16 + 1)).map (· + a / 16)

/-- The 256-byte sectors that the n bytes at a touch. -/
def sectorsOf (a n : Nat) : List Nat :=
  if n = 0 then [] else (List.range ((a + n - 1) / 256 - a / 256 + 1)).map (· + a / 256)

/-- Whether a granule reads as poisoned: it is marked, or its error is uncorrectable (R252, R460). -/
def Store.bad (st : Store) (g : Nat) : Bool := st.poison.contains g || st.uncorr.contains g

/-- Whether any granule of the range reads as poisoned (R252). -/
def Store.poisoned (st : Store) (a n : Nat) : Bool := (granulesOf a n).any st.bad

/-- Granules written whole: their marks and errors are gone (R252). -/
def Store.fresh (st : Store) (p : Nat → Bool) : Store :=
  { st with poison := ndrop st.poison p, uncorr := ndrop st.uncorr p, corr := ndrop st.corr p }

/-- A granule's error detected: a corrected one is written back, an uncorrectable one marks the granule poisoned (R460). -/
def Store.detect (st : Store) (g : Nat) : Store :=
  { st with
    poison := if st.uncorr.contains g then ninsert st.poison g else st.poison
    uncorr := ndrop st.uncorr (· == g), corr := ndrop st.corr (· == g) }

/-- What is left of ranges (first byte, length) when another is taken out. -/
def rangesCut (rs : List (Nat × Nat)) (a n : Nat) : List (Nat × Nat) :=
  rs.flatMap fun r =>
    if r.1 + r.2 ≤ a || a + n ≤ r.1 then [r]
    else ((if r.1 < a then [(r.1, a - r.1)] else []) ++ if a + n < r.1 + r.2 then [(a + n, r.1 + r.2 - (a + n))] else [])

/-- An error in tile storage or accumulator memory detected: the granule's bytes are marked, each until it is written again (R203, R460). -/
def Store.detectBytes (st : Store) (g : Nat) : Store :=
  { st with
    badRanges := if st.uncorr.contains g then rangesCut st.badRanges (16 * g) 16 ++ [(16 * g, 16)] else st.badRanges
    uncorr := ndrop st.uncorr (· == g), corr := ndrop st.corr (· == g) }

/-- Whether any byte of some ranges is marked poisoned, or lies in a granule whose error is uncorrectable (R203). -/
def Store.tainted (st : Store) (rs : List (Nat × Nat)) : Bool :=
  rs.any fun r => st.poisoned r.1 r.2 || st.badRanges.any fun b => b.1 < r.1 + r.2 && r.1 < b.1 + b.2

/-- The bytes of a range. -/
def Store.bytes (st : Store) (a n : Nat) : List Byte := readBytes st.mem a n

/-- The bytes written, with no effect on marks and checks. -/
def Store.setBytes (st : Store) (a : Nat) (bs : List Byte) : Store := { st with mem := writeBytes st.mem a bs }

/-- The checks of the sectors of a range made invalid (R201). -/
def Store.dropChecks (st : Store) (a n : Nat) : Store :=
  { st with checks := st.checks.filter fun c => !(sectorsOf a n).contains c.1 }

/-- Granules marked poisoned. -/
def Store.markPoison (st : Store) (gs : List Nat) : Store := { st with poison := gs.foldl ninsert st.poison }

/-- The granules wholly inside the range freed of their marks (R252). -/
def Store.clearWhole (st : Store) (a n : Nat) : Store :=
  st.fresh fun g => a ≤ 16 * g && 16 * g + 16 ≤ a + n

/-- A plain write: bytes, sector checks cleared, marks of wholly written granules cleared (R201, R252). -/
def Store.write (st : Store) (a : Nat) (bs : List Byte) : Store :=
  ((st.setBytes a bs).dropChecks a bs.length).clearWhole a bs.length

/-- Several plain writes of one store word, in order; a granule that they cover together counts as wholly written (R252). -/
def Store.writeAll (st : Store) (ws : List (Nat × List Byte)) : Store :=
  let st' := ws.foldl (fun st w => (st.setBytes w.1 w.2).dropChecks w.1 w.2.length) st
  let covered (x : Nat) : Bool := ws.any fun w => w.1 ≤ x && x < w.1 + w.2.length
  st'.fresh fun g => (List.range 16).all fun i => covered (16 * g + i)

/-- Elements written in tile storage or accumulator memory: their bytes are marked poisoned or are so no longer (R203). -/
def Store.writeElems (st : Store) (ws : List (Nat × List Byte)) (poison : Bool) : Store :=
  let st := st.writeAll ws
  let kept := ws.foldl (fun rs w => rangesCut rs w.1 w.2.length) st.badRanges
  { st with badRanges := if poison then kept ++ ws.map fun w => (w.1, w.2.length) else kept }

/-- The sector's check set to the CRC of its bytes as they stand, and valid (R201). -/
def Store.setCheck (st : Store) (sector : Nat) : Store :=
  { st with checks := tput st.checks sector (crc32c (st.bytes (256 * sector) 256)) }

/-- The checks of every sector of a range set (R201). -/
def Store.setChecks (st : Store) (a n : Nat) : Store := (sectorsOf a n).foldl Store.setCheck st

/-- Whether a valid check of the range differs from the CRC of its sector (R290). -/
def Store.checkBad (st : Store) (a n : Nat) : Bool :=
  (sectorsOf a n).any fun k => match tget st.checks k with
    | none => false
    | some c => c != crc32c (st.bytes (256 * k) 256)

/-- The marks and checks of a range forgotten and its bytes zero. -/
def Store.zeroRange (st : Store) (a n : Nat) : Store :=
  { st.fresh fun g => a ≤ 16 * g && 16 * g < a + n with
    mem := clearBytes st.mem a n
    checks := st.checks.filter fun c => !(a ≤ 256 * c.1 && 256 * c.1 < a + n) }

end Sys2Proof.Machine
end

