-- ==== Sys2Proof/Machine/Operands.lean ====
section
/-! DEFINITION. Format tags, elements and operand specifiers (R26-R31, R52-R58, R141). -/

namespace Sys2Proof.Machine

/-! ### Tags -/

/-- The tag code (R52). -/
def Tag.code : Tag → Nat
  | .raw => 0 | .i32 => 1 | .n32 => 2 | .i64 => 3 | .n64 => 4 | .f32 => 5 | .f64 => 6 | .f16x4 => 7 | .bf16x4 => 8
  | .e4m3x8 => 9 | .e5m2x8 => 10 | .tt8x8 => 11 | .i8x8 => 12 | .i16x4 => 13 | .m64 => 14 | .poison => 15

/-- The tag of a code (R52). -/
def Tag.ofCode (n : Nat) : Tag :=
  match n with
  | 0 => .raw | 1 => .i32 | 2 => .n32 | 3 => .i64 | 4 => .n64 | 5 => .f32 | 6 => .f64 | 7 => .f16x4 | 8 => .bf16x4
  | 9 => .e4m3x8 | 10 => .e5m2x8 | 11 => .tt8x8 | 12 => .i8x8 | 13 => .i16x4 | 14 => .m64 | _ => .poison

/-- The integer class (R54). -/
def Tag.isInt : Tag → Bool
  | .i32 | .n32 | .i64 | .n64 => true
  | _ => false

/-- The packed integer class (R54). -/
def Tag.isPackedInt : Tag → Bool
  | .i8x8 | .i16x4 => true
  | _ => false

/-- The float class (R54). -/
def Tag.isFloat : Tag → Bool
  | .f32 | .f64 | .f16x4 | .bf16x4 => true
  | _ => false

/-- The 32-bit tags (R53). -/
def Tag.is32 : Tag → Bool
  | .i32 | .n32 | .f32 => true
  | _ => false

/-- Tags read as signed (R83). -/
def Tag.isSigned : Tag → Bool
  | .i32 | .i64 | .i8x8 | .i16x4 => true
  | _ => false

/-- The element width e (R141). -/
def Tag.elemBits : Tag → Nat
  | .i32 | .n32 | .f32 => 32
  | .f16x4 | .bf16x4 | .i16x4 => 16
  | .e4m3x8 | .e5m2x8 | .tt8x8 | .i8x8 => 8
  | _ => 64

/-- The element count n (R141). -/
def Tag.elemCount : Tag → Nat
  | .f16x4 | .bf16x4 | .i16x4 => 4
  | .e4m3x8 | .e5m2x8 | .tt8x8 | .i8x8 => 8
  | _ => 1

/-- The width of a scalar under a tag (R113). -/
def Tag.scalarWidth (t : Tag) : Nat := if t.is32 then 32 else 64

/-- The format of the elements of a float tag (R150). -/
def Tag.floatFmt : Tag → Option FloatFmt
  | .f32 => some .f32
  | .f64 => some .f64
  | .f16x4 => some .f16
  | .bf16x4 => some .bf16
  | _ => none

/-- The format of the elements under VCVT (R155). -/
def Tag.elemFmt : Tag → Option ElemFmt
  | .i32 => some (.int 32 true)
  | .n32 => some (.int 32 false)
  | .i64 => some (.int 64 true)
  | .n64 => some (.int 64 false)
  | .f32 => some (.float .f32)
  | .f64 => some (.float .f64)
  | .f16x4 => some (.float .f16)
  | .bf16x4 => some (.float .bf16)
  | .e4m3x8 => some (.float .e4m3)
  | .e5m2x8 => some (.float .e5m2)
  | .tt8x8 => some .tt8
  | .i8x8 => some (.int 8 true)
  | .i16x4 => some (.int 16 true)
  | _ => none

/-- The pattern of +0 in an element of a tag: 0x77 for TT8, else 0 (R147, R155). -/
def Tag.zeroElem : Tag → Nat
  | .tt8x8 => 0x77
  | _ => 0

/-- The pattern of one in an element of a tag (R27). -/
def Tag.oneElem : Tag → Nat
  | .f32 => 0x3F800000
  | .f64 => 0x3FF0000000000000
  | .f16x4 => 0x3C00
  | .bf16x4 => 0x3F80
  | .e4m3x8 => 0x38
  | .e5m2x8 => 0x3C
  | .tt8x8 => 0x07
  | _ => 1

/-! ### Values -/

/-- A value of a tag from a number: a 32-bit tag keeps the low 32 bits (R53). -/
def mkVal (t : Tag) (v : Nat) : RegVal :=
  { bits := BitVec.ofNat 64 (if t.is32 then v % 2 ^ 32 else v), tag := t }

/-- The low w bits of a value. -/
def RegVal.low (r : RegVal) (w : Nat) : Nat := r.bits.toNat % 2 ^ w

/-- The elements of a value under a tag's layout, element 0 first (R141). -/
def elemsOf (t : Tag) (b : DWord) : List Nat :=
  (List.range t.elemCount).map fun i => b.toNat / 2 ^ (t.elemBits * i) % 2 ^ t.elemBits

/-- The value whose elements are given, element 0 first. -/
def packElems (e : Nat) : List Nat → Nat
  | [] => 0
  | x :: xs => x % 2 ^ e + 2 ^ e * packElems e xs

/-- A register value of packed elements. -/
def mkElems (t : Tag) (xs : List Nat) : RegVal := mkVal t (packElems t.elemBits xs)

/-- The constant zero in a tag (R27). -/
def constZero (t : Tag) : RegVal := mkElems t (List.replicate t.elemCount t.zeroElem)

/-- The constant one in a tag (R27). -/
def constOne (t : Tag) : RegVal := mkElems t (List.replicate t.elemCount t.oneElem)

/-- An integer-class value as the integer its tag makes it (R83). -/
def RegVal.toInteger (r : RegVal) : Int :=
  match r.tag with
  | .i32 => signedOf 32 (r.low 32)
  | .n32 => r.low 32
  | .i64 => signedOf 64 r.bits.toNat
  | _ => r.bits.toNat

/-- An integer-class value read as unsigned at the width of its tag. -/
def RegVal.toUnsigned (r : RegVal) : Nat := r.low r.tag.scalarWidth

/-- An address operand: an I tag is sign-extended to 64 bits, an N tag zero-extended (R240). -/
def RegVal.toAddress (r : RegVal) : DWord := BitVec.ofInt 64 r.toInteger

/-! ### Lane masks -/

/-- The mask with a bit for each listed lane. -/
def maskOf : List Nat → DWord
  | [] => 0
  | l :: ls => (1#64 <<< l) ||| maskOf ls

/-- The lanes of a mask below w, ascending. -/
def lanesOf (w : Nat) (m : DWord) : List Nat := (List.range w).filter fun i => m.getLsbD i

/-! ### Operand specifiers -/

/-- What a 6-bit operand specifier names (R26). -/
inductive Src where
  /-- queue entry qk, k from 1 -/
  | q (k : Nat)
  | v (k : Nat)
  /-- s0-s7 broadcast, or h0-h7 in handler mode -/
  | sh (k : Nat)
  /-- a pop of operand queue oqk -/
  | pop (k : Nat)
  | zero
  | lane
  | one
  | illegal
  deriving DecidableEq, Repr

/-- The meaning of an operand code (R26). -/
def Src.ofCode (c : BitVec 6) : Src :=
  let n := c.toNat
  if n < 0x10 then .q (n + 1)
  else if n < 0x30 then .v (n - 0x10)
  else if n < 0x38 then .sh (n - 0x30)
  else if n < 0x3C then .pop (n - 0x38)
  else if n = 0x3C then .zero
  else if n = 0x3D then .lane
  else if n = 0x3E then .one
  else .illegal

/-- Whether the code is a constant code, whose tag R27 decides. -/
def Src.isConst : Src → Bool
  | .zero | .one => true
  | _ => false

/-- What a 6-bit destination specifier names (R29). -/
inductive Dst where
  | queue
  | v (k : Nat)
  | h (k : Nat)
  | illegal
  deriving DecidableEq, Repr

/-- The meaning of a destination code (R29). -/
def Dst.ofCode (c : BitVec 6) : Dst :=
  let n := c.toNat
  if n = 0 then .queue
  else if 0x10 ≤ n && n < 0x30 then .v (n - 0x10)
  else if 0x30 ≤ n && n < 0x38 then .h (n - 0x30)
  else .illegal

/-! ### Registers of a crew -/

/-- The lane record of a lane; a lane beyond the crew's width has default contents. -/
def CrewRegs.lane (r : CrewRegs) (l : Nat) : Lane := r.lanes.getD l {}

/-- The value of vk in a lane. -/
def Lane.getV (l : Lane) (k : Nat) : RegVal := l.v.toList.getD k {}

/-- The value of hk in a lane. -/
def Lane.getH (l : Lane) (k : Nat) : RegVal := l.h.toList.getD k {}

/-- Queue entry qk, k from 1. -/
def Lane.getQ (l : Lane) (k : Nat) : RegVal := l.q.getD (k - 1) {}

/-- Predicate pk; p0 always reads as true (R50). -/
def Lane.getP (l : Lane) (k : Nat) : Bool := k == 0 || l.p.getLsbD k

/-- The lane with vk set. -/
def Lane.setV (l : Lane) (k : Nat) (x : RegVal) : Lane := { l with v := l.v.setIfInBounds k x }

/-- The lane with hk set. -/
def Lane.setH (l : Lane) (k : Nat) (x : RegVal) : Lane := { l with h := l.h.setIfInBounds k x }

/-- The lane with pk set; a write to p0 is discarded (R50). -/
def Lane.setP (l : Lane) (k : Nat) (b : Bool) : Lane :=
  if k = 0 then l
  else { l with p := if b then l.p ||| (1#8 <<< k) else l.p &&& ~~~(1#8 <<< k) }

/-- The lane with an entry pushed: q16 is discarded (R43). -/
def Lane.pushQ (l : Lane) (x : RegVal) : Lane := { l with q := (x :: l.q).take 16 }

/-- The scalar that a 5-bit field names: in handler mode 28-31 name hs0-hs3 (R31). -/
def CrewRegs.getS (r : CrewRegs) (handler : Bool) (k : Nat) : RegVal :=
  if handler && 28 ≤ k then r.hs.toList.getD (k - 28) {} else r.s.toList.getD k {}

/-- The registers with the scalar of a field set (R31). -/
def CrewRegs.setS (r : CrewRegs) (handler : Bool) (k : Nat) (x : RegVal) : CrewRegs :=
  if handler && 28 ≤ k then { r with hs := r.hs.setIfInBounds (k - 28) x }
  else { r with s := r.s.setIfInBounds k x }

/-- The registers with one lane replaced. -/
def CrewRegs.setLane (r : CrewRegs) (l : Nat) (x : Lane) : CrewRegs := { r with lanes := r.lanes.set l x }

/-- The tag that the constants of a word take in a lane: that of the first operand, in order, that is not a constant code; RAW when there is none (R27). -/
def constTag : List (Src × Option RegVal) → Tag
  | [] => .raw
  | (_, some v) :: _ => v.tag
  | (_, none) :: t => constTag t

/-! ### What each word reads, for the readiness of its chain group (R14, R25) -/

/-- The registers that a word reads: operand specifiers in its active lanes, the destination specifier whose register the inactive lanes copy
(R44), named registers in its active lanes, and scalar fields. -/
structure Needs where
  vec : List (BitVec 6) := []
  dst : Option (BitVec 6) := none
  own : List Dst := []
  scal : List (BitVec 5) := []
  deriving DecidableEq, Repr

end Sys2Proof.Machine
end

