-- ==== Sys2Proof/Machine/Aes.lean ====
section
/-! DEFINITION. AES-256: the block cipher that R420 and R446 name, its XTS mode, in which a sector of a protected world is sealed, and CMAC, which makes a sealed sector's tag (R420). -/

namespace Sys2Proof.Machine

/-! ### The block cipher -/

/-- A byte times x in the AES field. -/
def aesDouble (b : Byte) : Byte := if b.getLsbD 7 then (b <<< 1) ^^^ 0x1B else b <<< 1

/-- The product of two bytes in the AES field, over the n low bits of the second. -/
def aesMul (a b : Byte) : Nat → Byte
  | 0 => 0
  | n + 1 => (if b.getLsbD 0 then a else 0) ^^^ aesMul (aesDouble a) (b >>> 1) n

/-- The square of a byte in the AES field, repeated. -/
def aesSquares (b : Byte) : Nat → Byte
  | 0 => b
  | n + 1 => aesSquares (aesMul b b 8) n

/-- The inverse of a byte in the AES field: its 254th power, the product of seven repeated squares; 0 for 0. -/
def aesInv (b : Byte) : Byte := (List.range 7).foldl (fun x i => aesMul x (aesSquares b (i + 1)) 8) 1

/-- The S-box: the inverse and the affine map. -/
def aesSbox (b : Byte) : Byte :=
  let i := aesInv b
  i ^^^ i.rotateLeft 1 ^^^ i.rotateLeft 2 ^^^ i.rotateLeft 3 ^^^ i.rotateLeft 4 ^^^ 0x63

/-- The bytes of two lists combined by exclusive or. -/
def xorBytes (a b : List Byte) : List Byte := List.zipWith (fun x y : Byte => x ^^^ y) a b

/-- The round constant of round n. -/
def aesRcon : Nat → Byte
  | 0 => 1
  | n + 1 => aesDouble (aesRcon n)

/-- The word that enters the expansion after word i of an eight-word key. -/
def aesMix (i : Nat) (w : List Byte) : List Byte :=
  if i % 8 = 0 then xorBytes ((w.drop 1 ++ w.take 1).map aesSbox) [aesRcon (i / 8 - 1), 0, 0, 0]
  else if i % 8 = 4 then w.map aesSbox
  else w

/-- The expanded key, newest word first: n further words after those given. -/
def aesExpand : Nat → Nat → List (List Byte) → List (List Byte)
  | 0, _, ws => ws
  | n + 1, i, ws => aesExpand n (i + 1) (xorBytes (ws.getD 7 []) (aesMix i (ws.headD [])) :: ws)

/-- The 32 bytes of a key as words. -/
def aesWords (k : List Byte) : List (List Byte) := (List.range 8).map fun i => (k.drop (4 * i)).take 4

/-- The fifteen round keys of a 256-bit key. -/
def aesRoundKeys (k : List Byte) : List (List Byte) :=
  let ws := (aesExpand 52 8 (aesWords k).reverse).reverse
  (List.range 15).map fun r => ((ws.drop (4 * r)).take 4).flatten

/-- The byte that moves to place i when rows shift. -/
def aesShift (st : List Byte) : List Byte := (List.range 16).map fun i => st.getD ((i + 4 * (i % 4)) % 16) 0

/-- One column mixed. -/
def aesColumn (c : List Byte) : List Byte :=
  let at' (i : Nat) : Byte := c.getD (i % 4) 0
  (List.range 4).map fun i => aesDouble (at' i) ^^^ (aesDouble (at' (i + 1)) ^^^ at' (i + 1)) ^^^ at' (i + 2) ^^^ at' (i + 3)

/-- The columns mixed. -/
def aesColumns (st : List Byte) : List Byte := (List.range 4).flatMap fun i => aesColumn ((st.drop (4 * i)).take 4)

/-- The rounds after the first key: every round but the last mixes columns. -/
def aesRounds : List (List Byte) → List Byte → List Byte
  | [], st => st
  | [k], st => xorBytes (aesShift (st.map aesSbox)) k
  | k :: ks, st => aesRounds ks (xorBytes (aesColumns (aesShift (st.map aesSbox))) k)

/-- A block encrypted under round keys. -/
def aesBlock (ks : List (List Byte)) (b : List Byte) : List Byte := aesRounds (ks.drop 1) (xorBytes b (ks.headD []))

/-! ### The inverse cipher -/

/-- The byte that moves to place i when rows shift back. -/
def aesUnshift (st : List Byte) : List Byte := (List.range 16).map fun i => st.getD ((i + 12 * (i % 4)) % 16) 0

/-- The inverse S-box: the inverse affine map and the inverse. -/
def aesUnbox (b : Byte) : Byte := aesInv (b.rotateLeft 1 ^^^ b.rotateLeft 3 ^^^ b.rotateLeft 6 ^^^ 0x05)

/-- One column unmixed. -/
def aesUncolumn (c : List Byte) : List Byte :=
  let at' (i : Nat) : Byte := c.getD (i % 4) 0
  (List.range 4).map fun i => aesMul (at' i) 0x0E 8 ^^^ aesMul (at' (i + 1)) 0x0B 8 ^^^ aesMul (at' (i + 2)) 0x0D 8 ^^^ aesMul (at' (i + 3)) 0x09 8

/-- The columns unmixed. -/
def aesUncolumns (st : List Byte) : List Byte := (List.range 4).flatMap fun i => aesUncolumn ((st.drop (4 * i)).take 4)

/-- The rounds undone, round keys last first. -/
def aesUnrounds : List (List Byte) → List Byte → List Byte
  | [], st => st
  | [k], st => xorBytes ((aesUnshift st).map aesUnbox) k
  | k :: ks, st => aesUnrounds ks (aesUncolumns (xorBytes ((aesUnshift st).map aesUnbox) k))

/-- A block decrypted under round keys. -/
def aesUnblock (ks : List (List Byte)) (b : List Byte) : List Byte :=
  let r := ks.reverse
  aesUnrounds (r.drop 1) (xorBytes b (r.headD []))

/-! ### CMAC -/

/-- Sixteen bytes as a block, the first byte highest. -/
def blockOf (bs : List Byte) : BitVec 128 := BitVec.ofNat 128 (natOfBytes bs.reverse)

/-- The sixteen bytes of a block, the highest first. -/
def blockBytes (b : BitVec 128) : List Byte := (bytesOfNat 16 b.toNat).reverse

/-- The next subkey. -/
def cmacDouble (b : BitVec 128) : BitVec 128 := if b.getLsbD 127 then (b <<< 1) ^^^ 0x87 else b <<< 1

/-- The last block of a message, padded where it is not whole, under its subkey. -/
def cmacLast (ks : List (List Byte)) (b : List Byte) : List Byte :=
  let k := cmacDouble (blockOf (aesBlock ks (List.replicate 16 0)))
  if b.length = 16 then xorBytes b (blockBytes k)
  else xorBytes (b ++ 0x80 :: List.replicate (15 - b.length) 0) (blockBytes (cmacDouble k))

/-- The blocks of a message chained from a state on, at most n of them before the last. -/
def cmacFrom (ks : List (List Byte)) : Nat → List Byte → List Byte → List Byte
  | 0, st, bs => aesBlock ks (xorBytes st (cmacLast ks bs))
  | n + 1, st, bs => cmacFrom ks n (aesBlock ks (xorBytes st (bs.take 16))) (bs.drop 16)

/-- AES-256-CMAC of a message (R420). -/
def aesCmac (key : BitVec 256) (bs : List Byte) : List Byte :=
  cmacFrom (aesRoundKeys (bytesOfNat 32 key.toNat)) ((bs.length - 1) / 16) (List.replicate 16 0) bs

/-! ### XTS -/

/-- The next tweak of a data unit: the last one doubled in the field of 128 bits, its first byte lowest. -/
def xtsDouble (t : List Byte) : List Byte :=
  let n := natOfBytes t
  bytesOfNat 16 ((2 * n % 2 ^ 128) ^^^ (if 2 ^ 127 ≤ n then 0x87 else 0))

/-- The blocks of a data unit encrypted from a tweak on, at most n of them. -/
def xtsBlocks (ks : List (List Byte)) : Nat → List Byte → List Byte → List Byte
  | 0, _, _ => []
  | n + 1, t, bs => xorBytes (aesBlock ks (xorBytes (bs.take 16) t)) t ++ xtsBlocks ks n (xtsDouble t) (bs.drop 16)

/-- A sector sealed under a tenant's key: AES-256-XTS with the sector's partition-global address as the tweak (R420). XTS takes two keys of 256 bits, and the
spec does not say how the tenant's one key gives them: they are free values (log 11). -/
def sealBytes (key : BitVec 256) (addr : Nat) (plain : List Byte) : List Byte :=
  let ks := Config.xtsKeys key
  xtsBlocks (aesRoundKeys (bytesOfNat 32 ks.1.toNat)) 16 (aesBlock (aesRoundKeys (bytesOfNat 32 ks.2.toNat)) (bytesOfNat 16 addr)) plain

/-- The blocks of a sealed data unit decrypted from a tweak on, at most n of them. -/
def xtsUnblocks (ks : List (List Byte)) : Nat → List Byte → List Byte → List Byte
  | 0, _, _ => []
  | n + 1, t, bs => xorBytes (aesUnblock ks (xorBytes (bs.take 16) t)) t ++ xtsUnblocks ks n (xtsDouble t) (bs.drop 16)

/-- A sealed sector opened under a tenant's key (R421). -/
def openBytes (key : BitVec 256) (addr : Nat) (ct : List Byte) : List Byte :=
  let ks := Config.xtsKeys key
  xtsUnblocks (aesRoundKeys (bytesOfNat 32 ks.1.toNat)) 16 (aesBlock (aesRoundKeys (bytesOfNat 32 ks.2.toNat)) (bytesOfNat 16 addr)) ct

end Sys2Proof.Machine
end

