-- ==== Sys2Proof/Machine/Report.lean ====
section
/-! DEFINITION. Global memory as the device itself writes it, interrupt sources, and error records (R275, R291, R292, R435, R455-R459). -/

namespace Sys2Proof.Machine

/-! ### Global memory -/

/-- The sectors that the range covers whole. -/
def wholeSectors (a n : Nat) : Nat → Bool := fun k => a ≤ 256 * k && 256 * k + 256 ≤ a + n

/-- A write of clean data: the stored check of each touched sector becomes the CRC of its bytes, and a sector written whole loses its mark and its error (R291, R292). -/
def GlobalMem.write (g : GlobalMem) (a : Nat) (bs : List Byte) : GlobalMem :=
  let n := bs.length
  let whole := wholeSectors a n
  { g with
    mem := writeBytes g.mem a bs
    poison := ndrop g.poison whole
    uncorr := ndrop g.uncorr whole
    corr := ndrop g.corr whole
    badCheck := g.badCheck.filter fun c => !(sectorsOf a n).contains c.1 }

/-- The sectors of a range marked poisoned (R292). -/
def GlobalMem.markPoison (g : GlobalMem) (a n : Nat) : GlobalMem :=
  { g with poison := (sectorsOf a n).foldl ninsert g.poison }

/-- The sealed form of a sector (R420). -/
def sealSector (q : Seal) (k : Nat) (plain : List Byte) : List Byte := sealBytes q.key (256 * k) plain

/-- The GEN of a seal's handle. -/
def Seal.gen (q : Seal) : Nat := q.handle.toNat / 4096 % 65536

/-- The 96-bit tag of a sealed sector: AES-256-CMAC over the ciphertext, the sector's partition-global address and GEN, truncated (R420, log 11). -/
def Seal.tag (q : Seal) (k : Nat) (ct : List Byte) : BitVec 96 :=
  BitVec.ofNat 96 (natOfBytes ((aesCmac (Config.macKey q.key) (ct ++ bytesOfNat 8 (256 * k) ++ bytesOfNat 2 q.gen)).take 12))

/-- Whether a sector holds ciphertext that does not verify. -/
def GlobalMem.isBroken (g : GlobalMem) (k : Nat) : Bool := (tget g.broken k).isSome

/-- The 256 bytes of a sector as they are stored: of a sealed one the ciphertext. -/
def GlobalMem.stored (g : GlobalMem) (k : Nat) : List Byte :=
  let bs := readBytes g.mem (256 * k) 256
  match tget g.sealed k with
  | none => bs
  | some q => if g.isBroken k then bs else sealSector q k bs

/-- The tag of a sealed sector (R420). -/
def GlobalMem.sealTag (g : GlobalMem) (k : Nat) : BitVec 96 :=
  match tget g.sealed k with
  | none => 0
  | some q => (tget g.broken k).getD (q.tag k (g.stored k))

/-- The ITAG of a sector: what a save left there (R402), else its seal's tag, and zero where it is not sealed (R275). -/
def GlobalMem.itag (g : GlobalMem) (k : Nat) : BitVec 96 := (tget g.itags k).getD (g.sealTag k)

/-- Whether a sealed sector's tag verifies under a world's key and GEN (R421). -/
def GlobalMem.verifies (g : GlobalMem) (k : Nat) (o : Seal) : Bool :=
  match tget g.sealed k with
  | none => true
  | some q => (!g.isBroken k && o.key == q.key && o.gen == q.gen) || o.tag k (g.stored k) == g.sealTag k

/-- The 256 bytes of a sector as a reader obtains them: opened under the key of the reader's world, else as they are stored (R419, R421, R422). -/
def GlobalMem.view (g : GlobalMem) (k : Nat) (opens : Option Seal) : List Byte :=
  match tget g.sealed k, opens with
  | some q, some o => if o.key == q.key && !g.isBroken k then readBytes g.mem (256 * k) 256 else openBytes o.key (256 * k) (g.stored k)
  | _, _ => g.stored k

/-- A sealed sector as a writer finds it: its own world's in plaintext, verified as it is filled, so that one which fails is poisoned (R421); without a world the stored
bytes, sealed no more (R417). -/
def GlobalMem.opened (g : GlobalMem) (k : Nat) (opens : Option Seal) : GlobalMem :=
  match tget g.sealed k with
  | none => g
  | some h => match opens with
    | some o =>
      if o == h && !g.isBroken k then g
      else { g with
        mem := writeBytes g.mem (256 * k) (g.view k opens), broken := tdel g.broken k, poison := if g.verifies k o then g.poison else ninsert g.poison k }
    | none => { g with mem := writeBytes g.mem (256 * k) (g.stored k), sealed := tdel g.sealed k, broken := tdel g.broken k }

/-- One engine write into global memory within one sector: into a world's own sector in plaintext, which is sealed when it leaves the protected ways, and in plaintext over the stored
form of any other sealed sector (R417, R419, R420). -/
def GlobalMem.engWrite (g : GlobalMem) (pa : Nat) (bs : List Byte) (opens : Option Seal) (poison : Bool) : GlobalMem :=
  let k := pa / 256
  let g := ({ g.opened k opens with itags := tdel g.itags k } : GlobalMem).write pa bs
  let g := if poison then g.markPoison pa bs.length else g
  match opens with
  | none => g
  | some h => { g with sealed := tput g.sealed k h }

/-- A sector as agents beyond partition scope still find it, the granules that an L2 holds changed as they were (R334). -/
def GlobalMem.outer (g : GlobalMem) (k : Nat) : GlobalMem :=
  { g with mem := (g.behind.filter fun x => x.1 / 8 == k).foldl (fun m x => writeBytes m (32 * x.1) x.2) g.mem }

/-- The granules of 32 bytes that a range touches. -/
def farGranules (a n : Nat) : List Nat := if n = 0 then [] else (List.range ((a + n - 1) / 32 - a / 32 + 1)).map (· + a / 32)

/-- Before an L2 takes a write: what agents beyond partition scope still read there (R334). -/
def GlobalMem.keepBehind (g : GlobalMem) (a n : Nat) : GlobalMem :=
  { g with behind := (farGranules a n).foldl (fun t k => if (tget t k).isSome then t else tput t k (readBytes g.mem (32 * k) 32)) g.behind }

/-- Granules whose bytes have reached the memory-side cache (R334). -/
def GlobalMem.settleBehind (g : GlobalMem) (a n : Nat) : GlobalMem := { g with behind := g.behind.filter fun x => !(farGranules a n).contains x.1 }

/-- The granules of the sectors that a condition names have reached the memory-side cache. -/
def GlobalMem.settleSectors (g : GlobalMem) (f : Nat → Bool) : GlobalMem := { g with behind := g.behind.filter fun x => !f (x.1 / 8) }

/-- A write by an agent outside every world within one sector: into a sealed sector it is performed on the ciphertext, whose tag stays and verifies only by chance of
its bytes (R421, R422). -/
def GlobalMem.outsideWrite (g : GlobalMem) (a : Nat) (bs : List Byte) : GlobalMem :=
  let k := a / 256
  let g := g.settleBehind a bs.length
  match tget g.sealed k with
  | none => g.write a bs
  | some q =>
    let t := g.sealTag k
    let w := { g with mem := writeBytes g.mem (256 * k) (g.stored k) }.write a bs
    let ct := readBytes w.mem (256 * k) 256
    if q.tag k ct == t then { w with mem := writeBytes w.mem (256 * k) (openBytes q.key (256 * k) ct), broken := tdel w.broken k }
    else { w with broken := tput w.broken k t }

/-- The partition with an id. -/
def State.partition? (s : State) (pid : Nat) : Option Partition := tget s.partitions pid

/-- A partition changed. -/
def State.modPartition (s : State) (pid : Nat) (f : Partition → Partition) : State :=
  match tget s.partitions pid with
  | none => s
  | some p => { s with partitions := tput s.partitions pid (f p) }

/-- Bytes written by the device, or from outside every world, at a physical address of a partition's global space, within one sector (R422); outside that space nothing is
written (R432). -/
def State.writeGlobal (s : State) (pid a : Nat) (bs : List Byte) : State :=
  s.modPartition pid fun p => if p.sg < a + bs.length then p else { p with gm := p.gm.outsideWrite a bs }

/-- Whether a range lies in a partition's global space (R432). -/
def State.inGlobal (s : State) (pid a n : Nat) : Bool := (tget s.partitions pid).any fun p => decide (a + n ≤ p.sg)

/-- Bytes of a partition's global space at a physical address, within one sector, as a reader outside every world obtains them (R419, R422). -/
def State.readGlobal (s : State) (pid a n : Nat) : List Byte :=
  match tget s.partitions pid with
  | none => List.replicate n 0
  | some p => if p.sg < a + n then List.replicate n 0 else if (tget p.gm.sealed (a / 256)).isSome then ((p.gm.view (a / 256) none).drop (a % 256)).take n else readBytes p.gm.mem a n

/-- Bytes of a partition's global space at a physical address, within one sector, as a world's seal opens them: its own sealed sectors
in plaintext, any other sealed sector as it is stored (R419, log 43). -/
def State.readSealed (s : State) (pid : Nat) (opens : Option Seal) (a n : Nat) : List Byte :=
  match tget s.partitions pid with
  | none => List.replicate n 0
  | some p => if (tget p.gm.sealed (a / 256)).isSome then ((p.gm.view (a / 256) opens).drop (a % 256)).take n else readBytes p.gm.mem a n

/-! ### Slices and cores -/

/-- The record of a slice; one that no table entry lists has default contents. -/
def State.slice (s : State) (k : Nat) : Slice := (tget s.slices k).getD {}

/-- A slice changed. -/
def State.modSlice (s : State) (k : Nat) (f : Slice → Slice) : State :=
  { s with slices := tput s.slices k (f (s.slice k)) }

/-- The slices that belong to a partition (R429). -/
def State.slicesOf (s : State) (pid : Nat) : List Nat := (List.range 16).filter fun k => (s.slice k).fwPid == pid && pid != 0

/-- The record of a core; one that no table entry lists has default contents. -/
def State.core (s : State) (k : Nat) : Core := (tget s.cores k).getD {}

/-- A core changed. -/
def State.modCore (s : State) (k : Nat) (f : Core → Core) : State :=
  { s with cores := tput s.cores k (f (s.core k)) }

/-! ### Homes of granules (R432) -/

/-- The XOR of the bytes of a number (R432). -/
def fold8 (n : Nat) : Nat := (List.range 8).foldl (fun x i => x ^^^ (n / 256 ^ i % 256)) 0

/-- The slice that is home to a byte of a partition's global space (R432). -/
def State.homeSlice (s : State) (pid pa : Nat) : Nat :=
  (((tget s.partitions pid).map (·.itab)).getD []).getD (fold8 (pa / 65536)) 0

/-! ### The slice firewall (R429, R430) -/

/-- Whether the firewall of a slice accepts a transaction with a source slice and partition id (R430). -/
def State.firewallOk (s : State) (src target pid : Nat) : Bool :=
  let t := s.slice target
  pid != 0 && t.fwPid == pid && t.fwTab.getD src 0 == pid

/-- The slice whose vault holds a package-wide vault byte (R239). -/
def vaultSlice (pa : Nat) : Nat := pa / 2 ^ 28

/-! ### Interrupt sources (R435, R487) -/

/-- The three sources of a slice (R435). -/
def sourcesOf (slice : Nat) : List Nat := (List.range 3).map fun k => 1 + 4 * slice + k

/-- An interrupt delivered: its identity is pending at the interrupt file of a host core, numbered over the package (R435). -/
def State.deliver (s : State) (hart identity : Nat) : State :=
  s.modSlice (hart / 8) fun x => { x with imsic := tput x.imsic (hart % 8) (ninsert ((tget x.imsic (hart % 8)).getD []) identity) }

/-- The slice that raises a source. -/
def sourceSlice (n : Nat) : Nat := (n - 1) / 4

/-- A source by its number. -/
def State.source (s : State) (n : Nat) : IntSource := (tget (s.slice (sourceSlice n)).sources n).getD {}

/-- A source as the OS or a resize leaves it. -/
def State.putSource (s : State) (n : Nat) (x : IntSource) : State := s.modSlice (sourceSlice n) fun y => { y with sources := tput y.sources n x }

/-- Source k of a slice raised in the partition's domain: delivered to its target when enabled, else pending; a slice of no partition has no domain (R435). -/
def State.raiseSource (s : State) (pid slice k : Nat) : State :=
  let n := 1 + 4 * slice + k
  let x := s.source n
  if pid = 0 then s else if x.enabled then s.deliver x.target x.identity else s.putSource n { x with pending := true }

/-! ### Error records -/

/-- The 64 bytes of a record (R455). -/
def ErrRec.bytes (e : ErrRec) : List Byte :=
  bytesOfNat 64
    (e.type + (if e.retried then 2 ^ 8 else 0) + (if e.fatal then 2 ^ 9 else 0) + (if e.aval then 2 ^ 10 else 0)
      + e.slice * 2 ^ 16 + e.core * 2 ^ 24 + e.ctx % 2 ^ 32 * 2 ^ 32 + e.launch.toNat * 2 ^ 64 + e.seq.toNat * 2 ^ 96
      + e.addr.toNat * 2 ^ 128 + e.info.toNat * 2 ^ 192 + e.pid * 2 ^ 256)

/-- A record into the physical error log of 4096 records: when it is full the oldest is overwritten and the overflow count rises (R458). -/
def State.logRecord (s : State) (e : ErrRec) : State :=
  let h := s.harbour
  let e' := { e with seq := h.logSeq, ctx := e.ctx % 2 ^ 32 }
  let full := 4096 ≤ h.log.length
  { s with harbour := { h with
      log := (if full then h.log.drop 1 else h.log) ++ [e']
      logSeq := h.logSeq + 1
      overflow := if full then h.overflow + 1 else h.overflow } }

/-- A record into a partition's virtual error queue: dropped and counted when the ring is full or disabled; a written one raises source 1 of its slice (R457). -/
def State.virtualRecord (s : State) (pid : Nat) (e : ErrRec) : State :=
  match tget s.partitions pid with
  | none => s
  | some p =>
    if p.vqBase = 0 || 2 ^ (p.vqLog2n + 4) ≤ (p.vqProd - p.vqCons).toNat then
      s.modPartition pid fun p => { p with vqLost := min (p.vqLost + 1) 0xFFFFFFFF }
    else
      let e' := { e with seq := p.vqProd, pid := 0 }
      let at' := p.vqBase.toNat + 64 * (p.vqProd.toNat % 2 ^ (p.vqLog2n + 4))
      let s := s.writeGlobal pid at' e'.bytes
      let s := s.modPartition pid fun p => { p with vqProd := p.vqProd + 1 }
      s.raiseSource pid e.slice 1

/-- In which terms an event names its address: one that is no memory address or a scratchpad offset, a guest virtual address, a byte of a partition's global space, a byte of vault. -/
inductive RecAddr where
  | plain
  | guest
  | global
  | vault
  deriving DecidableEq, Repr

/-- The guest virtual address under which a partition maps a byte of its global space, or of vault. -/
def Partition.guestOf (p : Partition) (vault : Bool) (pa : Nat) : Option Nat :=
  (p.pages.find? fun g => g.vault == vault && g.pa ≤ pa && pa < g.pa + g.size).map fun g => g.va + (pa - g.pa)

/-- The physical address of a guest virtual address. -/
def Partition.physOf (p : Partition) (va : Nat) : Option Nat :=
  (p.pages.find? fun g => g.va ≤ va && va < g.va + g.size).map fun g => g.pa + (va - g.va)

/-- A record with its address, not valid where there is none. -/
def ErrRec.addressed (e : ErrRec) (a : Option Nat) : ErrRec :=
  match a with
  | some a => { e with addr := BitVec.ofNat 64 a }
  | none => { e with addr := 0, aval := false }

/-- A record as the physical log holds it: with a physical address (R455). -/
def State.logForm (s : State) (pid : Nat) (k : RecAddr) (e : ErrRec) : ErrRec :=
  if k = .guest && e.aval then e.addressed ((s.partition? pid).bind fun p => p.physOf e.addr.toNat) else e

/-- A record as a partition's virtual queue holds it: with a guest virtual address (R455, R457). -/
def State.guestForm (s : State) (pid : Nat) (k : RecAddr) (e : ErrRec) : ErrRec :=
  if (k = .global || k = .vault) && e.aval then e.addressed ((s.partition? pid).bind fun p => p.guestOf (k = .vault) e.addr.toNat) else e

/-- An event reported: once in the physical log, and in the virtual queue of each partition concerned (R455, R458, R459). -/
def State.report (s : State) (pids : List Nat) (e : ErrRec) (k : RecAddr := .plain) : State :=
  pids.eraseDups.foldl (fun t pid => t.virtualRecord pid (s.guestForm pid k e)) (s.logRecord { (s.logForm (pids.headD 0) k e) with pid := pids.headD 0 })

/-- A partition's interface to an external host in ERROR (R479). -/
def Partition.ideError (p : Partition) : Partition := if p.attached then { p with tdisp := .error } else p

/-- The record of a refused access (R430, R456). -/
def State.refusalRecord (s : State) (src target pid : Nat) (addr : DWord) (k : RecAddr) : State :=
  s.report [pid] { type := 7, aval := true, slice := src, addr := addr, info := BitVec.ofNat 64 target } k

/-- A refusal of the firewall: a record in the physical log and in the requester's queue, none for the target's partition; the requester's interface goes to ERROR (R430, R431, R456, R479). -/
def State.firewallRecord (s : State) (src target pid : Nat) (addr : DWord) (k : RecAddr) : State :=
  (s.modPartition pid Partition.ideError).refusalRecord src target pid addr k

/-! ### Errors of sectors, and lines in protected ways (R419, R458, R460) -/

/-- The store in which a sector's error stands, as TYPE 0x01 codes it (R456). -/
def GlobalMem.errCode (g : GlobalMem) (k : Nat) : Nat := (tget g.errAt k).getD 0

/-- An uncorrectable error detected: the sector is marked poisoned (R460). -/
def GlobalMem.detect (g : GlobalMem) (k : Nat) : GlobalMem :=
  if g.uncorr.contains k then { g with uncorr := ndrop g.uncorr (· == k), poison := ninsert g.poison k } else g

/-- A corrected error of a sector: written back, counted in CECNT of its home slice and logged (R458, R460). -/
def State.correctSector (s : State) (pid k : Nat) : State :=
  match tget s.partitions pid with
  | none => s
  | some p =>
    if !p.gm.corr.contains k then s
    else
      let sl := s.homeSlice pid (256 * k)
      let s := s.modPartition pid fun p => { p with gm := { p.gm with corr := ndrop p.gm.corr (· == k) } }
      let s := s.modSlice sl fun x => { x with cecnt := min (x.cecnt + 1) 0xFFFFFFFF }
      s.logRecord { type := 1, aval := true, slice := sl, addr := BitVec.ofNat 64 (256 * k), info := BitVec.ofNat 64 (p.gm.errCode k), pid := pid }

/-- A sector of global memory that the device reads for itself: its error is corrected, or detected and reported (R460). -/
def State.detectSector (s : State) (pid k : Nat) : State :=
  match tget s.partitions pid with
  | none => s
  | some p =>
    if !p.gm.uncorr.contains k then s.correctSector pid k
    else (s.modPartition pid fun p => { p with gm := p.gm.detect k }).report [pid] {
      type := 1, aval := true, slice := s.homeSlice pid (256 * k), addr := BitVec.ofNat 64 (256 * k), info := BitVec.ofNat 64 (p.gm.errCode k) } .global

/-- The sectors of a range of global memory that the device reads for itself (R460). -/
def State.detectGlobal (s : State) (pid a n : Nat) : State := (sectorsOf a n).foldl (fun s k => s.detectSector pid k) s

/-- A sector of a world's window filled into a protected way of a requesting slice: it leaves that way only in sealed form, so from now on every other
requester finds it sealed (R419, R420). -/
def State.fillProtected (s : State) (slice pid k : Nat) (opens : Option Seal) : State :=
  match opens with
  | none => s
  | some q =>
    if (s.slice slice).pways = 0 then s
    else
      let s := if (s.slice slice).plines.contains (k, q.handle) then s
        else s.modSlice slice fun x => { x with plines := x.plines ++ [(k, q.handle)] }
      s.modPartition pid fun p => if (tget p.gm.sealed k).isSome then p else { p with gm := { p.gm with sealed := tput p.gm.sealed k q } }

end Sys2Proof.Machine
end

