-- ==== Sys2Proof/Machine/Spaces.lean ====
section
/-! DEFINITION. The on-chip spaces: block scratchpad with its segment and channel, vaults as one core sees them, berths, translation, and the protected-world checks (R210, R228-R231, R239-R241, R258, R317, R415, R422). -/

namespace Sys2Proof.Machine

/-! ### Lookup and update of the state's tables -/

/-- The crew with an id. -/
def State.crew? (s : State) (k : Nat) : Option Crew := tget s.crews k

/-- The block with an id. -/
def State.block? (s : State) (k : Nat) : Option Block := tget s.blocks k

/-- The launch with an id. -/
def State.launch? (s : State) (k : Nat) : Option Launch := tget s.launches k

/-- A crew put. -/
def State.setCrew (s : State) (k : Nat) (c : Crew) : State := { s with crews := tput s.crews k c }

/-- A crew changed. -/
def State.modCrew (s : State) (k : Nat) (f : Crew → Crew) : State :=
  match tget s.crews k with
  | none => s
  | some c => { s with crews := tput s.crews k (f c) }

/-- A block changed. -/
def State.modBlock (s : State) (k : Nat) (f : Block → Block) : State :=
  match tget s.blocks k with
  | none => s
  | some b => { s with blocks := tput s.blocks k (f b) }

/-- A launch changed. -/
def State.modLaunch (s : State) (k : Nat) (f : Launch → Launch) : State :=
  match tget s.launches k with
  | none => s
  | some l => { s with launches := tput s.launches k (f l) }

/-- The crews of a block, by rising id. -/
def State.crewsOf (s : State) (bid : Nat) : List Crew :=
  (s.crews.filter fun p => p.2.block == bid).map (·.2)

/-- Whether the crew is a shadow (R463). -/
def Crew.isShadow (c : Crew) : Bool := match c.shadow with
  | some p => p.isShadow
  | none => false

/-- The group of a crew with an id. -/
def Crew.group? (c : Crew) (gid : Nat) : Option Group := c.groups.find? fun g => g.id == gid

/-- A group of a crew changed. -/
def Crew.modGroup (c : Crew) (gid : Nat) (f : Group → Group) : Crew :=
  { c with groups := c.groups.map fun g => if g.id == gid then f g else g }

/-- A group changed. -/
def State.modGroup (s : State) (cid gid : Nat) (f : Group → Group) : State :=
  s.modCrew cid fun c => c.modGroup gid f

/-- The side record of a block. -/
def Block.side (b : Block) (k : Nat) : Side := b.sides.getD k { core := 0 }

/-- A side of a block changed. -/
def Block.modSide (b : Block) (k : Nat) (f : Side → Side) : Block :=
  { b with sides := b.sides.modify k f }

/-- A side changed. -/
def State.modSide (s : State) (bid k : Nat) (f : Side → Side) : State := s.modBlock bid fun b => b.modSide k f

/-- Whether a block is a twin block. -/
def Block.isTwin (b : Block) : Bool := b.sides.length == 2

/-- The launch record of a launch id. -/
def State.recordOf (s : State) (lid : Nat) : Record := ((tget s.launches lid).map (·.record)).getD {}

/-- The partition of a launch id. -/
def State.pidOf (s : State) (lid : Nat) : Nat := ((tget s.launches lid).map (·.pid)).getD 0

/-- A fresh internal number. -/
def State.fresh (s : State) : Nat × State := (s.nextId, { s with nextId := s.nextId + 1 })

/-! ### Block scratchpad (R210, R229, R230) -/

/-- The first offset beyond the block's scratchpad: TS + P + CH. -/
def Block.spadSize (b : Block) : Nat := b.ts + b.p + b.ch

/-- Whether an offset lies in the template-store segment as stamped crews see it: copy-on-write (R228, R231). -/
def Block.inSegment (b : Block) (off : Nat) : Bool := !b.template && off < b.ts

/-- The shared copy of the launch's segment (R228). -/
def State.segmentOf (s : State) (lid : Nat) : Store :=
  match (tget s.launches lid).bind (·.image) with
  | some im => im.segment
  | none => {}

/-- The stage channel of a block on one of its sides (R209). -/
def State.channelOf (s : State) (b : Block) (side : Nat) : Store :=
  match tget s.stageGroups b.group with
  | none => {}
  | some g => (tget g.chan side).getD {}

/-- The store that holds a block-relative offset, in which the offset is its own key (R210, R229). -/
def State.spadStore (s : State) (b : Block) (side off : Nat) : Store :=
  if b.inSegment off && !(b.side side).copied.contains (off / 64) then s.segmentOf b.launch
  else if off < b.ts + b.p then (b.side side).spad
  else s.channelOf b side

/-- Bytes of a block's scratchpad. -/
def State.spadBytes (s : State) (b : Block) (side off : Nat) : Nat → List Byte
  | 0 => []
  | n + 1 => readByte (s.spadStore b side off).mem off :: s.spadBytes b side (off + 1) n

/-- Whether a range of a block's scratchpad touches a poisoned granule. -/
def State.spadPoisoned (s : State) (b : Block) (side off n : Nat) : Bool :=
  (granulesOf off n).any fun g => (s.spadStore b side (16 * g)).bad g

/-- Whether a valid sector check of the range does not match (R290). -/
def State.spadCheckBad (s : State) (b : Block) (side off n : Nat) : Bool :=
  (sectorsOf off n).any fun k => (s.spadStore b side (256 * k)).checkBad (256 * k) 1

/-- The 64-byte granules of the segment that the writes touch. -/
def Block.segGranules (b : Block) (ws : List (Nat × List Byte)) : List Nat :=
  ((ws.flatMap fun w => (List.range w.2.length).map fun i => (w.1 + i)).filter fun a => b.inSegment a).map (· / 64) |>.eraseDups

/-- The granule's 64 bytes copied from the shared copy with their marks, if the private copy does not yet exist (R230). -/
def Side.copyGranule (sd : Side) (seg : Store) (g : Nat) : Side :=
  if sd.copied.contains g then sd
  else { sd with
    copied := ninsert sd.copied g
    claimed := ndrop sd.claimed (· == g)
    spad := (sd.spad.setBytes (64 * g) (seg.bytes (64 * g) 64)).markPoison
      ((List.range 4).map (4 * g + ·) |>.filter seg.bad) }

/-- A change of the store of the region that holds an offset. -/
def State.modSpad (s : State) (bid side off : Nat) (f : Store → Store) : State :=
  match tget s.blocks bid with
  | none => s
  | some b =>
    if off < b.ts + b.p then s.modSide bid side fun sd => { sd with spad := f sd.spad }
    else match tget s.stageGroups b.group with
      | none => s
      | some g =>
        let g' := { g with chan := tput g.chan side (f ((tget g.chan side).getD {})) }
        { s with stageGroups := tput s.stageGroups b.group g' }

/-- The writes of one store word to a block's scratchpad, segment granules copied first (R230, R247, R252). -/
def State.spadWriteAll (s : State) (bid side : Nat) (ws : List (Nat × List Byte)) : State :=
  match tget s.blocks bid with
  | none => s
  | some b =>
    let seg := s.segmentOf b.launch
    let s := s.modSide bid side fun sd => (b.segGranules ws).foldl (fun sd g => sd.copyGranule seg g) sd
    let inner := ws.filter fun w => w.1 < b.ts + b.p
    let outer := ws.filter fun w => !(w.1 < b.ts + b.p)
    let s := if inner.isEmpty then s else s.modSpad bid side 0 fun st => st.writeAll inner
    if outer.isEmpty then s else s.modSpad bid side (b.ts + b.p) fun st => st.writeAll outer

/-- One write to a block's scratchpad. -/
def State.spadWrite (s : State) (bid side off : Nat) (bs : List Byte) : State :=
  if bs.isEmpty then s else s.spadWriteAll bid side [(off, bs)]

/-! ### Vault as a core sees it (R317) -/

/-- The bytes of a store laid over bytes read at a. -/
def overlayAt (a : Nat) (bs : List Byte) (w : Nat × List Byte) : List Byte :=
  bs.zipIdx.map fun (b, i) => if w.1 ≤ a + i && a + i < w.1 + w.2.length then w.2.getD (a + i - w.1) b else b

/-- The other core of a core's twin. -/
def mateCore (core : Nat) : Nat := if core % 2 = 0 then core + 1 else core - 1

/-- A store on its way put among others by the order in which they left the queues. -/
def insertPend (v : VaultPend) : List VaultPend → List VaultPend
  | [] => [v]
  | u :: us => if v.seq < u.seq then v :: u :: us else u :: insertPend v us

/-- The stores on their way to vault that the crews and engines of a core see, oldest first: the core's own, and those of twin blocks from the other
core of its twin (R316, R317). -/
def State.vaultView (s : State) (core : Nat) : List VaultPend :=
  ((s.core (mateCore core)).vaultPend.filter (·.twin)).foldl (fun us v => insertPend v us) (s.core core).vaultPend

/-- Whether a store on its way writes one of n bytes. -/
def VaultPend.meets (v : VaultPend) (a n : Nat) : Bool := v.writes.any fun w => w.1 < a + n && a < w.1 + w.2.length

/-- Whether two stores on their way write one byte. -/
def VaultPend.overlaps (u v : VaultPend) : Bool := u.writes.any fun w => v.meets w.1 w.2.length

/-- The bytes of vault SRAM as the crews of a core read them: the stores on their way that it sees are laid over, later ones last. -/
def State.vaultBytes (s : State) (core pa n : Nat) : List Byte :=
  ((s.vaultView core).flatMap (·.writes)).foldl (overlayAt pa) (s.vault.bytes pa n)

/-- The home vault's core of a package-wide vault address: 8 MB each (R239). -/
def vaultHome (pa : Nat) : Nat := pa / 0x800000

/-! ### Translation (R241, R288) -/

/-- Whether a 64-bit virtual address is a sign-extended 57-bit one (R240). -/
def canonicalVa (va : Nat) : Bool := va < 2 ^ 56 || 2 ^ 64 - 2 ^ 56 ≤ va && va < 2 ^ 64

/-- Whether a mapping is one that can be: vault pages are 64 KB or 2 MB (R241). -/
def Page.valid (g : Page) : Bool := !g.vault || g.size == 2 ^ 16 || g.size == 2 ^ 21

/-- The mapping of a virtual address; a mapping to global memory maps nothing outside the partition's space (R432). -/
def Partition.page? (p : Partition) (va : Nat) : Option Page :=
  if canonicalVa va then p.pages.find? fun g => g.valid && g.va ≤ va && va < g.va + g.size && (g.vault || g.pa + (va - g.va) < p.sg) else none

/-- Why a translation fails: no such mapping, or no write permission. -/
inductive XlateFail where
  | absent
  | readOnly
  deriving DecidableEq, Repr

/-- A vault address to a package-wide vault byte (R241). A page of a vault whose slice left the partition maps nothing for a crew (R430, log 46). -/
def State.xlateVault (s : State) (pid va : Nat) (write : Bool) : Except XlateFail Nat :=
  match (tget s.partitions pid).bind fun p => p.page? va with
  | none => .error .absent
  | some g =>
    if !g.vault || (s.slice (vaultSlice g.pa)).fwPid != pid then .error .absent
    else if write && !g.writable then .error .readOnly
    else .ok (g.pa + (va - g.va))

/-- A virtual address to a byte of global memory (false) or of vault (true) (R288). -/
def State.xlate (s : State) (pid va : Nat) (write : Bool) : Except XlateFail (Bool × Nat) :=
  match (tget s.partitions pid).bind fun p => p.page? va with
  | none => .error .absent
  | some g => if write && !g.writable then .error .readOnly else .ok (g.vault, g.pa + (va - g.va))

/-- The bytes of a global virtual range as the device reads them for itself (a launch record, a descriptor); none where it is not mapped to global memory. -/
def State.readVirtual (s : State) (pid va : Nat) : Nat → Option (List Byte)
  | 0 => some []
  | n + 1 =>
    match s.xlate pid va false with
    | .ok (false, pa) => (s.readVirtual pid (va + 1) n).map fun bs => (s.readGlobal pid pa 1) ++ bs
    | _ => none

/-- The errors that the device's own read of a global virtual range detects (R460). -/
def State.detectVirtual (s : State) (pid va n : Nat) : State :=
  (sectorsOf va n).foldl (fun s k => match s.xlate pid (max va (256 * k)) false with
    | .ok (false, pa) => s.detectSector pid (pa / 256)
    | _ => s) s

/-- Bytes that the device writes for itself at a global virtual address; none where a byte is not mapped writable to global memory. -/
def State.writeVirtual (s : State) (pid va : Nat) : List Byte → Option State
  | [] => some s
  | b :: bs =>
    match s.xlate pid va true with
    | .ok (false, pa) => (s.writeGlobal pid pa [b]).writeVirtual pid (va + 1) bs
    | _ => none

/-! ### Protected worlds (R414, R415, R422) -/

/-- Whether windows cover every byte from a up to an end, one after another. -/
def covers (ws : List (Nat × Nat)) : Nat → Nat → Nat → Bool
  | 0, a, e => e ≤ a
  | k + 1, a, e => e ≤ a || match ws.find? fun w => w.1 ≤ a && a < w.1 + w.2 with
    | none => false
    | some w => covers ws k (w.1 + w.2) e

/-- Whether every byte of a range lies in one of the windows. -/
def inWindows (ws : List (Nat × Nat)) (a n : Nat) : Bool := covers ws ws.length a (a + n)

/-- Whether a range meets one of the windows. -/
def meetsWindows (ws : List (Nat × Nat)) (a n : Nat) : Bool := ws.any fun w => w.1 < a + n && a < w.1 + w.2

/-- The live handle that a 32-bit value names (R411). -/
def State.handle? (s : State) (h : Word) : Option KeyHandle :=
  match tget s.harbour.handles (h.toNat % 4096) with
  | none => none
  | some k => if k.live && k.gen == h.toNat / 4096 && h ≠ 0 then some k else none

/-- The live handles of a partition other than the given one. -/
def State.otherHandles (s : State) (pid : Nat) (h : Word) : List KeyHandle :=
  (s.harbour.handles.filter fun p => p.2.live && p.2.pid == pid && !(p.1 == h.toNat % 4096 && h ≠ 0)).map (·.2)

/-- The on-chip vault ranges of the launch's DECLASS cargo entries for a block index (R415). -/
def declassVault (cargo : List CargoEnt) (beta : Nat) : List (Nat × Nat) :=
  (cargo.filter fun e => e.declass && e.vault).map fun e => ((e.laddr + BitVec.ofInt 64 ((beta : Int) * e.lstr)).toNat, e.bytes)

/-- The global ranges of the launch's DECLASS cargo entries for a block index (R415). -/
def declassGlobal (cargo : List CargoEnt) (beta : Nat) : List (Nat × Nat) :=
  (cargo.filter fun e => e.declass).map fun e => ((e.gaddr + BitVec.ofInt 64 ((beta : Int) * e.gstr)).toNat, e.bytes)

/-- Whether a write of a launch to a virtual range leaves its world: what of it lies outside the world's windows is not wholly in one of the given ranges (R415). -/
def State.worldLeft (s : State) (l : Launch) (declass : List (Nat × Nat)) (a n : Nat) : Bool :=
  let k := s.handle? l.record.key
  let ws := ((k.map (·.gwin)).getD []) ++ ((k.map (·.vwin)).getD [])
  l.record.key ≠ 0 && !(inWindows ws a n || declass.any fun d => inWindows (d :: ws) a n)

/-- The handle that a key slot gives (R411). -/
def handleWord (slot : Nat) (k : KeyHandle) : Word := BitVec.ofNat 32 (slot + k.gen * 4096)

/-- The seal of a key. -/
def sealOf (slot : Nat) (k : KeyHandle) : Seal := { handle := handleWord slot k, key := k.key }

/-- The seal under which a launch opens a global range: that of its own handle where the range lies in the handle's windows (R414, R419). -/
def State.ownSeal (s : State) (lid va n : Nat) : Option Seal :=
  let h := (s.recordOf lid).key
  ((s.handle? h).filter fun k => inWindows k.gwin va n).map fun k => { handle := h, key := k.key }

/-- The bytes of code at a global virtual range, as a launch fetches them, those of its world's windows opened (R421); none where it is not mapped to global memory. -/
def State.readProgram (s : State) (lid va : Nat) : Nat → Option (List Byte)
  | 0 => some []
  | n + 1 =>
    match s.xlate (s.pidOf lid) va false with
    | .ok (false, pa) => (s.readProgram lid (va + 1) n).map fun bs => (s.readSealed (s.pidOf lid) (s.ownSeal lid va 1) pa 1) ++ bs
    | _ => none

/-- The seal of the world that a launch is. -/
def State.worldSeal (s : State) (lid : Nat) : Option Seal :=
  let h := (s.recordOf lid).key
  (s.handle? h).map fun k => { handle := h, key := k.key }

/-- Bytes that the device writes at a global virtual address under a seal; none where a byte is not mapped writable to global memory. -/
def State.writeSealed (s : State) (pid : Nat) (q : Seal) (va : Nat) : List Byte → Option State
  | [] => some s
  | b :: bs =>
    match s.xlate pid va true with
    | .ok (false, pa) => (s.modPartition pid fun p => { p with gm := (p.gm.settleBehind pa 1).engWrite pa [b] (some q) false }).writeSealed pid q (va + 1) bs
    | _ => none

/-- Bytes of a launch that the device keeps in its context's save area, written: a world's are sealed (R424). -/
def State.writeSaved (s : State) (lid va : Nat) (bs : List Byte) : Option State :=
  match s.worldSeal lid with
  | none => s.writeVirtual (s.pidOf lid) va bs
  | some q => s.writeSealed (s.pidOf lid) q va bs

/-- Bytes of a launch that the device keeps in its context's save area, read: a world's are opened (R424). -/
def State.readSaved (s : State) (lid va : Nat) : Nat → Option (List Byte)
  | 0 => some []
  | n + 1 =>
    match s.xlate (s.pidOf lid) va false with
    | .ok (false, pa) => (s.readSaved lid (va + 1) n).map fun bs => (s.readSealed (s.pidOf lid) (s.worldSeal lid) pa 1) ++ bs
    | _ => none

/-- Whether the world rules forbid a launch's access to a vault range: another world's window (R422), or a write that would leave the world (R415). -/
def State.vaultWorldBad (s : State) (lid beta va n : Nat) (write : Bool) : Bool :=
  match tget s.launches lid with
  | none => false
  | some l =>
    (s.otherHandles l.pid l.record.key).any (fun k => meetsWindows k.vwin va n)
      || (write && s.worldLeft l (declassVault l.cargo beta) va n)

/-! ### Places of accesses -/

/-- Where an access falls once its berth side is known. -/
inductive Place where
  | spad (block side off : Nat)
  | vault (pa : Nat)
  deriving DecidableEq, Repr

/-- The visible side of an installation: as the core's entry holds it, or as it was when the entry was cleared or replaced (R258). -/
def State.visibleSide (s : State) (core install : Nat) : Bool :=
  match (s.core core).berths.find? fun p => p.2.install == install with
  | some p => p.2.visible
  | none => (tget (s.core core).berthGone install).getD false

/-- Where a crew's location falls now: a berth read takes the visible side, a berth write the hidden one (R258). -/
def State.placeOf (s : State) (c : Crew) (write : Bool) : Loc → Place
  | .spad off => .spad c.block c.side off
  | .vault pa => .vault pa
  | .berth install vault side0 side1 _ =>
    let a := if s.visibleSide c.core install != write then side1 else side0
    if vault then .vault a else .spad c.block c.side a

/-- The bytes at a place, as the crews of a core read them. -/
def State.placeBytes (s : State) (core : Nat) (pl : Place) (n : Nat) : List Byte :=
  match pl with
  | .vault pa => s.vaultBytes core pa n
  | .spad bid side off =>
    match tget s.blocks bid with
    | none => List.replicate n 0
    | some b => s.spadBytes b side off n

/-- Whether the place touches a poisoned granule (R252). -/
def State.placePoisoned (s : State) (pl : Place) (n : Nat) : Bool :=
  match pl with
  | .vault pa => s.vault.poisoned pa n
  | .spad bid side off =>
    match tget s.blocks bid with
    | none => false
    | some b => s.spadPoisoned b side off n

/-- Whether writes together cover a 16-byte granule. -/
def coversGranule (ws : List (Nat × List Byte)) (g : Nat) : Bool :=
  (List.range 16).all fun i => ws.any fun w => w.1 ≤ 16 * g + i && 16 * g + i < w.1 + w.2.length

/-- Whether a core reads poison at a place: a marked granule that no store word on its way covers whole (R252, R317). -/
def State.corePoisoned (s : State) (core : Nat) (pl : Place) (n : Nat) : Bool :=
  match pl with
  | .vault pa => (granulesOf pa n).any fun g => s.vault.bad g && !((s.vaultView core).any fun v => coversGranule v.writes g)
  | .spad _ _ _ => s.placePoisoned pl n

/-- Where a place starts in its store. -/
def Place.start : Place → Nat
  | .spad _ _ off => off
  | .vault pa => pa

/-- A place moved to another offset of its store. -/
def Place.moved (pl : Place) (a : Nat) : Place :=
  match pl with
  | .spad b k _ => .spad b k a
  | .vault _ => .vault a

/-! ### Vaults that are not the partition's (R430, R439) -/

/-- In which terms a place on the chip is named in a record: a byte of vault, or an offset of scratchpad. -/
def Place.space : Place → RecAddr
  | .spad _ _ _ => .plain
  | .vault _ => .vault

/-- Bytes whose contents the spec leaves undefined (log 5). -/
def State.freeBytes (s : State) (n : Nat) : List Byte × State :=
  ((List.range n).map fun i => Config.freeByte (s.freeCtr + i), { s with freeCtr := s.freeCtr + n })

/-- Whether the firewall of a place's slice refuses an access from a core for a partition: to a vault that was translated before its slice left (R430, R439). -/
def State.vaultRefused (s : State) (core pid : Nat) (pl : Place) : Bool :=
  match pl with
  | .vault pa => !s.firewallOk (core / 32) (vaultSlice pa) pid
  | .spad _ _ _ => false

/-- The refusal recorded (R430). -/
def State.refuseVault (s : State) (core pid : Nat) (pl : Place) : State :=
  s.firewallRecord (core / 32) (vaultSlice pl.start) pid (BitVec.ofNat 64 pl.start) pl.space

/-! ### Errors of on-chip storage (R460) -/

/-- The store that holds a place: vault, the shared copy of a segment, a block's own part, or a stage channel. -/
def State.placeStore (s : State) (pl : Place) : Store :=
  match pl with
  | .vault _ => s.vault
  | .spad bid side off =>
    match tget s.blocks bid with
    | none => {}
    | some b => s.spadStore b side off

/-- The store that holds a place changed. -/
def State.modPlaceStore (s : State) (pl : Place) (f : Store → Store) : State :=
  match pl with
  | .vault _ => { s with vault := f s.vault }
  | .spad bid side off =>
    match tget s.blocks bid with
    | none => s
    | some b =>
      if b.inSegment off && !(b.side side).copied.contains (off / 64) then
        match tget s.launches b.launch with
        | none => s
        | some l => { s with launches := tput s.launches b.launch { l with image := l.image.map fun im : Image => { im with segment := f im.segment } } }
      else s.modSpad bid side off f

/-- A granule's error in a store of a core reported: a corrected one is counted and logged, an uncorrectable one is recorded once, with the code of its store (R456, R460). -/
def State.reportGranule (s : State) (core pid lid : Nat) (st : Store) (g code : Nat) (at' : Option (Nat × RecAddr)) : State :=
  let l := tget s.launches lid
  let e : ErrRec := {
    type := 1, aval := at'.isSome, ctx := (l.map fun l : Launch => l.ctx).getD 0, launch := (l.map fun l : Launch => l.lid).getD 0
    addr := BitVec.ofNat 64 ((at'.map fun x => x.1).getD 0), info := BitVec.ofNat 64 code, slice := core / 32, core := core % 32 }
  let s := if !st.corr.contains g then s
    else (s.modSlice (core / 32) fun x => { x with cecnt := min (x.cecnt + 1) 0xFFFFFFFF }).logRecord { e with pid := pid }
  if st.uncorr.contains g then s.report [pid] e ((at'.map fun x => x.2).getD .plain) else s

/-- Errors in the granules that a core reads at a place are detected (R460). -/
def State.detect (s : State) (core pid lid : Nat) (pl : Place) (n : Nat) : State :=
  (granulesOf pl.start n).foldl (fun s g =>
    let q := pl.moved (16 * g)
    let st := s.placeStore q
    if !st.uncorr.contains g && !st.corr.contains g then s
    else
      let code := match pl with
        | .vault _ => 3
        | .spad _ _ _ => 4
      let owner := match pl with
        | .vault pa => pa / 2 ^ 23
        | .spad _ _ _ => core
      (s.modPlaceStore q fun st => st.detect g).reportGranule owner pid lid st g code (some (q.start, q.space))) s

/-- A write applied at the home of a place. -/
def State.placeWrite (s : State) (pl : Place) (bs : List Byte) : State :=
  match pl with
  | .vault pa => { s with vault := s.vault.write pa bs }
  | .spad bid side off => s.spadWrite bid side off bs

/-- Whether two byte ranges overlap. -/
def rangesMeet (a n b m : Nat) : Bool := a < b + m && b < a + n

/-! ### Addresses of memory words (R240, R245, R257) -/

/-- What the address checks of one lane find: the location, or the check of R245 that fails: 5 ALIGN, 6 BOUNDS, 7 PROT with its AUX. -/
inductive AddrCheck where
  | ok (l : Loc) (va : Nat)
  | align
  | bounds
  | prot (aux : Nat)
  deriving DecidableEq, Repr

/-- The partition and launch-wide facts that address checks need. -/
structure AddrEnv where
  pid : Nat
  lid : Nat
  block : Block
  core : Nat
  deriving DecidableEq, Repr

/-- The check of a vault range: translation (R241), write permission, and the world rules. -/
def State.vaultCheck (s : State) (e : AddrEnv) (va n : Nat) (write : Bool) : AddrCheck :=
  match s.xlateVault e.pid va false with
  | .error _ => .bounds
  | .ok pa =>
    match s.xlateVault e.pid va write with
    | .error _ => .prot 5
    | .ok _ => if s.vaultWorldBad e.lid e.block.beta va n write then .prot 3 else .ok (.vault pa) va

/-- The address checks of one lane's access of n bytes in the space SP (R240, R245, R257). -/
def State.addrCheck (s : State) (e : AddrEnv) (sp : BitVec 2) (a : DWord) (n : Nat) (write : Bool) : AddrCheck :=
  let x := a.toNat
  if x % n ≠ 0 then .align
  else match sp.toNat with
    | 0 => if x + n ≤ e.block.spadSize then .ok (.spad x) x else .bounds
    | 1 => s.vaultCheck e x n write
    | _ =>
      match tget (s.core e.core).berths (x / 2 ^ 60) with
      | none => .bounds
      | some b =>
        let off := x % 2 ^ 60
        if b.block ≠ e.block.id || b.size < off + n then .bounds
        else if b.vault then
          match s.vaultCheck e (b.base0.toNat + off) n write, s.vaultCheck e (b.base1.toNat + off) n write with
          | .ok (.vault p0) _, .ok (.vault p1) _ => .ok (.berth b.install true p0 p1 x) x
          | .ok _ _, r => r
          | r, _ => r
        else .ok (.berth b.install false (b.base0.toNat + off) (b.base1.toNat + off) x) x

end Sys2Proof.Machine
end

