-- ==== Sys2Proof/Machine/Ctx.lean ====
section
/-! DEFINITION. The context in which one word issues: its stream, crew, group, active lanes and the registers it reads (R14, R111), its operands (R26-R31), and operand-queue pops (R271). -/

namespace Sys2Proof.Machine

/-- What a word sees when it issues. -/
structure Ctx where
  ref : StreamRef
  cid : Nat
  crew : Crew
  grp : Group
  blk : Block
  /-- the registers as they stood before the word's chain group (R14) -/
  regs : CrewRegs
  /-- the fill count as it stood before the word's chain group -/
  fill : Nat
  /-- the operand queues that the word pops: as they stood before the chain group, its own pops taken (R14, R28) -/
  queues : Table StreamInst
  /-- the shape records of the crew's side as they stood before the chain group (R14) -/
  shapes : List DWord
  /-- the active lanes, ascending (R111) -/
  active : List Nat
  word : Word
  /-- the packet at which the group stands, as it was fetched (R11) -/
  code : List Word
  record : Record
  pid : Nat
  handler : Bool
  /-- the chain group was found ready: its waits are over (R14) -/
  ready : Bool

/-! ### Code (R9, R11) -/

/-- Whether a packet address is valid (R9). -/
def validPacket (p : DWord) : Bool := 12 * p.toNat + 11 < 2 ^ 56

/-- One word of code of a launch at a packet address; none where a byte is not mapped to global memory. -/
def State.fetchWord (s : State) (lid : Nat) (packet : DWord) (k : Nat) : Option Word :=
  match s.readProgram lid (12 * packet.toNat + 4 * k) 4 with
  | some [b0, b1, b2, b3] => some (wordOfBytes b0 b1 b2 b3)
  | _ => none

/-- The words of a packet; none where one of them is not mapped (R9). -/
def State.fetchPacket (s : State) (lid : Nat) (packet : DWord) : Option (List Word) :=
  match s.fetchWord lid packet 0, s.fetchWord lid packet 1, s.fetchWord lid packet 2 with
  | some a, some b, some c => some [a, b, c]
  | _, _, _ => none

/-- The packet at which a group stands: the one it has fetched and not left, or one fetched now. A packet is fetched whole, and where code is
modified it holds the contents of that moment; the spec leaves open which contents a fetch finds (R11, log 52). -/
def State.packetOf (s : State) (lid : Nat) (g : Group) : Option (List Word) :=
  match g.code with
  | some (p, ws) => if p == g.packet then some ws else s.fetchPacket lid g.packet
  | none => s.fetchPacket lid g.packet

/-- Whether a group runs in handler mode: it holds lanes of the interrupted group (R368). -/
def Crew.inHandler (c : Crew) (g : Group) : Bool :=
  match c.handler with
  | none => false
  | some h => h.gmask &&& g.lanes != 0

/-- Whether the supervisor handler runs in the group (R75). -/
def Crew.inSupervisor (c : Crew) (g : Group) : Bool :=
  c.inHandler g && match c.handler with
    | none => false
    | some h => h.supervisor

/-- The unexited lanes of a group, ascending. -/
def Crew.groupLanes (c : Crew) (g : Group) : List Nat :=
  (lanesOf c.width g.lanes).filter fun l => !(c.regs.lane l).exited

/-- The active lanes of a group's next word: unexited and admitted by every guard that covers it (R111, R125). -/
def Crew.activeLanes (c : Crew) (g : Group) : List Nat :=
  (c.groupLanes g).filter fun l => g.guards.all fun d => d.allow.getLsbD l

/-- The crew and group that a stream carries. -/
def State.carried (s : State) (r : StreamRef) : Option (Nat × Nat) := tget (s.core r.core).streams (2 * r.half + r.stream)

/-- The context of a given crew and group, as for a word that begins or continues its chain group. -/
def State.ctxOf (s : State) (r : StreamRef) (cid gid : Nat) (word : Word) : Option Ctx :=
  match tget s.crews cid with
  | none => none
  | some c =>
    match c.group? gid, tget s.blocks c.block with
    | some g, some b => some {
        ref := r, cid := cid, crew := c, grp := g, blk := b
        regs := g.snap.getD c.regs
        fill := if g.snap.isSome then g.snapFill else g.fill
        queues := if g.snap.isSome then g.snapQueues else c.streams
        shapes := if g.snap.isSome then g.snapShapes else (b.side c.side).shapes
        active := c.activeLanes g
        word := word
        code := (s.packetOf c.launch g).getD []
        record := s.recordOf c.launch
        pid := s.pidOf c.launch
        handler := c.inHandler g
        ready := g.snap.isSome }
    | _, _ => none

/-- The context of the group that the focus stream carries, for the instruction about to issue. -/
def State.ctx? (s : State) (i : Instr) : Option Ctx :=
  match s.focus with
  | none => none
  | some r =>
    match s.carried r with
    | none => none
    | some (cid, gid) => s.ctxOf r cid gid ((encode i).getD (match i with | .illegalOpcodeWord w => w | _ => 0))

/-- The address facts of the context's block. -/
def Ctx.env (c : Ctx) : AddrEnv := { pid := c.pid, lid := c.crew.launch, block := c.blk, core := c.crew.core }

/-- %tinfo: the word in bits 31:0, DETAIL in 39:32, AUX in 47:40 (R359). -/
def trapDetail (w : Word) (detail aux : Nat) : DWord :=
  BitVec.ofNat 64 (w.toNat + detail % 256 * 2 ^ 32 + aux % 256 * 2 ^ 40)

/-- The trap of the word with a cause, the failing lanes, %taddr, DETAIL and AUX (R359). -/
def Ctx.fail (c : Ctx) (cause : Cause) (mask : List Nat) (detail : Nat := 0) (aux : Nat := 0) (addr : DWord := 0) : TrapInfo :=
  { cause := cause, packet := c.grp.packet, word := c.grp.word, mask := maskOf mask, addr := addr
    info := trapDetail c.word detail aux, amask := maskOf c.active }

/-- What a word's issue comes to: it takes effect, it traps with no effect, or it does not issue yet. -/
inductive WordResult where
  | done (s : State)
  | trap (t : TrapInfo)
  | wait (w : Wait)

/-- The first of several checks that fails. -/
def firstTrap : List (Option TrapInfo) → Option TrapInfo
  | [] => none
  | some t :: _ => some t
  | none :: ts => firstTrap ts

/-- A check over lanes: the trap of a cause in every lane where f finds a failure, with DETAIL and AUX from the lowest of them. -/
def Ctx.laneCheck (c : Ctx) (cause : Cause) (lanes : List Nat) (f : Nat → Option (Nat × Nat)) : Option TrapInfo :=
  match lanes.filter fun l => (f l).isSome with
  | [] => none
  | l :: ls =>
    let d := (f l).getD (0, 0)
    some (c.fail cause (l :: ls) d.1 d.2)

/-! ### Scalars -/

/-- The scalar a 5-bit field names, as the word reads it (R31). -/
def Ctx.getS (c : Ctx) (f : BitVec 5) : RegVal := c.regs.getS c.handler f.toNat

/-- A scalar check: POISON for any of the operands, then TAG for any that p refuses (R57, R112). Fields are numbered from the given DETAIL. -/
def Ctx.scalarCheck (c : Ctx) (ops : List (Nat × RegVal × (Tag → Bool))) : Option TrapInfo :=
  match ops.find? fun o => o.2.1.tag == .poison with
  | some o => some (c.fail .poison c.active o.1)
  | none =>
    match ops.find? fun o => !o.2.2 o.2.1.tag with
    | some o => some (c.fail .tag c.active o.1 o.2.1.tag.code)
    | none => none

/-- A scalar check of a word whose operand A is an address: where that is the one found poisoned, %taddr holds it (R359). -/
def Ctx.addressCheck (c : Ctx) (ops : List (Nat × RegVal × (Tag → Bool))) : Option TrapInfo :=
  (c.scalarCheck ops).map fun t => match ops.find? fun o => o.2.1.tag == .poison with
    | some o => if o.1 = 2 then { t with addr := o.2.1.toAddress } else t
    | none => t

/-! ### Vector operands -/

/-- A source's value in a lane; none for a constant, a pop or an illegal code. -/
def Ctx.srcVal (c : Ctx) (l : Nat) : Src → Option RegVal
  | .q k => some ((c.regs.lane l).getQ k)
  | .v k => some ((c.regs.lane l).getV k)
  | .sh k => some (if c.handler then (c.regs.lane l).getH k else c.regs.getS false k)
  | .lane => some (mkVal .i32 l)
  | _ => none

/-- Whether an operand code is an illegal operand here: 0x3F, or a queue entry not yet filled in the run (R30, R45). -/
def Ctx.badSrc (c : Ctx) : Src → Bool
  | .illegal => true
  | .q k => c.fill < k
  | _ => false

/-- Whether a destination code is an illegal operand here (R29, R30). -/
def Ctx.badDst (c : Ctx) : Dst → Bool
  | .illegal => true
  | .h _ => !c.handler
  | _ => false

/-- The ILLOP check of operand fields in order: (DETAIL, illegal). -/
def Ctx.illopCheck (c : Ctx) (fields : List (Nat × Bool)) : Option TrapInfo :=
  match fields.find? fun f => f.2 with
  | some f => some (c.fail .illop c.active f.1)
  | none => none

/-! ### Loads and stream elements (R244, R270, R271) -/

/-- The value a load of a type and size delivers from its bytes (R244). -/
def extendLoad (ty : Tag) (size : Nat) (bs : List Byte) : RegVal :=
  let v := natOfBytes (bs.take (min size 8))
  match ty with
  | .i32 => mkVal .i32 (wrapTo 32 (signedOf (8 * size) v))
  | .i64 => mkVal .i64 (wrapTo 64 (signedOf (8 * min size 8) v))
  | t => mkVal t v

/-- The fields of a stream descriptor (R269). -/
structure StreamDesc where
  base : Nat
  tag : Tag
  size : Nat
  vault : Bool
  cnt0 : Nat
  cnt1 : Nat
  cnt2 : Nat
  str0 : Int
  str1 : Int
  str2 : Int
  lstr : Int
  deriving DecidableEq, Repr

/-- The fields of the 32 descriptor bytes (R269). -/
def streamDesc (d : List Byte) : StreamDesc :=
  let s32 (off : Nat) : Int := signedOf 32 (leAt d off 4)
  { base := leAt d 0 8, tag := Tag.ofCode (leAt d 8 1 % 16), size := 2 ^ (leAt d 9 1 % 4), vault := leAt d 9 1 / 4 % 2 == 1
    cnt0 := leAt d 10 2, cnt1 := leAt d 12 2, cnt2 := leAt d 14 2
    str0 := s32 16, str1 := s32 20, str2 := s32 24, lstr := s32 28 }

/-- The number of elements of a stream (R271). -/
def StreamDesc.total (d : StreamDesc) : Nat := d.cnt0 * max d.cnt1 1 * max d.cnt2 1

/-- The address of element n of a lane (R270). -/
def StreamDesc.addr (d : StreamDesc) (n lane : Nat) : DWord :=
  let i0 := n % d.cnt0
  let i1 := n / d.cnt0 % max d.cnt1 1
  let i2 := n / d.cnt0 / max d.cnt1 1
  BitVec.ofInt 64 ((d.base : Int) + i0 * d.str0 + i1 * d.str1 + i2 * d.str2 + lane * d.lstr)

/-- One element read from memory: its value, or the fault that its pop reports with its address (R271). -/
def State.streamElem (s : State) (e : AddrEnv) (c : Crew) (d : StreamDesc) (n lane : Nat) : RegVal × Option (Cause × DWord) :=
  let a := d.addr n lane
  match s.addrCheck e (if d.vault then 1 else 0) a d.size false with
  | .ok loc _ =>
    let pl := s.placeOf c false loc
    let v := extendLoad d.tag d.size (s.placeBytes c.core pl d.size)
    (if s.corePoisoned c.core pl d.size then { v with tag := .poison } else v, none)
  | .prot _ => ({}, some (.prot, a))
  | _ => ({}, some (.bounds, a))

/-- Errors in an element that is read are detected (R460). -/
def State.detectElem (s : State) (e : AddrEnv) (c : Crew) (d : StreamDesc) (n lane : Nat) : State :=
  match s.addrCheck e (if d.vault then 1 else 0) (d.addr n lane) d.size false with
  | .ok loc _ => s.detect c.core e.pid e.lid (s.placeOf c false loc) d.size
  | _ => s

/-- What one lane's pop gives: an element, a STREAM failure with its AUX, or the element's own fault. -/
inductive PopVal where
  | elem (v : RegVal)
  | stream (aux : Nat)
  | fault (cause : Cause) (addr : DWord)
  deriving DecidableEq, Repr

/-- The element at position n of a lane of an installed stream: the one fetched ahead, or one read now (R271). -/
def State.popElem (s : State) (e : AddrEnv) (c : Crew) (st : StreamInst) (lane : Nat) : PopVal :=
  let d := streamDesc st.desc
  let n := st.pos.getD lane 0
  if st.width ≤ lane then .stream 3
  else if d.total ≤ n then .stream 2
  else
    let r := match st.fetched.find? fun f => f.1 == lane && f.2.1 == n with
      | some f => f.2.2
      | none => s.streamElem e c d n lane
    match r.2 with
    | some f => .fault f.1 f.2
    | none => .elem r.1

/-- A stream with one lane's position advanced past an element. -/
def StreamInst.advance (st : StreamInst) (lane : Nat) : StreamInst :=
  let n := st.pos.getD lane 0
  { st with pos := st.pos.set lane (n + 1), fetched := st.fetched.filter fun f => !(f.1 == lane && f.2.1 == n) }

/-- The pops of one word in one lane, in operand order: values by operand position, and the streams after them (R28). -/
def State.popLane (s : State) (c : Ctx) (l : Nat) : List (Src × Nat) → Table StreamInst → List (Nat × PopVal) × Table StreamInst
  | [], t => ([], t)
  | (.pop k, i) :: rest, t =>
    match tget t k with
    | none =>
      let r := s.popLane c l rest t
      ((i, .stream 1) :: r.1, r.2)
    | some st =>
      let r := s.popLane c l rest (tput t k (st.advance l))
      ((i, s.popElem c.env c.crew st l) :: r.1, r.2)
  | _ :: rest, t => s.popLane c l rest t

/-- The pops of one word over its active lanes. -/
def State.popLanes (s : State) (c : Ctx) (srcs : List (Src × Nat)) :
    List Nat → Table StreamInst → List (Nat × List (Nat × PopVal)) × Table StreamInst
  | [], t => ([], t)
  | l :: ls, t =>
    let a := s.popLane c l srcs t
    let r := s.popLanes c srcs ls a.2
    ((l, a.1) :: r.1, r.2)

/-- The operand queues of a crew after pops: each lane stands as far as any pop has taken it; a queue that the cycle itself set or stopped stays as that left it (R14, R49). -/
def takenQueues (live popped : Table StreamInst) : Table StreamInst :=
  live.map fun e => (e.1, match tget popped e.1 with
    | some st => if st.setAt == e.2.setAt then { e.2 with
        pos := (e.2.pos.zip st.pos).map fun p => max p.1 p.2, fetched := e.2.fetched.filter st.fetched.contains } else e.2
    | none => e.2)

/-- The pops of a word take effect: in the crew's queues, and for the later words of its chain group (R28). -/
def State.takePops (s : State) (c : Ctx) (popped : Table StreamInst) : State :=
  (s.modCrew c.cid fun w => { w with streams := takenQueues w.streams popped }).modGroup c.cid c.grp.id fun g =>
    if g.snap.isSome then { g with snapQueues := popped } else g

/-- The operands of a word: per active lane their values in order, and the state after the pops. -/
structure Operands where
  vals : List (Nat × List RegVal)
  state : State

/-- The values of the sources in a lane, constants in the tag that R27 gives them. Where that would be the tag of a POISON value, which a word that goes on does not
read (R157), a constant is RAW (log 53). -/
def Ctx.laneVals (c : Ctx) (l : Nat) (srcs : List Src) (pops : List (Nat × PopVal)) : List RegVal :=
  let raw := srcs.zipIdx.map fun (x, i) => (x, match x with
    | .pop _ => (match tget pops i with
      | some (.elem v) => some v
      | _ => some {})
    | _ => c.srcVal l x)
  let t := constTag raw
  let t := if t == .poison then Tag.raw else t
  raw.map fun (x, v) => match v with
    | some v => v
    | none => if x == .one then constOne t else constZero t

/-- The first lane check that the pops fail: STREAM, then the fault of an element with its address (R271). -/
def Ctx.popTrap (c : Ctx) (srcs : List Src) (pops : List (Nat × List (Nat × PopVal))) : Option TrapInfo :=
  let queueOf (i : Nat) : Nat := match srcs.getD i .illegal with
    | .pop k => k
    | _ => 0
  let streamOf (l : Nat) : Option (Nat × Nat) :=
    ((tget pops l).getD []).findSome? fun (i, v) => match v with
      | .stream aux => some (queueOf i, aux)
      | _ => none
  let faultOf (want : Cause) (l : Nat) : Option DWord :=
    ((tget pops l).getD []).findSome? fun (_, v) => match v with
      | .fault cause a => if cause == want then some a else none
      | _ => none
  let one (want : Cause) : Option TrapInfo :=
    match c.active.filter fun l => (faultOf want l).isSome with
    | [] => none
    | l :: ls => some (c.fail want (l :: ls) 0 (if want == .prot then 3 else 0) ((faultOf want l).getD 0))
  firstTrap [c.laneCheck .stream c.active streamOf, one .bounds, one .prot]

/-- The shadow's part of a pair, as either crew finds it (R464). -/
def State.follower (s : State) (c : Crew) : Option ShadowPart :=
  c.shadow.bind fun p => (tget s.crews (if p.isShadow then c.id else p.partner)).bind fun d => d.shadow

/-- The shadow's part of a pair changed. -/
def State.modFollower (s : State) (c : Crew) (f : ShadowPart → ShadowPart) : State :=
  match c.shadow with
  | none => s
  | some p => s.modCrew (if p.isShadow then c.id else p.partner) fun d => { d with shadow := d.shadow.map f }

/-- The load-value queue of a pair (R464). -/
def State.lvq (s : State) (c : Crew) : List LvEnt := ((s.follower c).map fun p : ShadowPart => p.lvq).getD []

/-- The load-value queue of a pair changed. -/
def State.modLvq (s : State) (c : Crew) (f : List LvEnt → List LvEnt) : State := s.modFollower c fun q => { q with lvq := f q.lvq }

/-- A group took a step: a run begun, a chain group issued, a run left. A lead leaves it to its shadow, which takes the same steps in the same order (R463, log 12). -/
def State.trailStep (s : State) (c : Crew) (g : Group) : State :=
  s.modFollower c fun q => { q with trail := if c.isShadow then q.trail.drop 1 else q.trail ++ [g.lanes] }

/-- Whether a crew is no shadow, or the next step of its lead is one of this group. -/
def State.onTrail (s : State) (c : Crew) (g : Group) : Bool :=
  !c.isShadow || match ((s.follower c).map fun p : ShadowPart => p.trail).getD [] with
    | m :: _ => m &&& g.lanes != 0
    | [] => false

/-- Values that a lead receives at issue, recorded for its shadow (R464). -/
def State.recordLv (s : State) (c : Crew) (vals : List (Nat × RegVal × RegVal)) : State :=
  if c.isShadow then s else s.modLvq c fun q => q ++ [{ vals := vals }]

/-- The operands that codes name, in every active lane; pops take effect in the returned state only (R26-R28, R271): in every active lane, for BCAST
also in those whose B it does not read, a reading of R271 and R167 (log 18). A shadow takes its pops from the load-value queue (R464). -/
def Ctx.operands (c : Ctx) (s : State) (codes : List (BitVec 6)) : Except TrapInfo Operands :=
  let srcs := codes.map Src.ofCode
  let popIdx := (srcs.zipIdx.filter fun x => match x.1 with | .pop _ => true | _ => false).map (·.2)
  if popIdx.isEmpty then .ok { vals := c.active.map fun l => (l, c.laneVals l srcs []), state := s }
  else if c.crew.isShadow then
    let ents := s.lvq c.crew
    let pops (l : Nat) : List (Nat × PopVal) :=
      popIdx.zipIdx.map fun (i, j) => (i, .elem (((tget (ents.getD j {}).vals l).map (·.1)).getD {}))
    .ok {
      vals := c.active.map fun l => (l, c.laneVals l srcs (pops l))
      state := s.modLvq c.crew fun q => q.drop popIdx.length }
  else
    let r := s.popLanes c srcs.zipIdx c.active c.queues
    match c.popTrap srcs r.1 with
    | some t => .error t
    | none =>
      let valOf (i l : Nat) : RegVal := match tget ((tget r.1 l).getD []) i with
        | some (.elem v) => v
        | _ => {}
      let s1 := s.takePops c r.2
      .ok {
        vals := c.active.map fun l => (l, c.laneVals l srcs ((tget r.1 l).getD []))
        state := popIdx.foldl (fun s i => s.recordLv c.crew (c.active.map fun l => (l, valOf i l, {}))) s1 }

/-- The POISON check over the operands of every active lane; DETAIL names the field, counted from 2 for A (R57, R139). -/
def Ctx.poisonCheck (c : Ctx) (vals : List (Nat × List RegVal)) : Option TrapInfo :=
  c.laneCheck .poison c.active fun l =>
    match ((tget vals l).getD []).zipIdx.find? fun x => x.1.tag == .poison with
    | some x => some (x.2 + 2, Tag.poison.code)
    | none => none

/-- A TAG check over the operands of every active lane: f answers the failing field (2 for A) and the tag found there (R55, R139). -/
def Ctx.tagCheck (c : Ctx) (vals : List (Nat × List RegVal)) (f : List RegVal → Option (Nat × Tag)) : Option TrapInfo :=
  c.laneCheck .tag c.active fun l => (f ((tget vals l).getD [])).map fun x => (x.1, x.2.code)

end Sys2Proof.Machine
end

