-- ==== Sys2Proof/Machine/Landing.lean ====
section
/-! DEFINITION. Landings: their layout, their updates and the phase test (R242, R260-R262), and the copy-on-write budget of the segment (R230). -/

namespace Sys2Proof.Machine

/-- The fields of a landing (R260); rsv holds its reserved bits 31:30. -/
structure Landing where
  gen : Nat
  arr : Nat
  exp : Nat
  st : Nat
  rsv : Nat
  inb : Nat
  outb : Nat
  deriving DecidableEq, Repr

/-- The landing that 16 bytes hold (R260). -/
def Landing.ofBytes (bs : List Byte) : Landing :=
  let v := natOfBytes (bs.take 16)
  { gen := bitsAt v 0 4, arr := bitsAt v 4 12, exp := bitsAt v 16 12, st := bitsAt v 28 2, rsv := bitsAt v 30 2
    inb := bitsAt v 32 48, outb := bitsAt v 80 48 }

/-- Bits 31:0 of a landing. -/
def Landing.low (l : Landing) : Nat := l.gen + l.arr * 2 ^ 4 + l.exp * 2 ^ 16 + l.st * 2 ^ 28 + l.rsv * 2 ^ 30

/-- The 16 bytes of a landing (R260). -/
def Landing.bytes (l : Landing) : List Byte := bytesOfNat 16 (l.low + l.inb * 2 ^ 32 + l.outb * 2 ^ 80)

/-- The phase test after an update that lowers a count: when ARR, INB and OUTB are all zero the phase completes (R261). -/
def Landing.test (l : Landing) : Landing :=
  if l.arr = 0 && l.inb = 0 && l.outb = 0 then { l with gen := (l.gen + 1) % 16, arr := l.exp } else l

/-- A landing with fault status (R262). -/
def Landing.fault (l : Landing) : Landing := { l with st := 2 }

/-- One update of a landing (R261, R262, R264). -/
def Landing.update (l : Landing) : LandOp → Landing
  | .init e => { gen := 0, arr := e, exp := e, st := 0, rsv := 0, inb := 0, outb := 0 }
  | .expectIn n => if 2 ^ 48 ≤ l.inb + n then l.fault else { l with inb := l.inb + n }
  | .expectOut n => if 2 ^ 48 ≤ l.outb + n then l.fault else { l with outb := l.outb + n }
  | .arrive => if l.arr = 0 then l.fault else ({ l with arr := l.arr - 1 }).test
  | .countIn n => if l.inb < n then l.fault else ({ l with inb := l.inb - n }).test
  | .countOut n => if l.outb < n then l.fault else ({ l with outb := l.outb - n }).test
  | .status st => { l with st := st }

/-- The place of a landing's home. -/
def LandHome.place : LandHome → Place
  | .spad b side off => .spad b side off
  | .vault pa => .vault pa

/-- The bytes at the home of a place, without the stores that a core has on their way. -/
def State.homeBytes (s : State) (pl : Place) (n : Nat) : List Byte :=
  match pl with
  | .vault pa => s.vault.bytes pa n
  | .spad bid side off =>
    match tget s.blocks bid with
    | none => List.replicate n 0
    | some b => s.spadBytes b side off n

/-- The landing at a place. -/
def State.landingAt (s : State) (pl : Place) : Landing := Landing.ofBytes (s.homeBytes pl 16)

/-- An update applied to a landing at its home as one action (R261); a poisoned granule is changed by INIT only, which writes it whole (R252). -/
def State.applyLanding (s : State) (pl : Place) (op : LandOp) : State :=
  let keeps := match op with
    | .init _ => false
    | _ => s.placePoisoned pl 16
  if keeps then s else s.placeWrite pl ((s.landingAt pl).update op).bytes

/-- What a scalar that names a landing holds (R242): its space (true for vault) and its address, or the failing check. -/
inductive LandRef where
  | ok (vault : Bool) (addr : DWord)
  | tag
  | align
  deriving DecidableEq, Repr

/-- The landing reference of a scalar (R242). -/
def landRef (r : RegVal) : LandRef :=
  if !(r.tag == .i64 || r.tag == .n64) then .tag
  else if r.bits.toNat / 2 % 8 ≠ 0 then .align
  else .ok (r.bits.getLsbD 0) (BitVec.ofNat 64 (r.bits.toNat / 16 * 16))

/-- The address checks of a landing for a word of the crew (R263). -/
def State.landCheck (s : State) (e : AddrEnv) (vault : Bool) (a : DWord) (write : Bool) : AddrCheck :=
  s.addrCheck e (if vault then 1 else 0) a 16 write

/-! ### Copy-on-write budget (R230) -/

/-- The granules of the segment that writes at the given offsets and sizes would newly claim from the pool of a block's side. -/
def Block.newClaims (b : Block) (side : Nat) (ws : List (Nat × Nat)) : List Nat :=
  let sd := b.side side
  let gs := ((ws.flatMap fun w => (List.range w.2).map fun i => w.1 + i).filter b.inSegment).map (· / 64)
  gs.eraseDups.filter fun g => !sd.copied.contains g && !sd.claimed.contains g

/-- The scratchpad offsets and sizes among locations of n bytes each. -/
def spadRanges (ls : List Loc) (n : Nat) : List (Nat × Nat) :=
  ls.filterMap fun l => match l with
    | .spad off => some (off, n)
    | _ => none

/-- The claim of granules from the pool. -/
def State.claim (s : State) (bid side : Nat) (gs : List Nat) : State :=
  if gs.isEmpty then s
  else s.modSide bid side fun sd => { sd with claimed := gs.foldl ninsert sd.claimed, pool := sd.pool - gs.length }

end Sys2Proof.Machine
end

