-- ==== Sys2Proof/WellFormed.lean ====
section
/-! DEFINITION. Which instructions are well formed: the field values of R33, R35 and the group chapters that trap with cause ILLEGAL. An ill-formed word still decodes; it traps with ILLEGAL when it reaches issue. -/

namespace Sys2Proof

/-- SMOV's tag field (R116): 0, or 1tttt with a tag other than POISON. -/
def smovTagLegal (t : BitVec 5) : Bool := t == 0 || (16 ≤ t.toNat && t.toNat < 31)

/-- Whether a tag code names a packed 8-bit format: E4M3x8, E5M2x8, TT8x8, I8x8 (R52). -/
def isByteTag (t : BitVec 4) : Bool := 9 ≤ t.toNat && t.toNat ≤ 12

/-- VLI's type and immediate (R149): not POISON, and bits 14:8 zero for the 8-bit formats. -/
def vliLegal (t : BitVec 4) (i : BitVec 15) : Bool := t != 0xF && (!isByteTag t || i.toNat < 256)

/-- VCVT's target and mode (R154): no RAW, M64 or POISON target; no round-to-odd into an integer, I8x8, I16x4 or TT8x8. -/
def vcvtLegal (t : BitVec 4) (m : BitVec 2) : Bool :=
  t != 0 && t != 0xE && t != 0xF &&
    !(m == 3 && (t == 1 || t == 2 || t == 3 || t == 4 || t == 0xB || t == 0xC || t == 0xD))

/-- The MM fields SP, SZ, order and AM (R33). -/
def mmFieldsLegal (p : BitVec 2) (z : BitVec 3) (o m : BitVec 2) : Bool :=
  p != 3 && z.toNat ≤ 4 && o != 3 && m.toNat ≤ 1

/-- The legal pairs of type and size (R244); z is the SZ code, the size being 2^z bytes. -/
def typeSizeLegal (t : BitVec 4) (z : BitVec 3) : Bool :=
  match t.toNat with
  | 0 => z.toNat ≤ 4
  | 1 => z.toNat ≤ 2
  | 2 => z.toNat ≤ 2
  | 3 => z.toNat ≤ 3
  | 4 => z.toNat ≤ 3
  | 5 => z == 2
  | 6 => z == 3
  | 15 => false
  | _ => z == 3 || z == 4

/-- TCVT's target format and mode (R190): no E8S and no invalid code; no round-to-odd into TT8, I8, N8 or I32. -/
def tcvtLegal (f : BitVec 4) (m : BitVec 2) : Bool := f.toNat ≤ 9 && !(m == 3 && 6 ≤ f.toNat)

/-- The control register numbers that a chapter assigns (R68, R69, R75, R380). -/
def csrAssigned (r : BitVec 12) : Bool :=
  let n := r.toNat
  [0x000, 0x001, 0x002, 0x004, 0x005, 0x006, 0x008, 0x009, 0x00A, 0x00C, 0x010, 0x011, 0x012, 0x014, 0x015, 0x016,
   0x020, 0x021, 0x022, 0x024, 0x028, 0x030, 0x100, 0x101, 0x102, 0x104, 0x108, 0x10C,
   0x400, 0x401, 0x402, 0x403, 0x404, 0x405, 0x406, 0x800, 0x801, 0x802, 0x803].contains n

/-- Whether every field of an instruction holds a legal value. An event always does; the word that no group assigns never does. -/
def Instr.wellFormed : Instr → Bool
  | .nop _ => true
  | .trl _ _ _ _ => true
  | .grd _ _ _ _ => true
  | .waitc _ _ _ _ _ => true
  | .yield _ => true
  | .exit _ => true
  | .freeze _ l => l == 1 || l == 2
  | .setrl _ _ => true
  | .elect _ _ => true
  | .br _ _ => true
  | .brc _ k _ _ => k.toNat ≤ 5
  | .brp _ _ _ _ => true
  | .call _ _ => true
  | .jmpi _ _ => true
  | .ret _ => true
  | .jmpiL _ _ => true
  | .sadd _ _ _ _ => true
  | .ssub _ _ _ _ => true
  | .smul _ _ _ _ => true
  | .smulh _ _ _ _ => true
  | .smulhn _ _ _ _ => true
  | .sand _ _ _ _ => true
  | .sor _ _ _ _ => true
  | .sxor _ _ _ _ => true
  | .sshl _ _ _ _ => true
  | .sshr _ _ _ _ => true
  | .ssra _ _ _ _ => true
  | .smin _ _ _ _ => true
  | .smax _ _ _ _ => true
  | .sminn _ _ _ _ => true
  | .smaxn _ _ _ _ => true
  | .seq _ _ _ _ => true
  | .slt _ _ _ _ => true
  | .sltn _ _ _ _ => true
  | .smov _ _ _ t => smovTagLegal t
  | .saddi _ _ _ _ => true
  | .sandi _ _ _ _ => true
  | .sori _ _ _ _ => true
  | .sxori _ _ _ _ => true
  | .sshli _ _ _ _ => true
  | .sshri _ _ _ _ => true
  | .ssrai _ _ _ _ => true
  | .slti _ _ _ _ => true
  | .sli _ _ _ => true
  | .slih _ _ _ => true
  | .vadd _ _ _ _ => true
  | .vsub _ _ _ _ => true
  | .vmul _ _ _ _ => true
  | .vmulh _ _ _ _ => true
  | .vmulhn _ _ _ _ => true
  | .vand _ _ _ _ => true
  | .vor _ _ _ _ => true
  | .vxor _ _ _ _ => true
  | .vandn _ _ _ _ => true
  | .vshl _ _ _ _ => true
  | .vshr _ _ _ _ => true
  | .vsra _ _ _ _ => true
  | .vmin _ _ _ _ => true
  | .vmax _ _ _ _ => true
  | .vminn _ _ _ _ => true
  | .vmaxn _ _ _ _ => true
  | .vabs _ _ _ _ => true
  | .vneg _ _ _ _ => true
  | .vclz _ _ _ _ => true
  | .vpopc _ _ _ _ => true
  | .vadds _ _ _ _ => true
  | .vsubs _ _ _ _ => true
  | .vbfe _ _ _ _ => true
  | .vbfi _ _ _ _ => true
  | .vpack _ _ _ _ => true
  | .vunpk _ _ _ _ => true
  | .vadda _ _ _ _ => true
  | .vaddi _ _ _ _ => true
  | .vandi _ _ _ _ => true
  | .vori _ _ _ _ => true
  | .vxori _ _ _ _ => true
  | .vshli _ _ _ _ => true
  | .vshri _ _ _ _ => true
  | .vsrai _ _ _ _ => true
  | .vmuli _ _ _ _ => true
  | .vli _ _ t i => vliLegal t i
  | .fadd _ _ _ _ _ => true
  | .fsub _ _ _ _ _ => true
  | .fmul _ _ _ _ _ => true
  | .fdiv _ _ _ _ _ => true
  | .fsqrt _ _ _ _ _ => true
  | .fmin _ _ _ _ => true
  | .fmax _ _ _ _ => true
  | .fabs _ _ _ _ => true
  | .fneg _ _ _ _ => true
  | .fcopysign _ _ _ _ => true
  | .fminnum _ _ _ _ => true
  | .fmaxnum _ _ _ _ => true
  | .ffma _ _ _ _ _ _ => true
  | .ffman _ _ _ _ _ _ => true
  | .vimad _ _ _ _ _ _ => true
  | .frcp _ _ _ _ => true
  | .frsq _ _ _ _ => true
  | .fexp2 _ _ _ _ => true
  | .flog2 _ _ _ _ => true
  | .fsinpi _ _ _ _ => true
  | .fcospi _ _ _ _ => true
  | .ftanh _ _ _ _ => true
  | .vcvt _ _ _ _ t m _ => vcvtLegal t m
  | .vcmp _ _ _ _ m k => k.toNat ≤ 11 && m != 3
  | .vsel _ _ _ _ _ _ => true
  | .vdot _ _ _ _ _ _ => true
  | .pand _ _ _ _ => true
  | .por _ _ _ _ => true
  | .pxor _ _ _ _ => true
  | .pandn _ _ _ _ => true
  | .ptov _ _ => true
  | .vtop _ _ => true
  | .vtos _ _ _ => true
  | .stov _ _ _ => true
  | .vretag _ _ _ t => t != 0xF
  | .shfl _ _ _ _ _ _ => true
  | .shflup _ _ _ _ _ _ => true
  | .shfldn _ _ _ _ _ _ => true
  | .shflx _ _ _ _ _ _ => true
  | .bcast _ _ _ _ _ _ => true
  | .voteAny _ _ _ _ => true
  | .voteAll _ _ _ _ => true
  | .voteBal _ _ _ _ => true
  | .voteEq _ _ _ _ => true
  | .redadd _ _ _ _ => true
  | .redmin _ _ _ _ => true
  | .redmax _ _ _ _ => true
  | .redand _ _ _ _ => true
  | .redor _ _ _ _ => true
  | .redxor _ _ _ _ => true
  | .scanadd _ _ _ _ => true
  | .scanaddx _ _ _ _ => true
  | .xmatch _ _ _ _ => true
  | .ld _ _ _ p z t o m => mmFieldsLegal p z o m && typeSizeLegal t z
  | .st _ _ _ p z t o m => mmFieldsLegal p z o m && typeSizeLegal t z
  | .atom _ _ _ p z k o m => mmFieldsLegal p z o m && (z == 2 || z == 3) && k.toNat ≤ 10
  | .fence _ s => s.toNat ≤ 5
  | .publish _ _ _ => true
  | .berthSet _ _ _ => true
  | .berthClr _ _ => true
  | .ldt _ _ _ _ p => p != 3
  | .stt _ _ _ _ p => p != 3
  | .lndInit _ _ _ s => s.toNat ≤ 5
  | .lndExpectIn _ _ _ s => s.toNat ≤ 5
  | .lndExpectOut _ _ _ s => s.toNat ≤ 5
  | .lndArrive _ _ _ s => s.toNat ≤ 5
  | .lndWait _ _ _ s => s.toNat ≤ 5
  | .lndTest _ _ _ s => s.toNat ≤ 5
  | .strmSet _ _ _ => true
  | .strmStop _ _ => true
  | .fcopy _ _ _ b l => l == 1 || b == 0
  | .fgath _ _ _ b l => l == 1 || b == 0
  | .fscat _ _ _ b l => l == 1 || b == 0
  | .fatom _ _ _ b l => l == 1 || b == 0
  | .fput _ _ _ b l => l == 1 || b == 0
  | .fputs _ _ _ b l => l == 1 || b == 0
  | .fget _ _ _ b l => l == 1 || b == 0
  | .collAllred _ _ _ b l => l == 1 || b == 0
  | .collAllgath _ _ _ b l => l == 1 || b == 0
  | .collRedscat _ _ _ b l => l == 1 || b == 0
  | .collBcast _ _ _ b l => l == 1 || b == 0
  | .collCbar _ _ _ b l => l == 1 || b == 0
  | .nmc _ _ _ _ => true
  | .fpref _ _ _ _ => true
  | .fcancel _ _ _ => true
  | .mma _ _ _ _ _ m _ _ _ => m != 3
  | .movts _ _ _ => true
  | .movst _ _ _ => true
  | .accz _ _ => true
  | .mchk _ _ => true
  | .tcvt _ _ _ m f => tcvtLegal f m
  | .tzero _ _ => true
  | .accst _ _ _ b _ y q _ _ f t => t != 3 && f.toNat ≤ 5 && (q == 1 || y == 1 || t == 2 || b == 0)
  | .accld _ _ _ _ => true
  | .trap _ _ => true
  | .rteRetry _ => true
  | .rteCommit _ => true
  | .rteSkip _ => true
  | .brk _ _ => true
  | .csrr _ _ r => csrAssigned r
  | .csrw _ _ r => csrAssigned r
  | .csrs _ _ r => csrAssigned r
  | .csrc _ _ r => csrAssigned r
  | .launch _ _ _ _ => true
  | .issueOpportunity _ => true
  | .runEnd => true
  | .loadReturn _ _ => true
  | .storePerform _ => true
  | .vaultStoreHomeArrival _ _ => true
  | .atomHomeApply _ => true
  | .atomReplyReturn _ _ => true
  | .landingUpdateApply _ => true
  | .streamElementFetch _ _ _ => true
  | .tileOpStart _ _ => true
  | .mmaTwinEngage _ => true
  | .tileOpComplete _ _ => true
  | .engineTransferPart _ _ _ => true
  | .faultQueueRecordWrite _ _ => true
  | .fqResolveResume _ _ => true
  | .fqResolveUnresolvable _ _ => true
  | .engineCommandComplete _ _ => true
  | .fatomPerform _ _ => true
  | .nmcRun _ _ => true
  | .cbarArrival _ _ => true
  | .ticketedRequestArrival _ => true
  | .fabricAckReceive _ _ _ => true
  | .handlerEntry _ => true
  | .deferredTrapEntry _ => true
  | .rendezvousTimeout _ _ => true
  | .templateCrewCreate _ _ => true
  | .imageTake _ => true
  | .doorbellWrite _ _ _ _ => true
  | .recordAdmission _ _ => true
  | .blockAssign _ => true
  | .blockDispatch _ => true
  | .cargoStaging _ => true
  | .blockWriteback _ => true
  | .blockRetirement _ => true
  | .launchCompletion _ => true
  | .schedQdesc _ _ => true
  | .schedQstop _ _ => true
  | .balanceExchange _ => true
  | .quantumExpiry _ => true
  | .candidateReserve _ _ => true
  | .freezeSignal _ => true
  | .capture _ => true
  | .contextSave _ => true
  | .restore _ _ => true
  | .manifestReplayStep _ => true
  | .watchdog _ => true
  | .shadowCompare _ => true
  | .shadowTimeout _ => true
  | .sactKillBlock _ => true
  | .sactKillContext _ => true
  | .pwaysWrite _ _ => true
  | .pwaysChangeComplete _ => true
  | .registerWrite _ _ _ => true
  | .resizeMove _ => true
  | .interruptSourceEnable _ _ => true
  | .hostMemoryAccess _ => true
  | .pcieInboundWrite _ _ => true
  | .ideIntegrityFailure _ => true
  | .migrationCut _ => true
  | .flitSend _ => true
  | .keyInstall _ _ _ _ _ => true
  | .flitIdleReceive _ _ => true
  | .flitDataReceive _ _ => true
  | .flitOpenReceive _ _ => true
  | .flitMarkerReceive _ _ => true
  | .flitCutReceive _ _ => true
  | .flitAbortReceive _ _ => true
  | .linkRetrain _ => true
  | .linkLaneLoss _ _ => true
  | .dieBridgeFailure _ => true
  | .sliceTrip _ _ => true
  | .patrolRead _ _ => true
  | .hbmtest _ _ => true
  | .logread _ _ => true
  | .powerPstate _ => true
  | .powerGate _ => true
  | .fwstage _ => true
  | .fwactivate => true
  | .bind _ _ _ _ => true
  | .release _ _ => true
  | .portmode _ _ _ => true
  | .coldReset _ => true
  | .measurementRequest _ _ _ _ => true
  | .debugUnlock _ _ => true
  | .illegalOpcodeWord _ => false
  | .flitInvalidTypeReceive _ _ => true
  | .linkTrained _ _ _ => true
  | .spdmSessionEstablish _ _ _ _ => true
  | .spdmSessionEnd _ => true
  | .tdispRequest _ _ => true
  | .debugBlockResume _ _ => true
  | .mailboxInvalidCode _ _ _ => true
  | .contextCreate _ _ _ _ => true
  | .contextDestroy _ => true
  | .rosterEstablish _ _ _ => true
  | .ethernetFrameReceive _ _ => true

end Sys2Proof
end

