-- ==== Sys2Proof/Machine/Ready.lean ====
section
/-! DEFINITION. What the words have in common, one table each: what they read, whether they act once for the crew, where they push, and their part in shadow mode (R14, R43, R111, R173, R464). -/

namespace Sys2Proof.Machine

/-- The register that VBFI reads as its base (R146). -/
def baseReg (d : BitVec 6) : List Dst := match Dst.ofCode d with
  | .v k => [.v k]
  | .h k => [.h k]
  | _ => []

/-- The second register of a 16-byte store (R244). -/
def pairReg (d : BitVec 6) (z : BitVec 3) : List Dst := match Src.ofCode d with
  | .v k => if z == 4 then [.v (k + 1)] else []
  | _ => []

/-- A 16-byte load reads no second register; its inactive lanes copy only the even one (R44, R244). -/
def pairInactive (_ : BitVec 6) (_ : BitVec 3) : List Dst := []

/-- The register after the one that CAS names (R249). -/
def nextReg (d : BitVec 6) : List Dst := match Src.ofCode d with
  | .v k => [.v (k + 1)]
  | _ => []

/-- The scalar that a member-mask code reads: none for code 0 (R162). -/
def maskReg (m : BitVec 3) : List (BitVec 5) := if m == 0 then [] else [m.zeroExtend 5]

/-- The registers that a word reads, for the readiness of its chain group (R14, R25). -/
def needs : Instr → Needs
  | .nop _ => {}
  | .trl _ _ _ _ => {}
  | .grd _ _ _ _ => {}
  | .waitc _ _ _ _ _ => {}
  | .yield _ => {}
  | .exit _ => {}
  | .freeze _ _ => {}
  | .setrl _ _ => {}
  | .elect _ _ => {}
  | .br _ _ => {}
  | .brc _ _ a _ => { scal := [a] }
  | .brp _ _ _ _ => {}
  | .call _ _ => {}
  | .jmpi _ a => { vec := [a] }
  | .ret _ => { own := [.v 31] }
  | .jmpiL _ a => { vec := [a] }
  | .sadd _ _ a b => { scal := [a, b] }
  | .ssub _ _ a b => { scal := [a, b] }
  | .smul _ _ a b => { scal := [a, b] }
  | .smulh _ _ a b => { scal := [a, b] }
  | .smulhn _ _ a b => { scal := [a, b] }
  | .sand _ _ a b => { scal := [a, b] }
  | .sor _ _ a b => { scal := [a, b] }
  | .sxor _ _ a b => { scal := [a, b] }
  | .sshl _ _ a b => { scal := [a, b] }
  | .sshr _ _ a b => { scal := [a, b] }
  | .ssra _ _ a b => { scal := [a, b] }
  | .smin _ _ a b => { scal := [a, b] }
  | .smax _ _ a b => { scal := [a, b] }
  | .sminn _ _ a b => { scal := [a, b] }
  | .smaxn _ _ a b => { scal := [a, b] }
  | .seq _ _ a b => { scal := [a, b] }
  | .slt _ _ a b => { scal := [a, b] }
  | .sltn _ _ a b => { scal := [a, b] }
  | .smov _ _ a _ => { scal := [a] }
  | .saddi _ _ a _ => { scal := [a] }
  | .sandi _ _ a _ => { scal := [a] }
  | .sori _ _ a _ => { scal := [a] }
  | .sxori _ _ a _ => { scal := [a] }
  | .sshli _ _ a _ => { scal := [a] }
  | .sshri _ _ a _ => { scal := [a] }
  | .ssrai _ _ a _ => { scal := [a] }
  | .slti _ _ a _ => { scal := [a] }
  | .sli _ _ _ => {}
  | .slih _ d _ => { scal := [d] }
  | .vadd _ d a b => { vec := [a, b], dst := some d }
  | .vsub _ d a b => { vec := [a, b], dst := some d }
  | .vmul _ d a b => { vec := [a, b], dst := some d }
  | .vmulh _ d a b => { vec := [a, b], dst := some d }
  | .vmulhn _ d a b => { vec := [a, b], dst := some d }
  | .vand _ d a b => { vec := [a, b], dst := some d }
  | .vor _ d a b => { vec := [a, b], dst := some d }
  | .vxor _ d a b => { vec := [a, b], dst := some d }
  | .vandn _ d a b => { vec := [a, b], dst := some d }
  | .vshl _ d a b => { vec := [a, b], dst := some d }
  | .vshr _ d a b => { vec := [a, b], dst := some d }
  | .vsra _ d a b => { vec := [a, b], dst := some d }
  | .vmin _ d a b => { vec := [a, b], dst := some d }
  | .vmax _ d a b => { vec := [a, b], dst := some d }
  | .vminn _ d a b => { vec := [a, b], dst := some d }
  | .vmaxn _ d a b => { vec := [a, b], dst := some d }
  | .vabs _ d a _ => { vec := [a], dst := some d }
  | .vneg _ d a _ => { vec := [a], dst := some d }
  | .vclz _ d a _ => { vec := [a], dst := some d }
  | .vpopc _ d a _ => { vec := [a], dst := some d }
  | .vadds _ d a b => { vec := [a, b], dst := some d }
  | .vsubs _ d a b => { vec := [a, b], dst := some d }
  | .vbfe _ d a b => { vec := [a, b], dst := some d }
  | .vbfi _ d a b => { vec := [a, b], dst := some d, own := baseReg d }
  | .vpack _ d a b => { vec := [a, b], dst := some d }
  | .vunpk _ d a b => { vec := [a, b], dst := some d }
  | .vadda _ d a b => { vec := [a, b], dst := some d }
  | .vaddi _ d a _ => { vec := [a], dst := some d }
  | .vandi _ d a _ => { vec := [a], dst := some d }
  | .vori _ d a _ => { vec := [a], dst := some d }
  | .vxori _ d a _ => { vec := [a], dst := some d }
  | .vshli _ d a _ => { vec := [a], dst := some d }
  | .vshri _ d a _ => { vec := [a], dst := some d }
  | .vsrai _ d a _ => { vec := [a], dst := some d }
  | .vmuli _ d a _ => { vec := [a], dst := some d }
  | .vli _ d _ _ => { dst := some d }
  | .fadd _ d a b _ => { vec := [a, b], dst := some d }
  | .fsub _ d a b _ => { vec := [a, b], dst := some d }
  | .fmul _ d a b _ => { vec := [a, b], dst := some d }
  | .fdiv _ d a b _ => { vec := [a, b], dst := some d }
  | .fsqrt _ d a _ _ => { vec := [a], dst := some d }
  | .fmin _ d a b => { vec := [a, b], dst := some d }
  | .fmax _ d a b => { vec := [a, b], dst := some d }
  | .fabs _ d a _ => { vec := [a], dst := some d }
  | .fneg _ d a _ => { vec := [a], dst := some d }
  | .fcopysign _ d a b => { vec := [a, b], dst := some d }
  | .fminnum _ d a b => { vec := [a, b], dst := some d }
  | .fmaxnum _ d a b => { vec := [a, b], dst := some d }
  | .ffma _ d a b e _ => { vec := [a, b, e], dst := some d }
  | .ffman _ d a b e _ => { vec := [a, b, e], dst := some d }
  | .vimad _ d a b e _ => { vec := [a, b, e], dst := some d }
  | .frcp _ d a _ => { vec := [a], dst := some d }
  | .frsq _ d a _ => { vec := [a], dst := some d }
  | .fexp2 _ d a _ => { vec := [a], dst := some d }
  | .flog2 _ d a _ => { vec := [a], dst := some d }
  | .fsinpi _ d a _ => { vec := [a], dst := some d }
  | .fcospi _ d a _ => { vec := [a], dst := some d }
  | .ftanh _ d a _ => { vec := [a], dst := some d }
  | .vcvt _ d a _ _ _ _ => { vec := [a], dst := some d }
  | .vcmp _ _ a b _ _ => { vec := [a, b] }
  | .vsel _ d a b _ _ => { vec := [a, b], dst := some d }
  | .vdot _ d a b e _ => { vec := [a, b, e], dst := some d }
  | .pand _ _ _ _ => {}
  | .por _ _ _ _ => {}
  | .pxor _ _ _ _ => {}
  | .pandn _ _ _ _ => {}
  | .ptov _ d => { dst := some d }
  | .vtop _ a => { vec := [a] }
  | .vtos _ _ a => { vec := [a] }
  | .stov _ d s => { dst := some d, scal := [s] }
  | .vretag _ d a _ => { vec := [a], dst := some d }
  | .shfl _ d a b _ m => { vec := [a, b], dst := some d, scal := maskReg m }
  | .shflup _ d a b _ m => { vec := [a, b], dst := some d, scal := maskReg m }
  | .shfldn _ d a b _ m => { vec := [a, b], dst := some d, scal := maskReg m }
  | .shflx _ d a b _ m => { vec := [a, b], dst := some d, scal := maskReg m }
  | .bcast _ d a b _ m => { vec := [a, b], dst := some d, scal := maskReg m }
  | .voteAny _ d _ m => { dst := some d, scal := maskReg m }
  | .voteAll _ d _ m => { dst := some d, scal := maskReg m }
  | .voteBal _ d _ m => { dst := some d, scal := maskReg m }
  | .voteEq _ d _ m => { dst := some d, scal := maskReg m }
  | .redadd _ d a m => { vec := [a], dst := some d, scal := maskReg m }
  | .redmin _ d a m => { vec := [a], dst := some d, scal := maskReg m }
  | .redmax _ d a m => { vec := [a], dst := some d, scal := maskReg m }
  | .redand _ d a m => { vec := [a], dst := some d, scal := maskReg m }
  | .redor _ d a m => { vec := [a], dst := some d, scal := maskReg m }
  | .redxor _ d a m => { vec := [a], dst := some d, scal := maskReg m }
  | .scanadd _ d a m => { vec := [a], dst := some d, scal := maskReg m }
  | .scanaddx _ d a m => { vec := [a], dst := some d, scal := maskReg m }
  | .xmatch _ d a m => { vec := [a], dst := some d, scal := maskReg m }
  | .ld _ d a _ z _ _ _ => { vec := [a], dst := some d, own := pairInactive d z }
  | .st _ d a _ z _ _ _ => { vec := [a, d], own := pairReg d z }
  | .atom _ d a _ _ k _ _ => { vec := [a, d], dst := some d, own := if k == 10 then nextReg d else [] }
  | .fence _ _ => {}
  | .publish _ _ _ => {}
  | .berthSet _ _ a => { scal := [a] }
  | .berthClr _ _ => {}
  | .ldt _ _ a b _ => { scal := [a, b] }
  | .stt _ _ a b _ => { scal := [a, b] }
  | .lndInit _ a b _ => { scal := [a, b] }
  | .lndExpectIn _ a b _ => { scal := [a, b] }
  | .lndExpectOut _ a b _ => { scal := [a, b] }
  | .lndArrive _ _ a _ => { scal := [a] }
  | .lndWait _ a b _ => { scal := [a, b] }
  | .lndTest _ _ a _ => { scal := [a] }
  | .strmSet _ a _ => { scal := [a] }
  | .strmStop _ _ => {}
  | .fcopy _ _ a b l => { scal := if l == 1 then [a, b] else [a] }
  | .fgath _ _ a b l => { scal := if l == 1 then [a, b] else [a] }
  | .fscat _ _ a b l => { scal := if l == 1 then [a, b] else [a] }
  | .fatom _ _ a b l => { scal := if l == 1 then [a, b] else [a] }
  | .fput _ _ a b l => { scal := if l == 1 then [a, b] else [a] }
  | .fputs _ _ a b l => { scal := if l == 1 then [a, b] else [a] }
  | .fget _ _ a b l => { scal := if l == 1 then [a, b] else [a] }
  | .collAllred _ _ a b l => { scal := if l == 1 then [a, b] else [a] }
  | .collAllgath _ _ a b l => { scal := if l == 1 then [a, b] else [a] }
  | .collRedscat _ _ a b l => { scal := if l == 1 then [a, b] else [a] }
  | .collBcast _ _ a b l => { scal := if l == 1 then [a, b] else [a] }
  | .collCbar _ _ a b l => { scal := if l == 1 then [a, b] else [a] }
  | .nmc _ _ a b => { scal := [a, b] }
  | .fpref _ a b _ => { scal := [a, b] }
  | .fcancel _ _ a => { scal := [a] }
  | .mma _ _ _ _ _ _ _ _ _ => {}
  | .movts _ _ a => { scal := [a] }
  | .movst _ _ _ => {}
  | .accz _ a => { scal := [a] }
  | .mchk _ _ => {}
  | .tcvt _ _ _ _ _ => {}
  | .tzero _ _ => {}
  | .accst _ d a b _ y q _ _ _ t => { scal := if q == 1 || y == 1 || t == 2 then [d, a, b] else [d, a] }
  | .accld _ d a _ => { scal := [d, a] }
  | .trap _ _ => {}
  | .rteRetry _ => {}
  | .rteCommit _ => {}
  | .rteSkip _ => {}
  | .brk _ _ => {}
  | .csrr _ _ _ => {}
  | .csrw _ a _ => { scal := [a] }
  | .csrs _ a _ => { scal := [a] }
  | .csrc _ a _ => { scal := [a] }
  | .launch _ _ a b => { scal := [a, b] }
  | .issueOpportunity _ => {}
  | .runEnd => {}
  | .loadReturn _ _ => {}
  | .storePerform _ => {}
  | .vaultStoreHomeArrival _ _ => {}
  | .atomHomeApply _ => {}
  | .atomReplyReturn _ _ => {}
  | .landingUpdateApply _ => {}
  | .streamElementFetch _ _ _ => {}
  | .tileOpStart _ _ => {}
  | .mmaTwinEngage _ => {}
  | .tileOpComplete _ _ => {}
  | .engineTransferPart _ _ _ => {}
  | .faultQueueRecordWrite _ _ => {}
  | .fqResolveResume _ _ => {}
  | .fqResolveUnresolvable _ _ => {}
  | .engineCommandComplete _ _ => {}
  | .fatomPerform _ _ => {}
  | .nmcRun _ _ => {}
  | .cbarArrival _ _ => {}
  | .ticketedRequestArrival _ => {}
  | .fabricAckReceive _ _ _ => {}
  | .handlerEntry _ => {}
  | .deferredTrapEntry _ => {}
  | .rendezvousTimeout _ _ => {}
  | .templateCrewCreate _ _ => {}
  | .imageTake _ => {}
  | .doorbellWrite _ _ _ _ => {}
  | .recordAdmission _ _ => {}
  | .blockAssign _ => {}
  | .blockDispatch _ => {}
  | .cargoStaging _ => {}
  | .blockWriteback _ => {}
  | .blockRetirement _ => {}
  | .launchCompletion _ => {}
  | .schedQdesc _ _ => {}
  | .schedQstop _ _ => {}
  | .balanceExchange _ => {}
  | .quantumExpiry _ => {}
  | .candidateReserve _ _ => {}
  | .freezeSignal _ => {}
  | .capture _ => {}
  | .contextSave _ => {}
  | .restore _ _ => {}
  | .manifestReplayStep _ => {}
  | .watchdog _ => {}
  | .shadowCompare _ => {}
  | .shadowTimeout _ => {}
  | .sactKillBlock _ => {}
  | .sactKillContext _ => {}
  | .pwaysWrite _ _ => {}
  | .pwaysChangeComplete _ => {}
  | .registerWrite _ _ _ => {}
  | .resizeMove _ => {}
  | .interruptSourceEnable _ _ => {}
  | .hostMemoryAccess _ => {}
  | .pcieInboundWrite _ _ => {}
  | .ideIntegrityFailure _ => {}
  | .migrationCut _ => {}
  | .flitSend _ => {}
  | .keyInstall _ _ _ _ _ => {}
  | .flitIdleReceive _ _ => {}
  | .flitDataReceive _ _ => {}
  | .flitOpenReceive _ _ => {}
  | .flitMarkerReceive _ _ => {}
  | .flitCutReceive _ _ => {}
  | .flitAbortReceive _ _ => {}
  | .linkRetrain _ => {}
  | .linkLaneLoss _ _ => {}
  | .dieBridgeFailure _ => {}
  | .sliceTrip _ _ => {}
  | .patrolRead _ _ => {}
  | .hbmtest _ _ => {}
  | .logread _ _ => {}
  | .powerPstate _ => {}
  | .powerGate _ => {}
  | .fwstage _ => {}
  | .fwactivate => {}
  | .bind _ _ _ _ => {}
  | .release _ _ => {}
  | .portmode _ _ _ => {}
  | .coldReset _ => {}
  | .measurementRequest _ _ _ _ => {}
  | .debugUnlock _ _ => {}
  | .illegalOpcodeWord _ => {}
  | .flitInvalidTypeReceive _ _ => {}
  | .linkTrained _ _ _ => {}
  | .spdmSessionEstablish _ _ _ _ => {}
  | .spdmSessionEnd _ => {}
  | .tdispRequest _ _ => {}
  | .debugBlockResume _ _ => {}
  | .mailboxInvalidCode _ _ _ => {}
  | .contextCreate _ _ _ _ => {}
  | .contextDestroy _ => {}
  | .rosterEstablish _ _ _ => {}
  | .ethernetFrameReceive _ _ => {}

/-- The crew-uniform words: they act once for the crew, and not at all with no active lane (R111, R173, R253, R263, R268, R281, R345, R374, R377). -/
def uniform : Instr → Bool
  | .nop _ => false
  | .trl _ _ _ _ => false
  | .grd _ _ _ _ => false
  | .waitc _ _ _ _ _ => true
  | .yield _ => true
  | .exit _ => false
  | .freeze _ _ => false
  | .setrl _ _ => true
  | .elect _ _ => false
  | .br _ _ => false
  | .brc _ _ _ _ => false
  | .brp _ _ _ _ => false
  | .call _ _ => false
  | .jmpi _ _ => false
  | .ret _ => false
  | .jmpiL _ _ => false
  | .sadd _ _ _ _ => true
  | .ssub _ _ _ _ => true
  | .smul _ _ _ _ => true
  | .smulh _ _ _ _ => true
  | .smulhn _ _ _ _ => true
  | .sand _ _ _ _ => true
  | .sor _ _ _ _ => true
  | .sxor _ _ _ _ => true
  | .sshl _ _ _ _ => true
  | .sshr _ _ _ _ => true
  | .ssra _ _ _ _ => true
  | .smin _ _ _ _ => true
  | .smax _ _ _ _ => true
  | .sminn _ _ _ _ => true
  | .smaxn _ _ _ _ => true
  | .seq _ _ _ _ => true
  | .slt _ _ _ _ => true
  | .sltn _ _ _ _ => true
  | .smov _ _ _ _ => true
  | .saddi _ _ _ _ => true
  | .sandi _ _ _ _ => true
  | .sori _ _ _ _ => true
  | .sxori _ _ _ _ => true
  | .sshli _ _ _ _ => true
  | .sshri _ _ _ _ => true
  | .ssrai _ _ _ _ => true
  | .slti _ _ _ _ => true
  | .sli _ _ _ => true
  | .slih _ _ _ => true
  | .vadd _ _ _ _ => false
  | .vsub _ _ _ _ => false
  | .vmul _ _ _ _ => false
  | .vmulh _ _ _ _ => false
  | .vmulhn _ _ _ _ => false
  | .vand _ _ _ _ => false
  | .vor _ _ _ _ => false
  | .vxor _ _ _ _ => false
  | .vandn _ _ _ _ => false
  | .vshl _ _ _ _ => false
  | .vshr _ _ _ _ => false
  | .vsra _ _ _ _ => false
  | .vmin _ _ _ _ => false
  | .vmax _ _ _ _ => false
  | .vminn _ _ _ _ => false
  | .vmaxn _ _ _ _ => false
  | .vabs _ _ _ _ => false
  | .vneg _ _ _ _ => false
  | .vclz _ _ _ _ => false
  | .vpopc _ _ _ _ => false
  | .vadds _ _ _ _ => false
  | .vsubs _ _ _ _ => false
  | .vbfe _ _ _ _ => false
  | .vbfi _ _ _ _ => false
  | .vpack _ _ _ _ => false
  | .vunpk _ _ _ _ => false
  | .vadda _ _ _ _ => false
  | .vaddi _ _ _ _ => false
  | .vandi _ _ _ _ => false
  | .vori _ _ _ _ => false
  | .vxori _ _ _ _ => false
  | .vshli _ _ _ _ => false
  | .vshri _ _ _ _ => false
  | .vsrai _ _ _ _ => false
  | .vmuli _ _ _ _ => false
  | .vli _ _ _ _ => false
  | .fadd _ _ _ _ _ => false
  | .fsub _ _ _ _ _ => false
  | .fmul _ _ _ _ _ => false
  | .fdiv _ _ _ _ _ => false
  | .fsqrt _ _ _ _ _ => false
  | .fmin _ _ _ _ => false
  | .fmax _ _ _ _ => false
  | .fabs _ _ _ _ => false
  | .fneg _ _ _ _ => false
  | .fcopysign _ _ _ _ => false
  | .fminnum _ _ _ _ => false
  | .fmaxnum _ _ _ _ => false
  | .ffma _ _ _ _ _ _ => false
  | .ffman _ _ _ _ _ _ => false
  | .vimad _ _ _ _ _ _ => false
  | .frcp _ _ _ _ => false
  | .frsq _ _ _ _ => false
  | .fexp2 _ _ _ _ => false
  | .flog2 _ _ _ _ => false
  | .fsinpi _ _ _ _ => false
  | .fcospi _ _ _ _ => false
  | .ftanh _ _ _ _ => false
  | .vcvt _ _ _ _ _ _ _ => false
  | .vcmp _ _ _ _ _ _ => false
  | .vsel _ _ _ _ _ _ => false
  | .vdot _ _ _ _ _ _ => false
  | .pand _ _ _ _ => false
  | .por _ _ _ _ => false
  | .pxor _ _ _ _ => false
  | .pandn _ _ _ _ => false
  | .ptov _ _ => false
  | .vtop _ _ => false
  | .vtos _ _ _ => false
  | .stov _ _ _ => false
  | .vretag _ _ _ _ => false
  | .shfl _ _ _ _ _ _ => false
  | .shflup _ _ _ _ _ _ => false
  | .shfldn _ _ _ _ _ _ => false
  | .shflx _ _ _ _ _ _ => false
  | .bcast _ _ _ _ _ _ => false
  | .voteAny _ _ _ _ => false
  | .voteAll _ _ _ _ => false
  | .voteBal _ _ _ _ => false
  | .voteEq _ _ _ _ => false
  | .redadd _ _ _ _ => false
  | .redmin _ _ _ _ => false
  | .redmax _ _ _ _ => false
  | .redand _ _ _ _ => false
  | .redor _ _ _ _ => false
  | .redxor _ _ _ _ => false
  | .scanadd _ _ _ _ => false
  | .scanaddx _ _ _ _ => false
  | .xmatch _ _ _ _ => false
  | .ld _ _ _ _ _ _ _ _ => false
  | .st _ _ _ _ _ _ _ _ => false
  | .atom _ _ _ _ _ _ _ _ => false
  | .fence _ _ => true
  | .publish _ _ _ => true
  | .berthSet _ _ _ => true
  | .berthClr _ _ => true
  | .ldt _ _ _ _ _ => true
  | .stt _ _ _ _ _ => true
  | .lndInit _ _ _ _ => true
  | .lndExpectIn _ _ _ _ => true
  | .lndExpectOut _ _ _ _ => true
  | .lndArrive _ _ _ _ => true
  | .lndWait _ _ _ _ => true
  | .lndTest _ _ _ _ => true
  | .strmSet _ _ _ => true
  | .strmStop _ _ => true
  | .fcopy _ _ _ _ _ => true
  | .fgath _ _ _ _ _ => true
  | .fscat _ _ _ _ _ => true
  | .fatom _ _ _ _ _ => true
  | .fput _ _ _ _ _ => true
  | .fputs _ _ _ _ _ => true
  | .fget _ _ _ _ _ => true
  | .collAllred _ _ _ _ _ => true
  | .collAllgath _ _ _ _ _ => true
  | .collRedscat _ _ _ _ _ => true
  | .collBcast _ _ _ _ _ => true
  | .collCbar _ _ _ _ _ => true
  | .nmc _ _ _ _ => true
  | .fpref _ _ _ _ => true
  | .fcancel _ _ _ => true
  | .mma _ _ _ _ _ _ _ _ _ => true
  | .movts _ _ _ => true
  | .movst _ _ _ => true
  | .accz _ _ => true
  | .mchk _ _ => true
  | .tcvt _ _ _ _ _ => true
  | .tzero _ _ => true
  | .accst _ _ _ _ _ _ _ _ _ _ _ => true
  | .accld _ _ _ _ => true
  | .trap _ _ => true
  | .rteRetry _ => false
  | .rteCommit _ => false
  | .rteSkip _ => false
  | .brk _ _ => true
  | .csrr _ _ _ => true
  | .csrw _ _ _ => true
  | .csrs _ _ _ => true
  | .csrc _ _ _ => true
  | .launch _ _ _ _ => true
  | .issueOpportunity _ => false
  | .runEnd => false
  | .loadReturn _ _ => false
  | .storePerform _ => false
  | .vaultStoreHomeArrival _ _ => false
  | .atomHomeApply _ => false
  | .atomReplyReturn _ _ => false
  | .landingUpdateApply _ => false
  | .streamElementFetch _ _ _ => false
  | .tileOpStart _ _ => false
  | .mmaTwinEngage _ => false
  | .tileOpComplete _ _ => false
  | .engineTransferPart _ _ _ => false
  | .faultQueueRecordWrite _ _ => false
  | .fqResolveResume _ _ => false
  | .fqResolveUnresolvable _ _ => false
  | .engineCommandComplete _ _ => false
  | .fatomPerform _ _ => false
  | .nmcRun _ _ => false
  | .cbarArrival _ _ => false
  | .ticketedRequestArrival _ => false
  | .fabricAckReceive _ _ _ => false
  | .handlerEntry _ => false
  | .deferredTrapEntry _ => false
  | .rendezvousTimeout _ _ => false
  | .templateCrewCreate _ _ => false
  | .imageTake _ => false
  | .doorbellWrite _ _ _ _ => false
  | .recordAdmission _ _ => false
  | .blockAssign _ => false
  | .blockDispatch _ => false
  | .cargoStaging _ => false
  | .blockWriteback _ => false
  | .blockRetirement _ => false
  | .launchCompletion _ => false
  | .schedQdesc _ _ => false
  | .schedQstop _ _ => false
  | .balanceExchange _ => false
  | .quantumExpiry _ => false
  | .candidateReserve _ _ => false
  | .freezeSignal _ => false
  | .capture _ => false
  | .contextSave _ => false
  | .restore _ _ => false
  | .manifestReplayStep _ => false
  | .watchdog _ => false
  | .shadowCompare _ => false
  | .shadowTimeout _ => false
  | .sactKillBlock _ => false
  | .sactKillContext _ => false
  | .pwaysWrite _ _ => false
  | .pwaysChangeComplete _ => false
  | .registerWrite _ _ _ => false
  | .resizeMove _ => false
  | .interruptSourceEnable _ _ => false
  | .hostMemoryAccess _ => false
  | .pcieInboundWrite _ _ => false
  | .ideIntegrityFailure _ => false
  | .migrationCut _ => false
  | .flitSend _ => false
  | .keyInstall _ _ _ _ _ => false
  | .flitIdleReceive _ _ => false
  | .flitDataReceive _ _ => false
  | .flitOpenReceive _ _ => false
  | .flitMarkerReceive _ _ => false
  | .flitCutReceive _ _ => false
  | .flitAbortReceive _ _ => false
  | .linkRetrain _ => false
  | .linkLaneLoss _ _ => false
  | .dieBridgeFailure _ => false
  | .sliceTrip _ _ => false
  | .patrolRead _ _ => false
  | .hbmtest _ _ => false
  | .logread _ _ => false
  | .powerPstate _ => false
  | .powerGate _ => false
  | .fwstage _ => false
  | .fwactivate => false
  | .bind _ _ _ _ => false
  | .release _ _ => false
  | .portmode _ _ _ => false
  | .coldReset _ => false
  | .measurementRequest _ _ _ _ => false
  | .debugUnlock _ _ => false
  | .illegalOpcodeWord _ => false
  | .flitInvalidTypeReceive _ _ => false
  | .linkTrained _ _ _ => false
  | .spdmSessionEstablish _ _ _ _ => false
  | .spdmSessionEnd _ => false
  | .tdispRequest _ _ => false
  | .debugBlockResume _ _ => false
  | .mailboxInvalidCode _ _ _ => false
  | .contextCreate _ _ _ _ => false
  | .contextDestroy _ => false
  | .rosterEstablish _ _ _ => false
  | .ethernetFrameReceive _ _ => false

/-- The words that push, with their destination specifier (R43, R46). -/
def pushes : Instr → Option (BitVec 6)
  | .nop _ => none
  | .trl _ _ _ _ => none
  | .grd _ _ _ _ => none
  | .waitc _ _ _ _ _ => none
  | .yield _ => none
  | .exit _ => none
  | .freeze _ _ => none
  | .setrl _ _ => none
  | .elect _ _ => none
  | .br _ _ => none
  | .brc _ _ _ _ => none
  | .brp _ _ _ _ => none
  | .call _ _ => none
  | .jmpi _ _ => none
  | .ret _ => none
  | .jmpiL _ _ => none
  | .sadd _ _ _ _ => none
  | .ssub _ _ _ _ => none
  | .smul _ _ _ _ => none
  | .smulh _ _ _ _ => none
  | .smulhn _ _ _ _ => none
  | .sand _ _ _ _ => none
  | .sor _ _ _ _ => none
  | .sxor _ _ _ _ => none
  | .sshl _ _ _ _ => none
  | .sshr _ _ _ _ => none
  | .ssra _ _ _ _ => none
  | .smin _ _ _ _ => none
  | .smax _ _ _ _ => none
  | .sminn _ _ _ _ => none
  | .smaxn _ _ _ _ => none
  | .seq _ _ _ _ => none
  | .slt _ _ _ _ => none
  | .sltn _ _ _ _ => none
  | .smov _ _ _ _ => none
  | .saddi _ _ _ _ => none
  | .sandi _ _ _ _ => none
  | .sori _ _ _ _ => none
  | .sxori _ _ _ _ => none
  | .sshli _ _ _ _ => none
  | .sshri _ _ _ _ => none
  | .ssrai _ _ _ _ => none
  | .slti _ _ _ _ => none
  | .sli _ _ _ => none
  | .slih _ _ _ => none
  | .vadd _ d _ _ => some d
  | .vsub _ d _ _ => some d
  | .vmul _ d _ _ => some d
  | .vmulh _ d _ _ => some d
  | .vmulhn _ d _ _ => some d
  | .vand _ d _ _ => some d
  | .vor _ d _ _ => some d
  | .vxor _ d _ _ => some d
  | .vandn _ d _ _ => some d
  | .vshl _ d _ _ => some d
  | .vshr _ d _ _ => some d
  | .vsra _ d _ _ => some d
  | .vmin _ d _ _ => some d
  | .vmax _ d _ _ => some d
  | .vminn _ d _ _ => some d
  | .vmaxn _ d _ _ => some d
  | .vabs _ d _ _ => some d
  | .vneg _ d _ _ => some d
  | .vclz _ d _ _ => some d
  | .vpopc _ d _ _ => some d
  | .vadds _ d _ _ => some d
  | .vsubs _ d _ _ => some d
  | .vbfe _ d _ _ => some d
  | .vbfi _ d _ _ => some d
  | .vpack _ d _ _ => some d
  | .vunpk _ d _ _ => some d
  | .vadda _ d _ _ => some d
  | .vaddi _ d _ _ => some d
  | .vandi _ d _ _ => some d
  | .vori _ d _ _ => some d
  | .vxori _ d _ _ => some d
  | .vshli _ d _ _ => some d
  | .vshri _ d _ _ => some d
  | .vsrai _ d _ _ => some d
  | .vmuli _ d _ _ => some d
  | .vli _ d _ _ => some d
  | .fadd _ d _ _ _ => some d
  | .fsub _ d _ _ _ => some d
  | .fmul _ d _ _ _ => some d
  | .fdiv _ d _ _ _ => some d
  | .fsqrt _ d _ _ _ => some d
  | .fmin _ d _ _ => some d
  | .fmax _ d _ _ => some d
  | .fabs _ d _ _ => some d
  | .fneg _ d _ _ => some d
  | .fcopysign _ d _ _ => some d
  | .fminnum _ d _ _ => some d
  | .fmaxnum _ d _ _ => some d
  | .ffma _ d _ _ _ _ => some d
  | .ffman _ d _ _ _ _ => some d
  | .vimad _ d _ _ _ _ => some d
  | .frcp _ d _ _ => some d
  | .frsq _ d _ _ => some d
  | .fexp2 _ d _ _ => some d
  | .flog2 _ d _ _ => some d
  | .fsinpi _ d _ _ => some d
  | .fcospi _ d _ _ => some d
  | .ftanh _ d _ _ => some d
  | .vcvt _ d _ _ _ _ _ => some d
  | .vcmp _ _ _ _ _ _ => none
  | .vsel _ d _ _ _ _ => some d
  | .vdot _ d _ _ _ _ => some d
  | .pand _ _ _ _ => none
  | .por _ _ _ _ => none
  | .pxor _ _ _ _ => none
  | .pandn _ _ _ _ => none
  | .ptov _ d => some d
  | .vtop _ _ => none
  | .vtos _ _ _ => none
  | .stov _ d _ => some d
  | .vretag _ d _ _ => some d
  | .shfl _ d _ _ _ _ => some d
  | .shflup _ d _ _ _ _ => some d
  | .shfldn _ d _ _ _ _ => some d
  | .shflx _ d _ _ _ _ => some d
  | .bcast _ d _ _ _ _ => some d
  | .voteAny _ d _ _ => some d
  | .voteAll _ d _ _ => some d
  | .voteBal _ d _ _ => some d
  | .voteEq _ d _ _ => some d
  | .redadd _ d _ _ => some d
  | .redmin _ d _ _ => some d
  | .redmax _ d _ _ => some d
  | .redand _ d _ _ => some d
  | .redor _ d _ _ => some d
  | .redxor _ d _ _ => some d
  | .scanadd _ d _ _ => some d
  | .scanaddx _ d _ _ => some d
  | .xmatch _ d _ _ => some d
  | .ld _ d _ _ _ _ _ _ => some d
  | .st _ _ _ _ _ _ _ _ => none
  | .atom _ d _ _ _ _ _ _ => some d
  | .fence _ _ => none
  | .publish _ _ _ => none
  | .berthSet _ _ _ => none
  | .berthClr _ _ => none
  | .ldt _ _ _ _ _ => none
  | .stt _ _ _ _ _ => none
  | .lndInit _ _ _ _ => none
  | .lndExpectIn _ _ _ _ => none
  | .lndExpectOut _ _ _ _ => none
  | .lndArrive _ _ _ _ => none
  | .lndWait _ _ _ _ => none
  | .lndTest _ _ _ _ => none
  | .strmSet _ _ _ => none
  | .strmStop _ _ => none
  | .fcopy _ _ _ _ _ => none
  | .fgath _ _ _ _ _ => none
  | .fscat _ _ _ _ _ => none
  | .fatom _ _ _ _ _ => none
  | .fput _ _ _ _ _ => none
  | .fputs _ _ _ _ _ => none
  | .fget _ _ _ _ _ => none
  | .collAllred _ _ _ _ _ => none
  | .collAllgath _ _ _ _ _ => none
  | .collRedscat _ _ _ _ _ => none
  | .collBcast _ _ _ _ _ => none
  | .collCbar _ _ _ _ _ => none
  | .nmc _ _ _ _ => none
  | .fpref _ _ _ _ => none
  | .fcancel _ _ _ => none
  | .mma _ _ _ _ _ _ _ _ _ => none
  | .movts _ _ _ => none
  | .movst _ _ _ => none
  | .accz _ _ => none
  | .mchk _ _ => none
  | .tcvt _ _ _ _ _ => none
  | .tzero _ _ => none
  | .accst _ _ _ _ _ _ _ _ _ _ _ => none
  | .accld _ _ _ _ => none
  | .trap _ _ => none
  | .rteRetry _ => none
  | .rteCommit _ => none
  | .rteSkip _ => none
  | .brk _ _ => none
  | .csrr _ _ _ => none
  | .csrw _ _ _ => none
  | .csrs _ _ _ => none
  | .csrc _ _ _ => none
  | .launch _ _ _ _ => none
  | .issueOpportunity _ => none
  | .runEnd => none
  | .loadReturn _ _ => none
  | .storePerform _ => none
  | .vaultStoreHomeArrival _ _ => none
  | .atomHomeApply _ => none
  | .atomReplyReturn _ _ => none
  | .landingUpdateApply _ => none
  | .streamElementFetch _ _ _ => none
  | .tileOpStart _ _ => none
  | .mmaTwinEngage _ => none
  | .tileOpComplete _ _ => none
  | .engineTransferPart _ _ _ => none
  | .faultQueueRecordWrite _ _ => none
  | .fqResolveResume _ _ => none
  | .fqResolveUnresolvable _ _ => none
  | .engineCommandComplete _ _ => none
  | .fatomPerform _ _ => none
  | .nmcRun _ _ => none
  | .cbarArrival _ _ => none
  | .ticketedRequestArrival _ => none
  | .fabricAckReceive _ _ _ => none
  | .handlerEntry _ => none
  | .deferredTrapEntry _ => none
  | .rendezvousTimeout _ _ => none
  | .templateCrewCreate _ _ => none
  | .imageTake _ => none
  | .doorbellWrite _ _ _ _ => none
  | .recordAdmission _ _ => none
  | .blockAssign _ => none
  | .blockDispatch _ => none
  | .cargoStaging _ => none
  | .blockWriteback _ => none
  | .blockRetirement _ => none
  | .launchCompletion _ => none
  | .schedQdesc _ _ => none
  | .schedQstop _ _ => none
  | .balanceExchange _ => none
  | .quantumExpiry _ => none
  | .candidateReserve _ _ => none
  | .freezeSignal _ => none
  | .capture _ => none
  | .contextSave _ => none
  | .restore _ _ => none
  | .manifestReplayStep _ => none
  | .watchdog _ => none
  | .shadowCompare _ => none
  | .shadowTimeout _ => none
  | .sactKillBlock _ => none
  | .sactKillContext _ => none
  | .pwaysWrite _ _ => none
  | .pwaysChangeComplete _ => none
  | .registerWrite _ _ _ => none
  | .resizeMove _ => none
  | .interruptSourceEnable _ _ => none
  | .hostMemoryAccess _ => none
  | .pcieInboundWrite _ _ => none
  | .ideIntegrityFailure _ => none
  | .migrationCut _ => none
  | .flitSend _ => none
  | .keyInstall _ _ _ _ _ => none
  | .flitIdleReceive _ _ => none
  | .flitDataReceive _ _ => none
  | .flitOpenReceive _ _ => none
  | .flitMarkerReceive _ _ => none
  | .flitCutReceive _ _ => none
  | .flitAbortReceive _ _ => none
  | .linkRetrain _ => none
  | .linkLaneLoss _ _ => none
  | .dieBridgeFailure _ => none
  | .sliceTrip _ _ => none
  | .patrolRead _ _ => none
  | .hbmtest _ _ => none
  | .logread _ _ => none
  | .powerPstate _ => none
  | .powerGate _ => none
  | .fwstage _ => none
  | .fwactivate => none
  | .bind _ _ _ _ => none
  | .release _ _ => none
  | .portmode _ _ _ => none
  | .coldReset _ => none
  | .measurementRequest _ _ _ _ => none
  | .debugUnlock _ _ => none
  | .illegalOpcodeWord _ => none
  | .flitInvalidTypeReceive _ _ => none
  | .linkTrained _ _ _ => none
  | .spdmSessionEstablish _ _ _ _ => none
  | .spdmSessionEnd _ => none
  | .tdispRequest _ _ => none
  | .debugBlockResume _ _ => none
  | .mailboxInvalidCode _ _ _ => none
  | .contextCreate _ _ _ _ => none
  | .contextDestroy _ => none
  | .rosterEstablish _ _ _ => none
  | .ethernetFrameReceive _ _ => none

/-- The words of XLANE and XRED, which meet in a rendezvous (R164). -/
def crossLane : Instr → Bool
  | .nop _ => false
  | .trl _ _ _ _ => false
  | .grd _ _ _ _ => false
  | .waitc _ _ _ _ _ => false
  | .yield _ => false
  | .exit _ => false
  | .freeze _ _ => false
  | .setrl _ _ => false
  | .elect _ _ => false
  | .br _ _ => false
  | .brc _ _ _ _ => false
  | .brp _ _ _ _ => false
  | .call _ _ => false
  | .jmpi _ _ => false
  | .ret _ => false
  | .jmpiL _ _ => false
  | .sadd _ _ _ _ => false
  | .ssub _ _ _ _ => false
  | .smul _ _ _ _ => false
  | .smulh _ _ _ _ => false
  | .smulhn _ _ _ _ => false
  | .sand _ _ _ _ => false
  | .sor _ _ _ _ => false
  | .sxor _ _ _ _ => false
  | .sshl _ _ _ _ => false
  | .sshr _ _ _ _ => false
  | .ssra _ _ _ _ => false
  | .smin _ _ _ _ => false
  | .smax _ _ _ _ => false
  | .sminn _ _ _ _ => false
  | .smaxn _ _ _ _ => false
  | .seq _ _ _ _ => false
  | .slt _ _ _ _ => false
  | .sltn _ _ _ _ => false
  | .smov _ _ _ _ => false
  | .saddi _ _ _ _ => false
  | .sandi _ _ _ _ => false
  | .sori _ _ _ _ => false
  | .sxori _ _ _ _ => false
  | .sshli _ _ _ _ => false
  | .sshri _ _ _ _ => false
  | .ssrai _ _ _ _ => false
  | .slti _ _ _ _ => false
  | .sli _ _ _ => false
  | .slih _ _ _ => false
  | .vadd _ _ _ _ => false
  | .vsub _ _ _ _ => false
  | .vmul _ _ _ _ => false
  | .vmulh _ _ _ _ => false
  | .vmulhn _ _ _ _ => false
  | .vand _ _ _ _ => false
  | .vor _ _ _ _ => false
  | .vxor _ _ _ _ => false
  | .vandn _ _ _ _ => false
  | .vshl _ _ _ _ => false
  | .vshr _ _ _ _ => false
  | .vsra _ _ _ _ => false
  | .vmin _ _ _ _ => false
  | .vmax _ _ _ _ => false
  | .vminn _ _ _ _ => false
  | .vmaxn _ _ _ _ => false
  | .vabs _ _ _ _ => false
  | .vneg _ _ _ _ => false
  | .vclz _ _ _ _ => false
  | .vpopc _ _ _ _ => false
  | .vadds _ _ _ _ => false
  | .vsubs _ _ _ _ => false
  | .vbfe _ _ _ _ => false
  | .vbfi _ _ _ _ => false
  | .vpack _ _ _ _ => false
  | .vunpk _ _ _ _ => false
  | .vadda _ _ _ _ => false
  | .vaddi _ _ _ _ => false
  | .vandi _ _ _ _ => false
  | .vori _ _ _ _ => false
  | .vxori _ _ _ _ => false
  | .vshli _ _ _ _ => false
  | .vshri _ _ _ _ => false
  | .vsrai _ _ _ _ => false
  | .vmuli _ _ _ _ => false
  | .vli _ _ _ _ => false
  | .fadd _ _ _ _ _ => false
  | .fsub _ _ _ _ _ => false
  | .fmul _ _ _ _ _ => false
  | .fdiv _ _ _ _ _ => false
  | .fsqrt _ _ _ _ _ => false
  | .fmin _ _ _ _ => false
  | .fmax _ _ _ _ => false
  | .fabs _ _ _ _ => false
  | .fneg _ _ _ _ => false
  | .fcopysign _ _ _ _ => false
  | .fminnum _ _ _ _ => false
  | .fmaxnum _ _ _ _ => false
  | .ffma _ _ _ _ _ _ => false
  | .ffman _ _ _ _ _ _ => false
  | .vimad _ _ _ _ _ _ => false
  | .frcp _ _ _ _ => false
  | .frsq _ _ _ _ => false
  | .fexp2 _ _ _ _ => false
  | .flog2 _ _ _ _ => false
  | .fsinpi _ _ _ _ => false
  | .fcospi _ _ _ _ => false
  | .ftanh _ _ _ _ => false
  | .vcvt _ _ _ _ _ _ _ => false
  | .vcmp _ _ _ _ _ _ => false
  | .vsel _ _ _ _ _ _ => false
  | .vdot _ _ _ _ _ _ => false
  | .pand _ _ _ _ => false
  | .por _ _ _ _ => false
  | .pxor _ _ _ _ => false
  | .pandn _ _ _ _ => false
  | .ptov _ _ => false
  | .vtop _ _ => false
  | .vtos _ _ _ => false
  | .stov _ _ _ => false
  | .vretag _ _ _ _ => false
  | .shfl _ _ _ _ _ _ => true
  | .shflup _ _ _ _ _ _ => true
  | .shfldn _ _ _ _ _ _ => true
  | .shflx _ _ _ _ _ _ => true
  | .bcast _ _ _ _ _ _ => true
  | .voteAny _ _ _ _ => true
  | .voteAll _ _ _ _ => true
  | .voteBal _ _ _ _ => true
  | .voteEq _ _ _ _ => true
  | .redadd _ _ _ _ => true
  | .redmin _ _ _ _ => true
  | .redmax _ _ _ _ => true
  | .redand _ _ _ _ => true
  | .redor _ _ _ _ => true
  | .redxor _ _ _ _ => true
  | .scanadd _ _ _ _ => true
  | .scanaddx _ _ _ _ => true
  | .xmatch _ _ _ _ => true
  | .ld _ _ _ _ _ _ _ _ => false
  | .st _ _ _ _ _ _ _ _ => false
  | .atom _ _ _ _ _ _ _ _ => false
  | .fence _ _ => false
  | .publish _ _ _ => false
  | .berthSet _ _ _ => false
  | .berthClr _ _ => false
  | .ldt _ _ _ _ _ => false
  | .stt _ _ _ _ _ => false
  | .lndInit _ _ _ _ => false
  | .lndExpectIn _ _ _ _ => false
  | .lndExpectOut _ _ _ _ => false
  | .lndArrive _ _ _ _ => false
  | .lndWait _ _ _ _ => false
  | .lndTest _ _ _ _ => false
  | .strmSet _ _ _ => false
  | .strmStop _ _ => false
  | .fcopy _ _ _ _ _ => false
  | .fgath _ _ _ _ _ => false
  | .fscat _ _ _ _ _ => false
  | .fatom _ _ _ _ _ => false
  | .fput _ _ _ _ _ => false
  | .fputs _ _ _ _ _ => false
  | .fget _ _ _ _ _ => false
  | .collAllred _ _ _ _ _ => false
  | .collAllgath _ _ _ _ _ => false
  | .collRedscat _ _ _ _ _ => false
  | .collBcast _ _ _ _ _ => false
  | .collCbar _ _ _ _ _ => false
  | .nmc _ _ _ _ => false
  | .fpref _ _ _ _ => false
  | .fcancel _ _ _ => false
  | .mma _ _ _ _ _ _ _ _ _ => false
  | .movts _ _ _ => false
  | .movst _ _ _ => false
  | .accz _ _ => false
  | .mchk _ _ => false
  | .tcvt _ _ _ _ _ => false
  | .tzero _ _ => false
  | .accst _ _ _ _ _ _ _ _ _ _ _ => false
  | .accld _ _ _ _ => false
  | .trap _ _ => false
  | .rteRetry _ => false
  | .rteCommit _ => false
  | .rteSkip _ => false
  | .brk _ _ => false
  | .csrr _ _ _ => false
  | .csrw _ _ _ => false
  | .csrs _ _ _ => false
  | .csrc _ _ _ => false
  | .launch _ _ _ _ => false
  | .issueOpportunity _ => false
  | .runEnd => false
  | .loadReturn _ _ => false
  | .storePerform _ => false
  | .vaultStoreHomeArrival _ _ => false
  | .atomHomeApply _ => false
  | .atomReplyReturn _ _ => false
  | .landingUpdateApply _ => false
  | .streamElementFetch _ _ _ => false
  | .tileOpStart _ _ => false
  | .mmaTwinEngage _ => false
  | .tileOpComplete _ _ => false
  | .engineTransferPart _ _ _ => false
  | .faultQueueRecordWrite _ _ => false
  | .fqResolveResume _ _ => false
  | .fqResolveUnresolvable _ _ => false
  | .engineCommandComplete _ _ => false
  | .fatomPerform _ _ => false
  | .nmcRun _ _ => false
  | .cbarArrival _ _ => false
  | .ticketedRequestArrival _ => false
  | .fabricAckReceive _ _ _ => false
  | .handlerEntry _ => false
  | .deferredTrapEntry _ => false
  | .rendezvousTimeout _ _ => false
  | .templateCrewCreate _ _ => false
  | .imageTake _ => false
  | .doorbellWrite _ _ _ _ => false
  | .recordAdmission _ _ => false
  | .blockAssign _ => false
  | .blockDispatch _ => false
  | .cargoStaging _ => false
  | .blockWriteback _ => false
  | .blockRetirement _ => false
  | .launchCompletion _ => false
  | .schedQdesc _ _ => false
  | .schedQstop _ _ => false
  | .balanceExchange _ => false
  | .quantumExpiry _ => false
  | .candidateReserve _ _ => false
  | .freezeSignal _ => false
  | .capture _ => false
  | .contextSave _ => false
  | .restore _ _ => false
  | .manifestReplayStep _ => false
  | .watchdog _ => false
  | .shadowCompare _ => false
  | .shadowTimeout _ => false
  | .sactKillBlock _ => false
  | .sactKillContext _ => false
  | .pwaysWrite _ _ => false
  | .pwaysChangeComplete _ => false
  | .registerWrite _ _ _ => false
  | .resizeMove _ => false
  | .interruptSourceEnable _ _ => false
  | .hostMemoryAccess _ => false
  | .pcieInboundWrite _ _ => false
  | .ideIntegrityFailure _ => false
  | .migrationCut _ => false
  | .flitSend _ => false
  | .keyInstall _ _ _ _ _ => false
  | .flitIdleReceive _ _ => false
  | .flitDataReceive _ _ => false
  | .flitOpenReceive _ _ => false
  | .flitMarkerReceive _ _ => false
  | .flitCutReceive _ _ => false
  | .flitAbortReceive _ _ => false
  | .linkRetrain _ => false
  | .linkLaneLoss _ _ => false
  | .dieBridgeFailure _ => false
  | .sliceTrip _ _ => false
  | .patrolRead _ _ => false
  | .hbmtest _ _ => false
  | .logread _ _ => false
  | .powerPstate _ => false
  | .powerGate _ => false
  | .fwstage _ => false
  | .fwactivate => false
  | .bind _ _ _ _ => false
  | .release _ _ => false
  | .portmode _ _ _ => false
  | .coldReset _ => false
  | .measurementRequest _ _ _ _ => false
  | .debugUnlock _ _ => false
  | .illegalOpcodeWord _ => false
  | .flitInvalidTypeReceive _ _ => false
  | .linkTrained _ _ _ => false
  | .spdmSessionEstablish _ _ _ _ => false
  | .spdmSessionEnd _ => false
  | .tdispRequest _ _ => false
  | .debugBlockResume _ _ => false
  | .mailboxInvalidCode _ _ _ => false
  | .contextCreate _ _ _ _ => false
  | .contextDestroy _ => false
  | .rosterEstablish _ _ _ => false
  | .ethernetFrameReceive _ _ => false

/-- The four pipes (R12). -/
inductive Pipe where
  | s | v | m | x
  deriving DecidableEq, Repr

/-- The pipe that a major opcode goes to; none for 0x30-0x3F (R12). -/
def pipeOf (major : Nat) : Option Pipe :=
  if major ≤ 0x09 || major = 0x2C || major = 0x2D then some .s
  else if major ≤ 0x18 || major = 0x2F then some .v
  else if major ≤ 0x1F then some .m
  else if major ≤ 0x2E then some .x
  else none

/-- The control-transfer words (R18). -/
def isTransfer : Instr → Bool
  | .nop _ => false
  | .trl _ _ _ _ => false
  | .grd _ _ _ _ => false
  | .waitc _ _ _ _ _ => false
  | .yield _ => false
  | .exit _ => true
  | .freeze _ _ => true
  | .setrl _ _ => false
  | .elect _ _ => false
  | .br _ _ => true
  | .brc _ _ _ _ => true
  | .brp _ _ _ _ => true
  | .call _ _ => true
  | .jmpi _ _ => true
  | .ret _ => true
  | .jmpiL _ _ => true
  | .sadd _ _ _ _ => false
  | .ssub _ _ _ _ => false
  | .smul _ _ _ _ => false
  | .smulh _ _ _ _ => false
  | .smulhn _ _ _ _ => false
  | .sand _ _ _ _ => false
  | .sor _ _ _ _ => false
  | .sxor _ _ _ _ => false
  | .sshl _ _ _ _ => false
  | .sshr _ _ _ _ => false
  | .ssra _ _ _ _ => false
  | .smin _ _ _ _ => false
  | .smax _ _ _ _ => false
  | .sminn _ _ _ _ => false
  | .smaxn _ _ _ _ => false
  | .seq _ _ _ _ => false
  | .slt _ _ _ _ => false
  | .sltn _ _ _ _ => false
  | .smov _ _ _ _ => false
  | .saddi _ _ _ _ => false
  | .sandi _ _ _ _ => false
  | .sori _ _ _ _ => false
  | .sxori _ _ _ _ => false
  | .sshli _ _ _ _ => false
  | .sshri _ _ _ _ => false
  | .ssrai _ _ _ _ => false
  | .slti _ _ _ _ => false
  | .sli _ _ _ => false
  | .slih _ _ _ => false
  | .vadd _ _ _ _ => false
  | .vsub _ _ _ _ => false
  | .vmul _ _ _ _ => false
  | .vmulh _ _ _ _ => false
  | .vmulhn _ _ _ _ => false
  | .vand _ _ _ _ => false
  | .vor _ _ _ _ => false
  | .vxor _ _ _ _ => false
  | .vandn _ _ _ _ => false
  | .vshl _ _ _ _ => false
  | .vshr _ _ _ _ => false
  | .vsra _ _ _ _ => false
  | .vmin _ _ _ _ => false
  | .vmax _ _ _ _ => false
  | .vminn _ _ _ _ => false
  | .vmaxn _ _ _ _ => false
  | .vabs _ _ _ _ => false
  | .vneg _ _ _ _ => false
  | .vclz _ _ _ _ => false
  | .vpopc _ _ _ _ => false
  | .vadds _ _ _ _ => false
  | .vsubs _ _ _ _ => false
  | .vbfe _ _ _ _ => false
  | .vbfi _ _ _ _ => false
  | .vpack _ _ _ _ => false
  | .vunpk _ _ _ _ => false
  | .vadda _ _ _ _ => false
  | .vaddi _ _ _ _ => false
  | .vandi _ _ _ _ => false
  | .vori _ _ _ _ => false
  | .vxori _ _ _ _ => false
  | .vshli _ _ _ _ => false
  | .vshri _ _ _ _ => false
  | .vsrai _ _ _ _ => false
  | .vmuli _ _ _ _ => false
  | .vli _ _ _ _ => false
  | .fadd _ _ _ _ _ => false
  | .fsub _ _ _ _ _ => false
  | .fmul _ _ _ _ _ => false
  | .fdiv _ _ _ _ _ => false
  | .fsqrt _ _ _ _ _ => false
  | .fmin _ _ _ _ => false
  | .fmax _ _ _ _ => false
  | .fabs _ _ _ _ => false
  | .fneg _ _ _ _ => false
  | .fcopysign _ _ _ _ => false
  | .fminnum _ _ _ _ => false
  | .fmaxnum _ _ _ _ => false
  | .ffma _ _ _ _ _ _ => false
  | .ffman _ _ _ _ _ _ => false
  | .vimad _ _ _ _ _ _ => false
  | .frcp _ _ _ _ => false
  | .frsq _ _ _ _ => false
  | .fexp2 _ _ _ _ => false
  | .flog2 _ _ _ _ => false
  | .fsinpi _ _ _ _ => false
  | .fcospi _ _ _ _ => false
  | .ftanh _ _ _ _ => false
  | .vcvt _ _ _ _ _ _ _ => false
  | .vcmp _ _ _ _ _ _ => false
  | .vsel _ _ _ _ _ _ => false
  | .vdot _ _ _ _ _ _ => false
  | .pand _ _ _ _ => false
  | .por _ _ _ _ => false
  | .pxor _ _ _ _ => false
  | .pandn _ _ _ _ => false
  | .ptov _ _ => false
  | .vtop _ _ => false
  | .vtos _ _ _ => false
  | .stov _ _ _ => false
  | .vretag _ _ _ _ => false
  | .shfl _ _ _ _ _ _ => false
  | .shflup _ _ _ _ _ _ => false
  | .shfldn _ _ _ _ _ _ => false
  | .shflx _ _ _ _ _ _ => false
  | .bcast _ _ _ _ _ _ => false
  | .voteAny _ _ _ _ => false
  | .voteAll _ _ _ _ => false
  | .voteBal _ _ _ _ => false
  | .voteEq _ _ _ _ => false
  | .redadd _ _ _ _ => false
  | .redmin _ _ _ _ => false
  | .redmax _ _ _ _ => false
  | .redand _ _ _ _ => false
  | .redor _ _ _ _ => false
  | .redxor _ _ _ _ => false
  | .scanadd _ _ _ _ => false
  | .scanaddx _ _ _ _ => false
  | .xmatch _ _ _ _ => false
  | .ld _ _ _ _ _ _ _ _ => false
  | .st _ _ _ _ _ _ _ _ => false
  | .atom _ _ _ _ _ _ _ _ => false
  | .fence _ _ => false
  | .publish _ _ _ => false
  | .berthSet _ _ _ => false
  | .berthClr _ _ => false
  | .ldt _ _ _ _ _ => false
  | .stt _ _ _ _ _ => false
  | .lndInit _ _ _ _ => false
  | .lndExpectIn _ _ _ _ => false
  | .lndExpectOut _ _ _ _ => false
  | .lndArrive _ _ _ _ => false
  | .lndWait _ _ _ _ => false
  | .lndTest _ _ _ _ => false
  | .strmSet _ _ _ => false
  | .strmStop _ _ => false
  | .fcopy _ _ _ _ _ => false
  | .fgath _ _ _ _ _ => false
  | .fscat _ _ _ _ _ => false
  | .fatom _ _ _ _ _ => false
  | .fput _ _ _ _ _ => false
  | .fputs _ _ _ _ _ => false
  | .fget _ _ _ _ _ => false
  | .collAllred _ _ _ _ _ => false
  | .collAllgath _ _ _ _ _ => false
  | .collRedscat _ _ _ _ _ => false
  | .collBcast _ _ _ _ _ => false
  | .collCbar _ _ _ _ _ => false
  | .nmc _ _ _ _ => false
  | .fpref _ _ _ _ => false
  | .fcancel _ _ _ => false
  | .mma _ _ _ _ _ _ _ _ _ => false
  | .movts _ _ _ => false
  | .movst _ _ _ => false
  | .accz _ _ => false
  | .mchk _ _ => false
  | .tcvt _ _ _ _ _ => false
  | .tzero _ _ => false
  | .accst _ _ _ _ _ _ _ _ _ _ _ => false
  | .accld _ _ _ _ => false
  | .trap _ _ => false
  | .rteRetry _ => true
  | .rteCommit _ => true
  | .rteSkip _ => true
  | .brk _ _ => false
  | .csrr _ _ _ => false
  | .csrw _ _ _ => false
  | .csrs _ _ _ => false
  | .csrc _ _ _ => false
  | .launch _ _ _ _ => false
  | .issueOpportunity _ => false
  | .runEnd => false
  | .loadReturn _ _ => false
  | .storePerform _ => false
  | .vaultStoreHomeArrival _ _ => false
  | .atomHomeApply _ => false
  | .atomReplyReturn _ _ => false
  | .landingUpdateApply _ => false
  | .streamElementFetch _ _ _ => false
  | .tileOpStart _ _ => false
  | .mmaTwinEngage _ => false
  | .tileOpComplete _ _ => false
  | .engineTransferPart _ _ _ => false
  | .faultQueueRecordWrite _ _ => false
  | .fqResolveResume _ _ => false
  | .fqResolveUnresolvable _ _ => false
  | .engineCommandComplete _ _ => false
  | .fatomPerform _ _ => false
  | .nmcRun _ _ => false
  | .cbarArrival _ _ => false
  | .ticketedRequestArrival _ => false
  | .fabricAckReceive _ _ _ => false
  | .handlerEntry _ => false
  | .deferredTrapEntry _ => false
  | .rendezvousTimeout _ _ => false
  | .templateCrewCreate _ _ => false
  | .imageTake _ => false
  | .doorbellWrite _ _ _ _ => false
  | .recordAdmission _ _ => false
  | .blockAssign _ => false
  | .blockDispatch _ => false
  | .cargoStaging _ => false
  | .blockWriteback _ => false
  | .blockRetirement _ => false
  | .launchCompletion _ => false
  | .schedQdesc _ _ => false
  | .schedQstop _ _ => false
  | .balanceExchange _ => false
  | .quantumExpiry _ => false
  | .candidateReserve _ _ => false
  | .freezeSignal _ => false
  | .capture _ => false
  | .contextSave _ => false
  | .restore _ _ => false
  | .manifestReplayStep _ => false
  | .watchdog _ => false
  | .shadowCompare _ => false
  | .shadowTimeout _ => false
  | .sactKillBlock _ => false
  | .sactKillContext _ => false
  | .pwaysWrite _ _ => false
  | .pwaysChangeComplete _ => false
  | .registerWrite _ _ _ => false
  | .resizeMove _ => false
  | .interruptSourceEnable _ _ => false
  | .hostMemoryAccess _ => false
  | .pcieInboundWrite _ _ => false
  | .ideIntegrityFailure _ => false
  | .migrationCut _ => false
  | .flitSend _ => false
  | .keyInstall _ _ _ _ _ => false
  | .flitIdleReceive _ _ => false
  | .flitDataReceive _ _ => false
  | .flitOpenReceive _ _ => false
  | .flitMarkerReceive _ _ => false
  | .flitCutReceive _ _ => false
  | .flitAbortReceive _ _ => false
  | .linkRetrain _ => false
  | .linkLaneLoss _ _ => false
  | .dieBridgeFailure _ => false
  | .sliceTrip _ _ => false
  | .patrolRead _ _ => false
  | .hbmtest _ _ => false
  | .logread _ _ => false
  | .powerPstate _ => false
  | .powerGate _ => false
  | .fwstage _ => false
  | .fwactivate => false
  | .bind _ _ _ _ => false
  | .release _ _ => false
  | .portmode _ _ _ => false
  | .coldReset _ => false
  | .measurementRequest _ _ _ _ => false
  | .debugUnlock _ _ => false
  | .illegalOpcodeWord _ => false
  | .flitInvalidTypeReceive _ _ => false
  | .linkTrained _ _ _ => false
  | .spdmSessionEstablish _ _ _ _ => false
  | .spdmSessionEnd _ => false
  | .tdispRequest _ _ => false
  | .debugBlockResume _ _ => false
  | .mailboxInvalidCode _ _ _ => false
  | .contextCreate _ _ _ _ => false
  | .contextDestroy _ => false
  | .rosterEstablish _ _ _ => false
  | .ethernetFrameReceive _ _ => false

/-- What a shadow does with a word (R464): runs it on its own state, leaves its effect to the lead, or takes its result from the load-value queue. -/
inductive ShadowRole where
  | own
  | skip
  | takeS (d : BitVec 5)
  | takeV (d : BitVec 6) (z : BitVec 3)
  | takeNone
  deriving DecidableEq, Repr

/-- A shadow's part in each word (R464, log 12). -/
def shadowRole : Instr → ShadowRole
  | .nop _ => .own
  | .trl _ _ _ _ => .own
  | .grd _ _ _ _ => .own
  | .waitc _ _ _ _ _ => .own
  | .yield _ => .own
  | .exit _ => .own
  | .freeze _ _ => .own
  | .setrl _ _ => .own
  | .elect _ _ => .own
  | .br _ _ => .own
  | .brc _ _ _ _ => .own
  | .brp _ _ _ _ => .own
  | .call _ _ => .own
  | .jmpi _ _ => .own
  | .ret _ => .own
  | .jmpiL _ _ => .own
  | .sadd _ _ _ _ => .own
  | .ssub _ _ _ _ => .own
  | .smul _ _ _ _ => .own
  | .smulh _ _ _ _ => .own
  | .smulhn _ _ _ _ => .own
  | .sand _ _ _ _ => .own
  | .sor _ _ _ _ => .own
  | .sxor _ _ _ _ => .own
  | .sshl _ _ _ _ => .own
  | .sshr _ _ _ _ => .own
  | .ssra _ _ _ _ => .own
  | .smin _ _ _ _ => .own
  | .smax _ _ _ _ => .own
  | .sminn _ _ _ _ => .own
  | .smaxn _ _ _ _ => .own
  | .seq _ _ _ _ => .own
  | .slt _ _ _ _ => .own
  | .sltn _ _ _ _ => .own
  | .smov _ _ _ _ => .own
  | .saddi _ _ _ _ => .own
  | .sandi _ _ _ _ => .own
  | .sori _ _ _ _ => .own
  | .sxori _ _ _ _ => .own
  | .sshli _ _ _ _ => .own
  | .sshri _ _ _ _ => .own
  | .ssrai _ _ _ _ => .own
  | .slti _ _ _ _ => .own
  | .sli _ _ _ => .own
  | .slih _ _ _ => .own
  | .vadd _ _ _ _ => .own
  | .vsub _ _ _ _ => .own
  | .vmul _ _ _ _ => .own
  | .vmulh _ _ _ _ => .own
  | .vmulhn _ _ _ _ => .own
  | .vand _ _ _ _ => .own
  | .vor _ _ _ _ => .own
  | .vxor _ _ _ _ => .own
  | .vandn _ _ _ _ => .own
  | .vshl _ _ _ _ => .own
  | .vshr _ _ _ _ => .own
  | .vsra _ _ _ _ => .own
  | .vmin _ _ _ _ => .own
  | .vmax _ _ _ _ => .own
  | .vminn _ _ _ _ => .own
  | .vmaxn _ _ _ _ => .own
  | .vabs _ _ _ _ => .own
  | .vneg _ _ _ _ => .own
  | .vclz _ _ _ _ => .own
  | .vpopc _ _ _ _ => .own
  | .vadds _ _ _ _ => .own
  | .vsubs _ _ _ _ => .own
  | .vbfe _ _ _ _ => .own
  | .vbfi _ _ _ _ => .own
  | .vpack _ _ _ _ => .own
  | .vunpk _ _ _ _ => .own
  | .vadda _ _ _ _ => .own
  | .vaddi _ _ _ _ => .own
  | .vandi _ _ _ _ => .own
  | .vori _ _ _ _ => .own
  | .vxori _ _ _ _ => .own
  | .vshli _ _ _ _ => .own
  | .vshri _ _ _ _ => .own
  | .vsrai _ _ _ _ => .own
  | .vmuli _ _ _ _ => .own
  | .vli _ _ _ _ => .own
  | .fadd _ _ _ _ _ => .own
  | .fsub _ _ _ _ _ => .own
  | .fmul _ _ _ _ _ => .own
  | .fdiv _ _ _ _ _ => .own
  | .fsqrt _ _ _ _ _ => .own
  | .fmin _ _ _ _ => .own
  | .fmax _ _ _ _ => .own
  | .fabs _ _ _ _ => .own
  | .fneg _ _ _ _ => .own
  | .fcopysign _ _ _ _ => .own
  | .fminnum _ _ _ _ => .own
  | .fmaxnum _ _ _ _ => .own
  | .ffma _ _ _ _ _ _ => .own
  | .ffman _ _ _ _ _ _ => .own
  | .vimad _ _ _ _ _ _ => .own
  | .frcp _ _ _ _ => .own
  | .frsq _ _ _ _ => .own
  | .fexp2 _ _ _ _ => .own
  | .flog2 _ _ _ _ => .own
  | .fsinpi _ _ _ _ => .own
  | .fcospi _ _ _ _ => .own
  | .ftanh _ _ _ _ => .own
  | .vcvt _ _ _ _ _ _ _ => .own
  | .vcmp _ _ _ _ _ _ => .own
  | .vsel _ _ _ _ _ _ => .own
  | .vdot _ _ _ _ _ _ => .own
  | .pand _ _ _ _ => .own
  | .por _ _ _ _ => .own
  | .pxor _ _ _ _ => .own
  | .pandn _ _ _ _ => .own
  | .ptov _ _ => .own
  | .vtop _ _ => .own
  | .vtos _ _ _ => .own
  | .stov _ _ _ => .own
  | .vretag _ _ _ _ => .own
  | .shfl _ _ _ _ _ _ => .own
  | .shflup _ _ _ _ _ _ => .own
  | .shfldn _ _ _ _ _ _ => .own
  | .shflx _ _ _ _ _ _ => .own
  | .bcast _ _ _ _ _ _ => .own
  | .voteAny _ _ _ _ => .own
  | .voteAll _ _ _ _ => .own
  | .voteBal _ _ _ _ => .own
  | .voteEq _ _ _ _ => .own
  | .redadd _ _ _ _ => .own
  | .redmin _ _ _ _ => .own
  | .redmax _ _ _ _ => .own
  | .redand _ _ _ _ => .own
  | .redor _ _ _ _ => .own
  | .redxor _ _ _ _ => .own
  | .scanadd _ _ _ _ => .own
  | .scanaddx _ _ _ _ => .own
  | .xmatch _ _ _ _ => .own
  | .ld _ d _ _ z _ _ _ => .takeV d z
  | .st _ _ _ _ _ _ _ _ => .skip
  | .atom _ d _ _ _ _ _ _ => .takeV d 0
  | .fence _ _ => .own
  | .publish _ _ _ => .skip
  | .berthSet _ _ _ => .skip
  | .berthClr _ _ => .skip
  | .ldt _ _ _ _ _ => .skip
  | .stt _ _ _ _ _ => .skip
  | .lndInit _ _ _ _ => .skip
  | .lndExpectIn _ _ _ _ => .skip
  | .lndExpectOut _ _ _ _ => .skip
  | .lndArrive _ d _ _ => .takeS d
  | .lndWait _ _ _ _ => .takeNone
  | .lndTest _ d _ _ => .takeS d
  | .strmSet _ _ _ => .skip
  | .strmStop _ _ => .skip
  | .fcopy _ d _ _ _ => .takeS d
  | .fgath _ d _ _ _ => .takeS d
  | .fscat _ d _ _ _ => .takeS d
  | .fatom _ d _ _ _ => .takeS d
  | .fput _ d _ _ _ => .takeS d
  | .fputs _ d _ _ _ => .takeS d
  | .fget _ d _ _ _ => .takeS d
  | .collAllred _ d _ _ _ => .takeS d
  | .collAllgath _ d _ _ _ => .takeS d
  | .collRedscat _ d _ _ _ => .takeS d
  | .collBcast _ d _ _ _ => .takeS d
  | .collCbar _ d _ _ _ => .takeS d
  | .nmc _ d _ _ => .takeS d
  | .fpref _ _ _ _ => .skip
  | .fcancel _ d _ => .takeS d
  | .mma _ _ _ _ _ _ _ _ _ => .skip
  | .movts _ _ _ => .skip
  | .movst _ d _ => .takeS d
  | .accz _ _ => .skip
  | .mchk _ d => .takeS d
  | .tcvt _ _ _ _ _ => .skip
  | .tzero _ _ => .skip
  | .accst _ _ _ _ _ _ _ _ _ _ _ => .skip
  | .accld _ _ _ _ => .skip
  | .trap _ _ => .own
  | .rteRetry _ => .own
  | .rteCommit _ => .own
  | .rteSkip _ => .own
  | .brk _ _ => .own
  | .csrr _ d _ => .takeS d
  | .csrw _ _ _ => .own
  | .csrs _ _ _ => .own
  | .csrc _ _ _ => .own
  | .launch _ d _ _ => .takeS d
  | .issueOpportunity _ => .own
  | .runEnd => .own
  | .loadReturn _ _ => .own
  | .storePerform _ => .own
  | .vaultStoreHomeArrival _ _ => .own
  | .atomHomeApply _ => .own
  | .atomReplyReturn _ _ => .own
  | .landingUpdateApply _ => .own
  | .streamElementFetch _ _ _ => .own
  | .tileOpStart _ _ => .own
  | .mmaTwinEngage _ => .own
  | .tileOpComplete _ _ => .own
  | .engineTransferPart _ _ _ => .own
  | .faultQueueRecordWrite _ _ => .own
  | .fqResolveResume _ _ => .own
  | .fqResolveUnresolvable _ _ => .own
  | .engineCommandComplete _ _ => .own
  | .fatomPerform _ _ => .own
  | .nmcRun _ _ => .own
  | .cbarArrival _ _ => .own
  | .ticketedRequestArrival _ => .own
  | .fabricAckReceive _ _ _ => .own
  | .handlerEntry _ => .own
  | .deferredTrapEntry _ => .own
  | .rendezvousTimeout _ _ => .own
  | .templateCrewCreate _ _ => .own
  | .imageTake _ => .own
  | .doorbellWrite _ _ _ _ => .own
  | .recordAdmission _ _ => .own
  | .blockAssign _ => .own
  | .blockDispatch _ => .own
  | .cargoStaging _ => .own
  | .blockWriteback _ => .own
  | .blockRetirement _ => .own
  | .launchCompletion _ => .own
  | .schedQdesc _ _ => .own
  | .schedQstop _ _ => .own
  | .balanceExchange _ => .own
  | .quantumExpiry _ => .own
  | .candidateReserve _ _ => .own
  | .freezeSignal _ => .own
  | .capture _ => .own
  | .contextSave _ => .own
  | .restore _ _ => .own
  | .manifestReplayStep _ => .own
  | .watchdog _ => .own
  | .shadowCompare _ => .own
  | .shadowTimeout _ => .own
  | .sactKillBlock _ => .own
  | .sactKillContext _ => .own
  | .pwaysWrite _ _ => .own
  | .pwaysChangeComplete _ => .own
  | .registerWrite _ _ _ => .own
  | .resizeMove _ => .own
  | .interruptSourceEnable _ _ => .own
  | .hostMemoryAccess _ => .own
  | .pcieInboundWrite _ _ => .own
  | .ideIntegrityFailure _ => .own
  | .migrationCut _ => .own
  | .flitSend _ => .own
  | .keyInstall _ _ _ _ _ => .own
  | .flitIdleReceive _ _ => .own
  | .flitDataReceive _ _ => .own
  | .flitOpenReceive _ _ => .own
  | .flitMarkerReceive _ _ => .own
  | .flitCutReceive _ _ => .own
  | .flitAbortReceive _ _ => .own
  | .linkRetrain _ => .own
  | .linkLaneLoss _ _ => .own
  | .dieBridgeFailure _ => .own
  | .sliceTrip _ _ => .own
  | .patrolRead _ _ => .own
  | .hbmtest _ _ => .own
  | .logread _ _ => .own
  | .powerPstate _ => .own
  | .powerGate _ => .own
  | .fwstage _ => .own
  | .fwactivate => .own
  | .bind _ _ _ _ => .own
  | .release _ _ => .own
  | .portmode _ _ _ => .own
  | .coldReset _ => .own
  | .measurementRequest _ _ _ _ => .own
  | .debugUnlock _ _ => .own
  | .illegalOpcodeWord _ => .own
  | .flitInvalidTypeReceive _ _ => .own
  | .linkTrained _ _ _ => .own
  | .spdmSessionEstablish _ _ _ _ => .own
  | .spdmSessionEnd _ => .own
  | .tdispRequest _ _ => .own
  | .debugBlockResume _ _ => .own
  | .mailboxInvalidCode _ _ _ => .own
  | .contextCreate _ _ _ _ => .own
  | .contextDestroy _ => .own
  | .rosterEstablish _ _ _ => .own
  | .ethernetFrameReceive _ _ => .own

/-- The words that a lead holds until its shadow issues its matching word (R464, log 12). -/
def releasing : Instr → Bool
  | .nop _ => false
  | .trl _ _ _ _ => false
  | .grd _ _ _ _ => false
  | .waitc _ _ _ _ _ => false
  | .yield _ => false
  | .exit _ => false
  | .freeze _ _ => false
  | .setrl _ _ => false
  | .elect _ _ => false
  | .br _ _ => false
  | .brc _ _ _ _ => false
  | .brp _ _ _ _ => false
  | .call _ _ => false
  | .jmpi _ _ => false
  | .ret _ => false
  | .jmpiL _ _ => false
  | .sadd _ _ _ _ => false
  | .ssub _ _ _ _ => false
  | .smul _ _ _ _ => false
  | .smulh _ _ _ _ => false
  | .smulhn _ _ _ _ => false
  | .sand _ _ _ _ => false
  | .sor _ _ _ _ => false
  | .sxor _ _ _ _ => false
  | .sshl _ _ _ _ => false
  | .sshr _ _ _ _ => false
  | .ssra _ _ _ _ => false
  | .smin _ _ _ _ => false
  | .smax _ _ _ _ => false
  | .sminn _ _ _ _ => false
  | .smaxn _ _ _ _ => false
  | .seq _ _ _ _ => false
  | .slt _ _ _ _ => false
  | .sltn _ _ _ _ => false
  | .smov _ _ _ _ => false
  | .saddi _ _ _ _ => false
  | .sandi _ _ _ _ => false
  | .sori _ _ _ _ => false
  | .sxori _ _ _ _ => false
  | .sshli _ _ _ _ => false
  | .sshri _ _ _ _ => false
  | .ssrai _ _ _ _ => false
  | .slti _ _ _ _ => false
  | .sli _ _ _ => false
  | .slih _ _ _ => false
  | .vadd _ _ _ _ => false
  | .vsub _ _ _ _ => false
  | .vmul _ _ _ _ => false
  | .vmulh _ _ _ _ => false
  | .vmulhn _ _ _ _ => false
  | .vand _ _ _ _ => false
  | .vor _ _ _ _ => false
  | .vxor _ _ _ _ => false
  | .vandn _ _ _ _ => false
  | .vshl _ _ _ _ => false
  | .vshr _ _ _ _ => false
  | .vsra _ _ _ _ => false
  | .vmin _ _ _ _ => false
  | .vmax _ _ _ _ => false
  | .vminn _ _ _ _ => false
  | .vmaxn _ _ _ _ => false
  | .vabs _ _ _ _ => false
  | .vneg _ _ _ _ => false
  | .vclz _ _ _ _ => false
  | .vpopc _ _ _ _ => false
  | .vadds _ _ _ _ => false
  | .vsubs _ _ _ _ => false
  | .vbfe _ _ _ _ => false
  | .vbfi _ _ _ _ => false
  | .vpack _ _ _ _ => false
  | .vunpk _ _ _ _ => false
  | .vadda _ _ _ _ => false
  | .vaddi _ _ _ _ => false
  | .vandi _ _ _ _ => false
  | .vori _ _ _ _ => false
  | .vxori _ _ _ _ => false
  | .vshli _ _ _ _ => false
  | .vshri _ _ _ _ => false
  | .vsrai _ _ _ _ => false
  | .vmuli _ _ _ _ => false
  | .vli _ _ _ _ => false
  | .fadd _ _ _ _ _ => false
  | .fsub _ _ _ _ _ => false
  | .fmul _ _ _ _ _ => false
  | .fdiv _ _ _ _ _ => false
  | .fsqrt _ _ _ _ _ => false
  | .fmin _ _ _ _ => false
  | .fmax _ _ _ _ => false
  | .fabs _ _ _ _ => false
  | .fneg _ _ _ _ => false
  | .fcopysign _ _ _ _ => false
  | .fminnum _ _ _ _ => false
  | .fmaxnum _ _ _ _ => false
  | .ffma _ _ _ _ _ _ => false
  | .ffman _ _ _ _ _ _ => false
  | .vimad _ _ _ _ _ _ => false
  | .frcp _ _ _ _ => false
  | .frsq _ _ _ _ => false
  | .fexp2 _ _ _ _ => false
  | .flog2 _ _ _ _ => false
  | .fsinpi _ _ _ _ => false
  | .fcospi _ _ _ _ => false
  | .ftanh _ _ _ _ => false
  | .vcvt _ _ _ _ _ _ _ => false
  | .vcmp _ _ _ _ _ _ => false
  | .vsel _ _ _ _ _ _ => false
  | .vdot _ _ _ _ _ _ => false
  | .pand _ _ _ _ => false
  | .por _ _ _ _ => false
  | .pxor _ _ _ _ => false
  | .pandn _ _ _ _ => false
  | .ptov _ _ => false
  | .vtop _ _ => false
  | .vtos _ _ _ => false
  | .stov _ _ _ => false
  | .vretag _ _ _ _ => false
  | .shfl _ _ _ _ _ _ => false
  | .shflup _ _ _ _ _ _ => false
  | .shfldn _ _ _ _ _ _ => false
  | .shflx _ _ _ _ _ _ => false
  | .bcast _ _ _ _ _ _ => false
  | .voteAny _ _ _ _ => false
  | .voteAll _ _ _ _ => false
  | .voteBal _ _ _ _ => false
  | .voteEq _ _ _ _ => false
  | .redadd _ _ _ _ => false
  | .redmin _ _ _ _ => false
  | .redmax _ _ _ _ => false
  | .redand _ _ _ _ => false
  | .redor _ _ _ _ => false
  | .redxor _ _ _ _ => false
  | .scanadd _ _ _ _ => false
  | .scanaddx _ _ _ _ => false
  | .xmatch _ _ _ _ => false
  | .ld _ _ _ _ _ _ _ _ => false
  | .st _ _ _ _ _ _ _ _ => true
  | .atom _ _ _ _ _ _ _ _ => true
  | .fence _ _ => false
  | .publish _ _ _ => true
  | .berthSet _ _ _ => true
  | .berthClr _ _ => true
  | .ldt _ _ _ _ _ => true
  | .stt _ _ _ _ _ => true
  | .lndInit _ _ _ _ => true
  | .lndExpectIn _ _ _ _ => true
  | .lndExpectOut _ _ _ _ => true
  | .lndArrive _ _ _ _ => true
  | .lndWait _ _ _ _ => false
  | .lndTest _ _ _ _ => false
  | .strmSet _ _ _ => true
  | .strmStop _ _ => true
  | .fcopy _ _ _ _ _ => true
  | .fgath _ _ _ _ _ => true
  | .fscat _ _ _ _ _ => true
  | .fatom _ _ _ _ _ => true
  | .fput _ _ _ _ _ => true
  | .fputs _ _ _ _ _ => true
  | .fget _ _ _ _ _ => true
  | .collAllred _ _ _ _ _ => true
  | .collAllgath _ _ _ _ _ => true
  | .collRedscat _ _ _ _ _ => true
  | .collBcast _ _ _ _ _ => true
  | .collCbar _ _ _ _ _ => true
  | .nmc _ _ _ _ => true
  | .fpref _ _ _ _ => true
  | .fcancel _ _ _ => true
  | .mma _ _ _ _ _ _ _ _ _ => true
  | .movts _ _ _ => true
  | .movst _ _ _ => false
  | .accz _ _ => true
  | .mchk _ _ => true
  | .tcvt _ _ _ _ _ => true
  | .tzero _ _ => true
  | .accst _ _ _ _ _ _ _ _ _ _ _ => true
  | .accld _ _ _ _ => true
  | .trap _ _ => false
  | .rteRetry _ => false
  | .rteCommit _ => false
  | .rteSkip _ => false
  | .brk _ _ => false
  | .csrr _ _ _ => false
  | .csrw _ _ _ => true
  | .csrs _ _ _ => true
  | .csrc _ _ _ => true
  | .launch _ _ _ _ => true
  | .issueOpportunity _ => false
  | .runEnd => false
  | .loadReturn _ _ => false
  | .storePerform _ => false
  | .vaultStoreHomeArrival _ _ => false
  | .atomHomeApply _ => false
  | .atomReplyReturn _ _ => false
  | .landingUpdateApply _ => false
  | .streamElementFetch _ _ _ => false
  | .tileOpStart _ _ => false
  | .mmaTwinEngage _ => false
  | .tileOpComplete _ _ => false
  | .engineTransferPart _ _ _ => false
  | .faultQueueRecordWrite _ _ => false
  | .fqResolveResume _ _ => false
  | .fqResolveUnresolvable _ _ => false
  | .engineCommandComplete _ _ => false
  | .fatomPerform _ _ => false
  | .nmcRun _ _ => false
  | .cbarArrival _ _ => false
  | .ticketedRequestArrival _ => false
  | .fabricAckReceive _ _ _ => false
  | .handlerEntry _ => false
  | .deferredTrapEntry _ => false
  | .rendezvousTimeout _ _ => false
  | .templateCrewCreate _ _ => false
  | .imageTake _ => false
  | .doorbellWrite _ _ _ _ => false
  | .recordAdmission _ _ => false
  | .blockAssign _ => false
  | .blockDispatch _ => false
  | .cargoStaging _ => false
  | .blockWriteback _ => false
  | .blockRetirement _ => false
  | .launchCompletion _ => false
  | .schedQdesc _ _ => false
  | .schedQstop _ _ => false
  | .balanceExchange _ => false
  | .quantumExpiry _ => false
  | .candidateReserve _ _ => false
  | .freezeSignal _ => false
  | .capture _ => false
  | .contextSave _ => false
  | .restore _ _ => false
  | .manifestReplayStep _ => false
  | .watchdog _ => false
  | .shadowCompare _ => false
  | .shadowTimeout _ => false
  | .sactKillBlock _ => false
  | .sactKillContext _ => false
  | .pwaysWrite _ _ => false
  | .pwaysChangeComplete _ => false
  | .registerWrite _ _ _ => false
  | .resizeMove _ => false
  | .interruptSourceEnable _ _ => false
  | .hostMemoryAccess _ => false
  | .pcieInboundWrite _ _ => false
  | .ideIntegrityFailure _ => false
  | .migrationCut _ => false
  | .flitSend _ => false
  | .keyInstall _ _ _ _ _ => false
  | .flitIdleReceive _ _ => false
  | .flitDataReceive _ _ => false
  | .flitOpenReceive _ _ => false
  | .flitMarkerReceive _ _ => false
  | .flitCutReceive _ _ => false
  | .flitAbortReceive _ _ => false
  | .linkRetrain _ => false
  | .linkLaneLoss _ _ => false
  | .dieBridgeFailure _ => false
  | .sliceTrip _ _ => false
  | .patrolRead _ _ => false
  | .hbmtest _ _ => false
  | .logread _ _ => false
  | .powerPstate _ => false
  | .powerGate _ => false
  | .fwstage _ => false
  | .fwactivate => false
  | .bind _ _ _ _ => false
  | .release _ _ => false
  | .portmode _ _ _ => false
  | .coldReset _ => false
  | .measurementRequest _ _ _ _ => false
  | .debugUnlock _ _ => false
  | .illegalOpcodeWord _ => false
  | .flitInvalidTypeReceive _ _ => false
  | .linkTrained _ _ _ => false
  | .spdmSessionEstablish _ _ _ _ => false
  | .spdmSessionEnd _ => false
  | .tdispRequest _ _ => false
  | .debugBlockResume _ _ => false
  | .mailboxInvalidCode _ _ _ => false
  | .contextCreate _ _ _ _ => false
  | .contextDestroy _ => false
  | .rosterEstablish _ _ _ => false
  | .ethernetFrameReceive _ _ => false

end Sys2Proof.Machine
end

