-- ==== Sys2Proof/Machine/Ops.lean ====
section
/-! DEFINITION. The shared operations of the words: register writes and queue pushes (R43-R46, R225), results that arrive later (R246), the end of a launch (R350), taking a trap as one operation (R360-R372), and the return beside it (R375, R376). -/

namespace Sys2Proof.Machine

/-! ### Register writes -/

/-- A write of a template-backed register noted: the first one is a register copy fault (R225); bit k is vk, bit 32 + k is sk. -/
def Crew.noteWrite (w : Crew) (bit : Nat) : Crew :=
  { w with
    wrote := w.wrote ||| (1#64 <<< bit)
    shared := w.shared &&& ~~~(1#64 <<< bit)
    regs := if w.shared.getLsbD bit then { w.regs with cowcnt := w.regs.cowcnt + 1 } else w.regs }

/-- A write of a vector destination noted. -/
def Crew.noteDst (w : Crew) : Dst → Crew
  | .v k => w.noteWrite k
  | _ => w

/-- The current contents of a destination's register; 0 tagged RAW for the queue alone (R44). -/
def Lane.readDst (l : Lane) : Dst → RegVal
  | .v k => l.getV k
  | .h k => l.getH k
  | _ => {}

/-- The lane with a destination's register written (R46). -/
def Lane.writeDst (l : Lane) (x : RegVal) : Dst → Lane
  | .v k => l.setV k x
  | .h k => l.setH k x
  | _ => l

/-- A scalar written by the word of a context (R31, R112). -/
def State.writeS (s : State) (c : Ctx) (f : BitVec 5) (x : RegVal) : State :=
  s.modCrew c.cid fun w =>
    let w := if c.handler && 28 ≤ f.toNat then w else w.noteWrite (32 + f.toNat)
    { w with regs := w.regs.setS c.handler f.toNat x }

/-- One lane of a crew changed. -/
def Crew.modLane (w : Crew) (l : Nat) (f : Lane → Lane) : Crew :=
  { w with regs := w.regs.setLane l (f (w.regs.lane l)) }

/-- The push and the destination write of one word in one lane: its result where it has one, else the entry of R44. -/
def Ctx.pushLane (c : Ctx) (dst : Dst) (res : List (Nat × RegVal)) (w : Crew) (l : Nat) : Crew :=
  match tget res l with
  | some x => w.modLane l fun ln => (ln.writeDst x dst).pushQ x
  | none => w.modLane l fun ln => ln.pushQ ((c.regs.lane l).readDst dst)

/-- The results of a word written and pushed in every lane of its group (R43, R44, R46), and the fill count raised (R45). -/
def State.pushWrite (s : State) (c : Ctx) (d : BitVec 6) (res : List (Nat × RegVal)) : State :=
  let dst := Dst.ofCode d
  s.modCrew c.cid fun w =>
    let w := if res.isEmpty then w else w.noteDst dst
    let w := (c.crew.groupLanes c.grp).foldl (c.pushLane dst res) w
    w.modGroup c.grp.id fun g => { g with fill := min 16 (g.fill + 1) }

/-- A predicate written in lanes (R50). -/
def State.writeP (s : State) (c : Ctx) (p : Nat) (res : List (Nat × Bool)) : State :=
  s.modCrew c.cid fun w => res.foldl (fun w x => w.modLane x.1 fun ln => ln.setP p x.2) w

/-- A vector register written in lanes with no push: the link of CALL and JMPI.L, and MOV-like side results (R122, R123). -/
def State.writeV (s : State) (c : Ctx) (k : Nat) (res : List (Nat × RegVal)) : State :=
  if res.isEmpty then s
  else s.modCrew c.cid fun w => res.foldl (fun w x => w.modLane x.1 fun ln => ln.setV k x.2) (w.noteWrite k)

/-- A crew's control registers and scalars changed as one record. -/
def State.modRegs (s : State) (cid : Nat) (f : CrewRegs → CrewRegs) : State :=
  s.modCrew cid fun w => { w with regs := f w.regs }

/-- The counters of %cnt changed (R72). -/
def State.count (s : State) (cid : Nat) (f : Counts → Counts) : State :=
  s.modRegs cid fun r => { r with cnt := f r.cnt }

/-! ### Results that arrive later (R25, R246, R264) -/

/-- A register value that waits for an operation receives its bits and tag, and waits on until the whole operation has returned. -/
def RegVal.deliver (id : Nat) (x r : RegVal) : RegVal := if r.pend = some id then { x with pend := some id } else r

/-- A register value that waited for an operation waits no longer. -/
def RegVal.settle (id : Nat) (r : RegVal) : RegVal := if r.pend = some id then { r with pend := none } else r

/-- Every register and queue entry of a lane changed. -/
def Lane.mapRegs (f : RegVal → RegVal) (l : Lane) : Lane := { l with v := l.v.map f, h := l.h.map f, q := l.q.map f }

/-- The value of one lane of an operation delivered. -/
def Crew.deliver (w : Crew) (id lane : Nat) (x : RegVal) : Crew := w.modLane lane (Lane.mapRegs (RegVal.deliver id x))

/-- An operation's values all delivered: its registers wait no longer. -/
def Crew.settle (w : Crew) (id : Nat) : Crew :=
  { w with regs := { w.regs with
      lanes := w.regs.lanes.map (Lane.mapRegs (RegVal.settle id))
      s := w.regs.s.map (RegVal.settle id)
      hs := w.regs.hs.map (RegVal.settle id) } }

/-- A scalar result delivered. -/
def Crew.deliverS (w : Crew) (id : Nat) (x : RegVal) : Crew :=
  { w with regs := { w.regs with
      s := w.regs.s.map (RegVal.deliver id x)
      hs := w.regs.hs.map (RegVal.deliver id x) } }

/-- A change of a crew's registers made in its shadow too, which may hold registers that wait for the same operation (R464, log 12). -/
def State.modBoth (s : State) (cid : Nat) (f : Crew → Crew) : State :=
  match (tget s.crews cid).bind (·.shadow) with
  | some p => if p.isShadow then s.modCrew cid f else (s.modCrew cid f).modCrew p.partner f
  | none => s.modCrew cid f

/-! ### Streams -/

/-- The issue streams that carry groups for which p holds become free. -/
def State.dropStreams (s : State) (p : Nat → Nat → Bool) : State :=
  { s with cores := s.cores.map fun e => (e.1, { e.2 with streams := e.2.streams.filter fun x => !p x.2.1 x.2.2 }) }

/-! ### The end of a launch (R350) -/

/-- One resident block of a failed launch: halted, its crews ended, so that it retires without writeback. -/
def State.stopBlock (s : State) (bid : Nat) : State :=
  let s := s.modBlock bid fun b => { b with halted := true, killed := true, brk := false, state := .running, pause := none }
  let s := (s.crewsOf bid).foldl (fun s c => s.modCrew c.id fun w =>
    { w with groups := [], handler := none, deferred := [], streams := [], frozen := false, replay := []
             shadow := w.shadow.map fun p => { p with held := none, granted := false, lvq := [], trail := [] } }) s
  s.dropStreams fun cid _ => ((tget s.crews cid).map (·.block)) == some bid

/-- The blocks of a launch that some table still holds. -/
def State.blocksOf (s : State) (lid : Nat) : List Block := (s.blocks.filter fun p => p.2.launch == lid).map (·.2)

/-- Whether a core, or the twin that it leads, has a block of a launch in its block queue, or holds one (R232). -/
def State.coreHolds (s : State) (core lid : Nat) : Bool :=
  let lead := if (s.recordOf lid).twin then core / 2 * 2 else core
  s.blocks.any fun p => p.2.launch == lid && !p.2.template
    && ((p.2.state != .assigned && p.2.sides.any fun sd => sd.core == core) || (s.core lead).blockQueue.contains p.1)

/-- The cores drop their copies of images and segments of launches of which they hold and await no block (R232). -/
def State.dropCopies (s : State) : State :=
  { s with cores := s.cores.map fun e => (e.1, { e.2 with copies := e.2.copies.filter (s.coreHolds e.1) }) }

/-- Whether a status replaces that of a launch that is COMPLETING already: a queue's stop, a context's kill and its loss reach a launch in any state before COMPLETE (R350, R404). -/
def Status.overrides (st : Status) : Bool := st == .aborted || st == .contextLost

/-- The entries for which p holds leave every duplicate filter (R387). -/
def State.dropFilters (s : State) (p : Nat → Bool) : State :=
  { s with slices := s.slices.map fun x => (x.1, { x.2 with
      l2Filter := x.2.l2Filter.filter fun e => !p e.ticket
      mscFilter := x.2.mscFilter.filter fun e => !p e.ticket
      vaultFilter := x.2.vaultFilter.filter fun e => !p e.ticket
      collFilter := x.2.collFilter.filter fun e => !p e.ticket }) }

/-- The keys of a crew's tickets in the filters but for their sequence: its partition, its context and its own key (R385, log 51). -/
def State.crewTag (s : State) (c : Crew) : Nat :=
  s.pidOf c.launch * 2 ^ 64 + ((tget s.launches c.launch).map (·.ctx)).getD 0 % 2 ^ 32 + c.key.toNat * 2 ^ 32

/-- The filter entries of crews that have ended leave (R387). -/
def State.dropTickets (s : State) (cs : List Crew) : State :=
  let tags := cs.map s.crewTag
  s.dropFilters fun t => tags.contains (t / 2 ^ 64 * 2 ^ 64 + t % 2 ^ 48)

/-- A launch leaves for COMPLETING with a status: blocks not yet dispatched and saved ones are dropped, with the filter entries of their crews, resident ones stop (R350, R387). -/
def State.endLaunch (s : State) (lid : Nat) (st : Status) (detail : Nat := 0) : State :=
  match tget s.launches lid with
  | none => s
  | some l =>
    if l.phase == .complete || (l.phase == .completing && !st.overrides) then s
    else
      let s := s.modLaunch lid fun l => { l with phase := .completing, status := st, detail := detail, deps := [] }
      let gone := ((s.blocksOf lid).filter fun b => b.state == .assigned).map (·.id)
      let here := ((s.blocksOf lid).filter fun b => b.state != .assigned && b.state != .retiring).map (·.id)
      let s := s.dropTickets (s.saved.flatMap fun u => u.crews.filter fun c => c.launch == lid)
      let s := { s with
        blocks := s.blocks.filter fun p => !gone.contains p.1
        crews := s.crews.filter fun p => !gone.contains p.2.block
        stageGroups := s.stageGroups.filter fun p => p.2.blocks.any fun b => !gone.contains b
        cores := s.cores.map fun e => (e.1, { e.2 with
          blockQueue := e.2.blockQueue.filter fun b => !gone.contains b, reservedBy := e.2.reservedBy.filter fun r => r.1 != lid })
        freezing := (s.freezing.map fun u : FreezingUnit => { u with blocks := u.blocks.filter fun b => !here.contains b }).filter fun u => !u.blocks.isEmpty
        saved := (s.saved.map fun u => { u with
          blocks := u.blocks.filter fun b => b.launch != lid
          crews := u.crews.filter fun c => c.launch != lid
          groups := u.groups.filter fun g => g.launch != lid }).filter fun u => !u.blocks.isEmpty }
      (here.foldl State.stopBlock s).dropCopies

/-! ### Traps: kill, halt, entry (R360-R372) -/

/-- The trap codes (R359). -/
def Cause.code : Cause → Nat
  | .illegal => 1 | .illop => 2 | .tag => 3 | .fpx => 4 | .align => 5 | .bounds => 6 | .prot => 7 | .lane => 8
  | .rvto => 9 | .runlen => 0x0A | .freeze => 0x0B | .stream => 0x0C | .landing => 0x0D | .mcheck => 0x0E
  | .shadow => 0x0F | .poison => 0x10 | .ndet => 0x11 | .trap => 0x12 | .brk => 0x13 | .watchdog => 0x1F

/-- The bit of HCAUSE that lets a launch keep a cause for itself (R344). -/
def Cause.hcauseBit : Cause → Option Nat
  | .fpx => some 0 | .trap => some 1 | .lane => some 2 | .stream => some 3 | .landing => some 4
  | _ => none

/-- Whether a trap goes to the user handler (R360). -/
def userRoute (r : Record) (k : Cause) : Bool :=
  r.handler ≠ 0 && match k.hcauseBit with
    | some b => r.hcause.getLsbD b
    | none => false

/-- INFO of a killed-block record (R456). -/
def killInfo (t : TrapInfo) (serving : Nat) (ended : Bool) : DWord :=
  BitVec.ofNat 64 (t.cause.code + serving % 128 * 2 ^ 8 + (if ended then 2 ^ 15 else 0)
    + bitsAt t.info.toNat 32 8 * 2 ^ 16 + bitsAt t.info.toNat 40 8 * 2 ^ 24 + bitsAt t.info.toNat 0 32 * 2 ^ 32)

/-- A trap that has no handler to enter kills the block: a TYPE 0x0E record, and the launch completes with FAULT (R362, R363). -/
def State.killBlock (s : State) (c : Crew) (t : TrapInfo) (serving : Nat := 0) (ended : Bool := false) (aval : Bool := true) (guest : Bool := false) : State :=
  let l := (tget s.launches c.launch)
  let s := s.report [s.pidOf c.launch] {
    type := 0x0E, fatal := true, aval := aval, slice := c.core / 32, core := c.core % 32
    ctx := (l.map (·.ctx)).getD 0, launch := (l.map (·.lid)).getD 0
    addr := if ended then t.addr else t.packet, info := killInfo t serving ended } (if guest then .guest else .plain)
  (s.stopBlock c.block).endLaunch c.launch .fault

/-- A deferred trap owed to a crew (R361); one owed to a crew that has ended kills the block (R362). -/
def State.owe (s : State) (cid : Nat) (d : Deferred) : State :=
  match tget s.crews cid with
  | none => s
  | some c =>
    if ((tget s.blocks c.block).map (·.killed)).getD true then s
    else if c.groups.isEmpty then
      s.killBlock c { cause := d.cause, packet := 0, word := 0, mask := 0, addr := d.addr.getD 0, info := d.info } 0 true d.addr.isSome d.guest
    else
      let d := { d with duringHalt := ((tget s.blocks c.block).map (·.halted)).getD false }
      s.modCrew cid fun w => { w with deferred := w.deferred ++ [d] }

/-- The start of a rendezvous wait, a time of the core's %clk, turned into the cycles waited so far, and back: while its block is halted
a group keeps the second, so that the halt does not count toward R166 (R365). -/
def Group.flipSince (g : Group) (clk : Nat) : Group := { g with since := g.since.map fun t => clk - t }

/-- The block halt: every group of the block but the trapping one stops at its next chain-group boundary (R364). A broadcast to a block that is not
halted begins the counts of R365 anew. -/
def State.haltBlock (s : State) (bid cid gid : Nat) : State :=
  let old := ((tget s.blocks bid).map (·.halted)).getD false
  let s := s.modBlock bid fun b => { b with halted := true }
  (s.crewsOf bid).foldl (fun s c => s.modCrew c.id fun w =>
    { w with skids := if old then w.skids else 0, groups := w.groups.map fun g =>
        if (w.id == cid && g.id == gid) || g.halted then g else { g.flipSince (s.core w.core).clk with halted := true, skid := 0 } }) s

/-- The release of the block halt (R365, R375). -/
def State.releaseBlock (s : State) (bid : Nat) : State :=
  let s := s.modBlock bid fun b => { b with halted := false, brk := false }
  (s.crewsOf bid).foldl (fun s c => s.modCrew c.id fun w =>
    { w with skids := 0, groups := w.groups.map fun g =>
        if g.halted then { g.flipSince (s.core w.core).clk with halted := false, skid := 0 } else { g with skid := 0 } }) s

/-- Whether a handler runs in the block. -/
def State.blockInHandler (s : State) (bid : Nat) : Bool := (s.crewsOf bid).any fun c => c.handler.isSome

/-- Whether a group of the block stands between the words of a chain group: it is stopped only at the end of that (R16). -/
def State.midChain (s : State) (bid : Nat) : Bool := (s.crewsOf bid).any fun c => c.groups.any fun g => g.snap.isSome && g.trap.isNone

/-- %tskid: the chain groups that the trapping crew's other groups issued after the broadcast, and the largest number that a sibling crew's groups
issued (R365), shadows apart (R463); a number above 255 reads as 255 (log 9). -/
def State.tskidOf (s : State) (c : Crew) (gid : Nat) : DWord :=
  let own := c.skids - ((c.group? gid).map (·.skid)).getD 0
  let sib := ((s.crewsOf c.block).filter fun w => w.id != c.id && !w.isShadow).map (·.skids)
  BitVec.ofNat 64 (min 255 own + 256 * min 255 (sib.foldl max 0))

/-- The size FS of a crew's trap frame (R370). -/
def frameSize (w : Nat) : Nat := 256 + 136 * w

/-- %tframe: where a crew's trap frame lies (R370, log 17). -/
def State.frameAddr (s : State) (c : Crew) : DWord :=
  let r := s.recordOf c.launch
  if r.handler ≠ 0 then
    BitVec.ofNat 64 (r.trapa + (if c.side = 0 then c.idx else c.idx - r.crews / 2) * frameSize c.width)
  else
    let area := (((tget s.launches c.launch).bind fun l => tget s.contexts l.ctx).map (·.area)).getD 0
    (area + BitVec.ofNat 64 (Config.frameOffset c.key.toNat)) ||| 1#64

/-- The bytes of a trap frame (R370). -/
def frameBytes (c : Crew) (g : Group) (t : TrapInfo) (supervisor : Bool) (tskid : DWord) : List Byte :=
  let lanes := c.groupLanes g
  let ent (l k : Nat) : RegVal := if lanes.contains l && k ≤ g.fill then (c.regs.lane l).getQ k else {}
  let w64 (x : DWord) : List Byte := bytesOfNat 8 x.toNat
  w64 t.packet ++ w64 t.mask ++ w64 t.addr ++ w64 t.info
    ++ bytesOfNat 8 (t.cause.code + 2 ^ 8 * (t.word + if t.defer then 4 else 0) + 2 ^ 16 * g.fill
        + 2 ^ 24 * t.flags.toNat + 2 ^ 32 * if supervisor then 1 else 0)
    ++ w64 t.amask ++ w64 (maskOf lanes) ++ w64 g.runStart ++ w64 tskid ++ List.replicate 184 0
    ++ (List.range c.width).flatMap (fun l => (List.range 16).flatMap fun k => w64 (ent l (k + 1)).bits)
    ++ (List.range c.width).flatMap fun l =>
        bytesOfNat 8 (packElems 4 ((List.range 16).map fun k => (ent l (k + 1)).tag.code))

/-- A trap frame written, in the save area of a world sealed (R424); none when it cannot be (R363, R370). -/
def State.writeFrame (s : State) (c : Crew) (bs : List Byte) : Option State :=
  let a := s.frameAddr c
  if a.getLsbD 0 then s.writeSaved c.launch (a.toNat - 1) bs
  else match tget s.blocks c.block with
    | none => none
    | some b => if a.toNat + bs.length ≤ b.spadSize then some (s.spadWrite c.block c.side a.toNat bs) else none

/-- The shadow of a lead brought to the lead's own position (log 12). -/
def State.syncShadow (s : State) (cid : Nat) : State :=
  match tget s.crews cid with
  | none => s
  | some c =>
    match c.shadow with
    | none => s
    | some p =>
      if p.isShadow then s
      else
        let s := s.modCrew cid fun w => { w with shadow := some { p with held := none, granted := false } }
        let s := s.dropStreams fun k _ => k == p.partner
        s.modCrew p.partner fun w => { w with
          regs := c.regs, groups := c.groups, handler := c.handler, shared := c.shared, wrote := c.wrote
          shadow := w.shadow.map fun q => { q with lvq := [], trail := [] } }

/-- FPX: the pending result and the operands in h0-h3 of the lanes that were active (R372). -/
def Lane.fpxH (ln : Lane) (x : RegVal × RegVal × RegVal × RegVal) : Lane :=
  (((ln.setH 0 x.1).setH 1 x.2.1).setH 2 x.2.2.1).setH 3 x.2.2.2

/-- Taking a trap: the frame is written, 0x400-0x406 and for FPX h0-h3 are set, the result queue is emptied, and the group starts a new
run at the handler with every unexited lane active and no guard (R360, R368, R370, R372); with no handler to enter, the block dies (R363). -/
def State.enterHandler (s : State) (cid gid : Nat) (t : TrapInfo) : State :=
  match tget s.crews cid with
  | none => s
  | some c =>
    match c.group? gid with
    | none => s
    | some g =>
      let r := s.recordOf c.launch
      let user := userRoute r t.cause
      let target := if user then r.handler else c.regs.shandler
      let tskid := s.tskidOf c gid
      if target = 0 then s.killBlock c t
      else match s.writeFrame c (frameBytes c g t (!user) tskid) with
        | none => s.killBlock c t
        | some s1 =>
          let lanes := c.groupLanes g
          let serving : Serving := {
            supervisor := !user, info := t, gmask := maskOf lanes, runStart := g.runStart, final := g.final
            atEnd := g.atEnd, guards := g.guards, transfer := g.transfer, tileCode := g.tileCode, trailer := g.trailer
            yielding := g.yielding, joined := g.joined }
          let s2 := s1.modCrew cid fun w =>
            let w := { w with handler := some serving, regs := { w.regs with treg := {
              tcause := BitVec.ofNat 64 t.cause.code, tpc := t.packet, tmask := t.mask, taddr := t.addr
              tskid := tskid, tinfo := t.info, tframe := s.frameAddr c } } }
            let w := t.fpx.foldl (fun w x => w.modLane x.1 fun ln => ln.fpxH x.2) w
            let w := lanes.foldl (fun w l => w.modLane l fun ln => { ln with q := [] }) w
            w.modGroup gid fun g => { id := g.id, lanes := g.lanes, packet := target, runStart := target
                                      passed := g.passed, owed := g.owed, yielded := g.yielded }
          let s2 := if !user && t.cause == .brk then s2.modBlock c.block fun b => { b with brk := true } else s2
          let s3 := s2.dropStreams fun k _ => ((tget s.crews k).map (·.block)) == some c.block
          s3.syncShadow cid

/-- Which of a block's pending traps is entered first: the lowest %crew; within a crew more lanes, then the lower packet (R366). -/
def trapBefore (a b : Crew × Group) : Bool :=
  if a.1.idx ≠ b.1.idx then a.1.idx < b.1.idx
  else
    let n := (a.1.groupLanes a.2).length
    let m := (b.1.groupLanes b.2).length
    if n ≠ m then m < n else a.2.packet.toNat < b.2.packet.toNat

/-- The pending trap of a block that is entered next, with its crew and group. -/
def State.nextTrap (s : State) (bid : Nat) : Option (Crew × Group × TrapInfo) :=
  let ps := (s.crewsOf bid).flatMap fun c => (c.groups.filter fun g => g.trap.isSome).map fun g => (c, g)
  match ps with
  | [] => none
  | p :: rest =>
    let m := rest.foldl (fun m x => if trapBefore x m then x else m) p
    m.2.trap.map fun t => (m.1, m.2, t)

/-- Whether every entry of a group's result queue has its value (R368 step 3). -/
def Crew.queueReady (c : Crew) (g : Group) : Bool :=
  (c.groupLanes g).all fun l => ((c.regs.lane l).q.take g.fill).all fun x => x.pend.isNone

/-- Whether the agenda goes on with a chain group of a halted group of the block: its skid is not over (R364). -/
def State.skidDue (s : State) (bid : Nat) : Bool :=
  let halted (r : StreamRef) : Bool := match s.carried r with
    | none => false
    | some (cid, gid) => match tget s.crews cid with
      | none => false
      | some c => c.block == bid && match c.group? gid with
        | none => false
        | some g => g.halted && g.skid < 16
  match s.agenda with
  | .issue r :: _ => halted r
  | .pair a b :: _ => halted a || halted b
  | _ => false

/-- Whether something holds back the entry of the block's next pending trap: a handler that runs, a chain group that is being issued, or a skid that is not over (R16, R364, R366). -/
def State.entryHeld (s : State) (bid : Nat) : Bool := s.blockInHandler bid || s.midChain bid || s.skidDue bid

/-- The block's next pending trap: the block is halted, and the handler is entered once the group's queue entries have their values (R366, R368). -/
def State.settleTraps (s : State) (bid : Nat) : State :=
  if s.entryHeld bid then s
  else match s.nextTrap bid with
    | none => s
    | some (c, g, t) =>
      let s := s.haltBlock bid c.id g.id
      if c.queueReady g then s.enterHandler c.id g.id t else s

/-- A trap raised by a group: in handler mode it kills the block (R363, R369); else it is recorded, the block is halted, and the
handler is entered as soon as R366 and R368 let it be. -/
def State.raiseTrap (s : State) (cid gid : Nat) (t : TrapInfo) : State :=
  match tget s.crews cid with
  | none => s
  | some c =>
    match c.group? gid with
    | none => s
    | some g =>
      if c.isShadow then (s.modGroup cid gid fun g => { g with wait := some .follow }).dropStreams fun k x => k == cid && x == gid
      else if c.inHandler g then s.killBlock c t ((c.handler.map fun h => h.info.cause.code).getD 0)
      else
        let clk := (s.core c.core).clk
        let s := s.modGroup cid gid fun g => { g with trap := some t, trapAt := clk, snap := none, wait := none }
        (s.haltBlock c.block cid gid).settleTraps c.block

/-! ### Groups at the end of a run (R119, R213) -/

/-- Whether a group stands at a run start. -/
def Group.atStart (g : Group) : Bool := g.final.isNone && !g.atEnd && g.trap.isNone && g.word == 0

/-- The smaller of two numbers where both are there (R218). -/
def optMin : Option Nat → Option Nat → Option Nat
  | some a, some b => some (min a b)
  | some a, none => some a
  | none, b => b

/-- Two groups at one run start become one: the count is the higher of the two (R213, R218). The spec is silent on a YIELD marker that only one of them
holds: the merged group is then not marked (log 52). -/
def Group.merge (g h : Group) : Group :=
  { g with
    lanes := g.lanes ||| h.lanes
    passed := max g.passed h.passed
    owed := optMin g.owed h.owed
    trailer := g.trailer ++ h.trailer
    yielded := g.yielded && h.yielded
    halted := g.halted || h.halted
    skid := max g.skid h.skid }

/-- A group put into its crew: merged into a group at the same run start, where there is one on the same side of the handler (R213). -/
def Crew.addGroup (c : Crew) (g : Group) : Crew :=
  match c.groups.find? fun h => h.atStart && h.packet == g.packet && c.inHandler h == c.inHandler g with
  | some h => c.modGroup h.id fun h => h.merge g
  | none => { c with groups := c.groups ++ [g] }

/-- A group that comes back from a handler: at a run start it merges as any other, within a run it stands alone (R213). -/
def Crew.comeBack (c : Crew) (g : Group) : Crew := if g.atStart then c.addGroup g else { c with groups := c.groups ++ [g] }

/-- The different packets that lanes go to, in the order of the lowest lanes. -/
def nextPackets (next : List (Nat × DWord)) : List DWord := (next.map (·.2)).eraseDups

/-- Groups that leave a run: one for each next packet, the first with the old number (R119, R213). A YIELD of the run sets their marker now (R129). -/
def splitGroups (g : Group) (next : List (Nat × DWord)) : List DWord → Nat → Nat → List Group
  | [], _, _ => []
  | p :: ps, id, fresh =>
    { id := id, lanes := maskOf ((next.filter fun x => x.2 == p).map (·.1)), packet := p, runStart := p
      trailer := g.trailer, passed := g.passed, owed := g.owed, yielded := g.yielding, halted := g.halted, skid := g.skid }
      :: splitGroups g next ps fresh (fresh + 1)

/-- A group leaves its run: exiting lanes exit, every other lane goes to its next packet, the queue is emptied, and groups split and
merge (R21, R45, R119, R130, R213). A crew whose last lane exits ends, and its operand queues with it (R239). -/
def State.leaveRun (s : State) (cid : Nat) (g : Group) (exits : List Nat) (next : List (Nat × DWord)) : State :=
  let ps := nextPackets next
  let n := s.nextId
  let s := { s with nextId := n + ps.length }
  let s := s.modCrew cid fun c =>
    let c := (exits ++ next.map (·.1)).foldl (fun c l => c.modLane l fun ln => { ln with q := [] }) c
    let c := exits.foldl (fun c l => c.modLane l fun ln => { ln with exited := true }) c
    let c := { c with groups := c.groups.filter fun h => h.id != g.id }
    let c := (splitGroups g next ps g.id n).foldl Crew.addGroup c
    if c.groups.isEmpty then { c with streams := [] } else c
  s.dropStreams fun k h => k == cid && h == g.id

/-! ### The returns (R375, R376) -/

/-- The bytes of a crew's trap frame as they stand now (R370). -/
def State.readFrame (s : State) (c : Crew) : List Byte :=
  let a := c.regs.treg.tframe
  let n := frameSize c.width
  if a.getLsbD 0 then (s.readSaved c.launch (a.toNat - 1) n).getD (List.replicate n 0)
  else s.placeBytes c.core (.spad c.block c.side a.toNat) n

/-- The errors that a read of a crew's trap frame detects (R370, R460). -/
def State.detectFrame (s : State) (c : Crew) : State :=
  let a := c.regs.treg.tframe
  if a.getLsbD 0 then s.detectVirtual (s.pidOf c.launch) (a.toNat - 1) (frameSize c.width)
  else s.detect c.core (s.pidOf c.launch) c.launch (.spad c.block c.side a.toNat) (frameSize c.width)

/-- The queue of a lane that a frame holds (R370); bits 63:32 of an entry with a 32-bit tag are zero whatever the handler wrote there (R53). -/
def frameQueue (f : List Byte) (w fill l : Nat) : List RegVal :=
  let tags := leAt f (256 + 128 * w + 8 * l) 8
  (List.range fill).map fun k => mkVal (Tag.ofCode (bitsAt tags (4 * k) 4)) (leAt f (256 + 128 * l + 8 * k) 8)

/-- RestoreQueue: the entries of GMASK's lanes from the frame, and the fill count (R375). -/
def Crew.restoreQueue (c : Crew) (f : List Byte) (lanes : List Nat) : Crew :=
  let fill := min (leAt f 34 1) 16
  lanes.foldl (fun c l => c.modLane l fun ln => { ln with q := frameQueue f c.width fill l }) c

/-- The group position after a word: the next word, or the end of the run after its final packet (R15, R21). The guards count the word (R124). -/
def Group.pass (g : Group) : Group :=
  let g := { g with guards := (g.guards.map fun d : Guard => { d with left := d.left - 1 }).filter fun d => d.left != 0 }
  if g.word < 2 then { g with word := g.word + 1 }
  else if g.final == some g.packet then { g with word := 0, atEnd := true }
  else { g with word := 0, packet := g.packet + 1 }

/-- The commit of a word that pushes: h0 in the lanes of AMASK, the entry of R44 in the other lanes of GMASK (R375). -/
def Crew.commitPush (c : Crew) (d : BitVec 6) (lanes : List Nat) (amask : DWord) : Crew :=
  let dst := Dst.ofCode d
  let c := if amask == 0 then c else c.noteDst dst
  lanes.foldl (fun c l => c.modLane l fun ln =>
    if amask.getLsbD l then (ln.writeDst (ln.getH 0) dst).pushQ (ln.getH 0) else ln.pushQ (ln.readDst dst)) c

/-- The commit of a word that writes a predicate: bit 0 of h0 (R375). -/
def Crew.commitPred (c : Crew) (p : Nat) (lanes : List Nat) (amask : DWord) : Crew :=
  lanes.foldl (fun c l => c.modLane l fun ln => if amask.getLsbD l then ln.setP p ((ln.getH 0).bits.getLsbD 0) else ln) c

/-- What RTE.COMMIT writes for the word that trapped, with the frame's flags merged; a word that produces no value writes nothing (R375). -/
def Crew.commit (c : Crew) (i : Instr) (flags : Nat) (lanes : List Nat) (amask : DWord) : Crew :=
  let merge (c : Crew) : Crew := { c with regs := { c.regs with fpflags := c.regs.fpflags ||| BitVec.ofNat 64 (flags % 32) } }
  match i with
  | .vcmp _ p _ _ _ _ => merge (c.commitPred p.toNat lanes amask)
  | i => match pushes i with
    | some d => merge (c.commitPush d lanes amask)
    | none => c

/-- Whether a word pushes one entry (R43). -/
def doesPush (i : Instr) : Bool := (pushes i).isSome

/-- The deferred trap of a crew as it is taken at a group: it names the group's chain group, which has not issued (R361). -/
def Crew.deferredAt (c : Crew) (g : Group) (d : Deferred) : TrapInfo :=
  let m := maskOf (c.activeLanes g)
  { cause := d.cause, packet := g.packet, word := g.word, mask := m, addr := d.addr.getD 0, info := d.info, defer := true, amask := m }

/-- The first deferred trap of a crew that fell due during a halt, and the others. -/
def pullHeld : List Deferred → Option (Deferred × List Deferred)
  | [] => none
  | d :: ds => if d.duringHalt then some (d, ds) else (pullHeld ds).map fun r => (r.1, d :: r.2)

/-- A deferred trap that fell due during a halt becomes pending, in the group of its crew that R366 would enter first among those that may issue; where every group
waits, and for one that fell due before the halt, it stays owed to the first chain group that the crew issues (R361, R366). -/
def State.pendDeferred (s : State) (bid : Nat) : State :=
  (s.crewsOf bid).foldl (fun s c =>
    match pullHeld c.deferred, c.groups.filter fun g => !g.atEnd && g.snap.isNone && g.joined.isNone && g.wait.isNone with
    | some (d, rest), g :: gs =>
      if c.handler.isSome || c.groups.any fun g => g.trap.isSome then s
      else
        let h := gs.foldl (fun m g => if trapBefore (c, g) (c, m) then g else m) g
        (s.modCrew c.id fun w => { w with deferred := rest }).modGroup c.id h.id fun g => { g with trap := some (c.deferredAt h d) }
    | _, _ => s) s

/-- A return from the handler, once the crew's stores have performed (R375, R376): the queue comes back from the frame, COMMIT writes the
word's value, handler mode ends, the block is released, and the interrupted group goes on; a pending trap is then entered (R366). A YIELD of the
handler's last run marks the group (R129). -/
def State.returnFrom (s : State) (cid gid : Nat) (form : RteForm) : State :=
  match tget s.crews cid with
  | none => s
  | some c =>
    match c.handler with
    | none => s
    | some h =>
      let f := s.readFrame c
      let lanes := c.groupLanes { id := gid, lanes := h.gmask, packet := 0, runStart := 0 }
      let t := h.info
      let i := match s.fetchWord c.launch t.packet t.word with
        | some w => (match decode w with
          | .ok i => i
          | .error _ => .illegalOpcodeWord w)
        | none => .nop 0
      let again := t.defer || form == .retry
      let runEnd := t.defer && h.atEnd
      let fill := min (leAt f 34 1) 16
      let base : Group := {
        id := gid, lanes := h.gmask, packet := t.packet, word := t.word, runStart := h.runStart, final := h.final
        guards := h.guards, fill := fill, tileCode := h.tileCode, trailer := h.trailer, transfer := h.transfer
        yielded := ((c.group? gid).map (·.yielding)).getD false, yielding := h.yielding, joined := h.joined }
      let done := form == .commit && !again && doesPush i
      let g : Group :=
        if t.cause == .runlen then { id := gid, lanes := h.gmask, packet := t.packet, runStart := t.packet, trailer := h.trailer, yielded := base.yielded }
        else if runEnd then { base with
          packet := h.final.getD t.packet, word := 0, atEnd := true
          transfer := if form == .retry then h.transfer else none }
        else if again then base
        else { base with fill := if done then min 16 (fill + 1) else fill }.pass
      let s := s.modCrew cid fun c =>
        let c := if t.cause == .runlen then lanes.foldl (fun c l => c.modLane l fun ln => { ln with q := [] }) c
                 else c.restoreQueue f lanes
        let c := if form == .commit && !again && t.cause != .runlen then c.commit i (leAt f 35 1) lanes t.amask else c
        ({ c with handler := none, groups := c.groups.filter fun x => h.gmask &&& x.lanes == 0 } : Crew).comeBack g
      let s := s.dropStreams fun k x => k == cid && (c.groups.any fun y => y.id == x && h.gmask &&& y.lanes != 0)
      (((s.releaseBlock c.block).syncShadow cid).pendDeferred c.block).settleTraps c.block

end Sys2Proof.Machine
end

