-- ==== Sys2Proof/Machine/Flags.lean ====
section
/-! DEFINITION. The IEEE flags of a word and the FPX trap (R91, R92, R142, R371, R372). -/

namespace Sys2Proof.Machine

/-- Flags merged into %fpflags (R92). -/
def State.mergeFlags (s : State) (cid : Nat) (f : Flags) : State :=
  s.modRegs cid fun r => { r with fpflags := r.fpflags ||| f.zeroExtend 64 }

/-- The OR of flags. -/
def orFlags : List Flags → Flags
  | [] => 0
  | f :: fs => f ||| orFlags fs

/-- The rounding mode that %fpmode.RM selects (R72). -/
def CrewRegs.rm (r : CrewRegs) : RMode := RMode.ofRM (r.fpmode.extractLsb' 0 2)

/-- %fpmode.FTZ (R72, R90). -/
def CrewRegs.ftz (r : CrewRegs) : Bool := r.fpmode.getLsbD 2

/-- The rounding that F7[6:5] selects (R40). -/
def CrewRegs.roundField (r : CrewRegs) (f : BitVec 2) : RMode :=
  match f.toNat with
  | 0 => r.rm
  | 1 => .rne
  | 2 => .rtz
  | _ => .rdn

/-- A floating-point word's end: FPX when the flags of an active lane meet %fptrap, outside handler mode (R92, R369), with each active
lane's pending result and operands (R372); else the word takes effect and its flags are merged. -/
def Ctx.finishFp (c : Ctx) (flags : List (Nat × Flags)) (pending : List (Nat × (RegVal × RegVal × RegVal × RegVal)))
    (done : State) : WordResult :=
  let all := orFlags (flags.map (·.2))
  let en : Flags := c.regs.fptrap.extractLsb' 0 5
  if !c.handler && all &&& en != 0 then
    let bad := (flags.filter fun x => x.2 &&& en != 0).map (·.1)
    .trap { c.fail .fpx bad all.toNat (all &&& en).toNat with flags := all, fpx := pending }
  else .done (done.mergeFlags c.cid all)

end Sys2Proof.Machine
end

