-- ==== Sys2Proof/Machine/Scalar.lean ====
section
/-! DEFINITION. The meanings of the scalar words SALU, SALUI, SLI and SLIH (R113-R118). -/

namespace Sys2Proof.Machine

/-- The tags of a shift's operand A: integer class or M64 (R114). -/
def Tag.shiftable (t : Tag) : Bool := t.isInt || t == .m64

/-- Any tag but POISON. -/
def Tag.clean (t : Tag) : Bool := t != .poison

/-- A scalar word of two operands: the checks of R114 and the result of R115, from the width and the two operand values. -/
def salu (c : Ctx) (s : State) (d a b : BitVec 5) (accA : Tag → Bool) (accB : Tag → Tag → Bool) (res : Tag → Tag)
    (f : Nat → Nat → Nat → Nat) : WordResult :=
  let x := c.getS a
  let y := c.getS b
  match c.scalarCheck [(2, x, accA), (3, y, accB x.tag)] with
  | some t => .trap t
  | none =>
    let w := x.tag.scalarWidth
    .done (s.writeS c d { bits := BitVec.ofNat 64 (f w (x.low w) (y.low w)), tag := res x.tag })

/-- The scalar operations on two operands of one integer tag (R114). -/
def saluArith (c : Ctx) (s : State) (d a b : BitVec 5) (f : Nat → Nat → Nat → Nat) : WordResult :=
  salu c s d a b Tag.isInt (fun t u => u == t) id f

/-- The scalar bitwise operations (R114). -/
def saluBits (c : Ctx) (s : State) (d a b : BitVec 5) (f : Nat → Nat → Nat → Nat) : WordResult :=
  salu c s d a b Tag.clean (fun _ u => u.clean) id f

/-- The scalar shifts: the count is B at A's width, modulo that width (R114, R115). -/
def saluShift (c : Ctx) (s : State) (d a b : BitVec 5) (f : Nat → Nat → Nat → Nat) : WordResult :=
  salu c s d a b Tag.shiftable (fun _ u => u.isInt) id fun w x y => f w x (y % w)

/-- The scalar compares: 1 or 0 tagged I64 (R114, R115). -/
def saluCmp (c : Ctx) (s : State) (d a b : BitVec 5) (acc : Tag → Bool) (f : Nat → Nat → Nat → Bool) : WordResult :=
  salu c s d a b acc (fun t u => u == t) (fun _ => .i64) fun w x y => if f w x y then 1 else 0

/-- A scalar word with an immediate in the place of B (R117). -/
def salui (c : Ctx) (s : State) (d a : BitVec 5) (acc : Tag → Bool) (res : Tag → Tag) (imm : Int)
    (f : Nat → Nat → Nat → Nat) : WordResult :=
  let x := c.getS a
  match c.scalarCheck [(2, x, acc)] with
  | some t => .trap t
  | none =>
    let w := x.tag.scalarWidth
    .done (s.writeS c d { bits := BitVec.ofNat 64 (f w (x.low w) (wrapTo w imm)), tag := res x.tag })

/-- The high half of a signed product (R115). -/
def mulhSigned (w x y : Nat) : Nat := wrapTo w (signedOf w x * signedOf w y / (2 ^ w : Int))

/-- The arithmetic shift right (R115). -/
def sraAt (w x n : Nat) : Nat := wrapTo w (signedOf w x / (2 ^ n : Int))

/-- SADD: sum (R115). -/
def bodySadd (d a b : BitVec 5) (c : Ctx) (s : State) : WordResult :=
  saluArith c s d a b (fun w x y => (x + y) % 2 ^ w)

/-- SSUB: difference (R115). -/
def bodySsub (d a b : BitVec 5) (c : Ctx) (s : State) : WordResult :=
  saluArith c s d a b (fun w x y => (x + 2 ^ w - y) % 2 ^ w)

/-- SMUL: low half of the product (R115). -/
def bodySmul (d a b : BitVec 5) (c : Ctx) (s : State) : WordResult :=
  saluArith c s d a b (fun w x y => x * y % 2 ^ w)

/-- SMULH: high half of the signed product (R115). -/
def bodySmulh (d a b : BitVec 5) (c : Ctx) (s : State) : WordResult :=
  saluArith c s d a b mulhSigned

/-- SMULHN: high half of the unsigned product (R115). -/
def bodySmulhn (d a b : BitVec 5) (c : Ctx) (s : State) : WordResult :=
  saluArith c s d a b (fun w x y => x * y / 2 ^ w)

/-- SAND: bitwise AND (R115). -/
def bodySand (d a b : BitVec 5) (c : Ctx) (s : State) : WordResult :=
  saluBits c s d a b (fun _ x y => x &&& y)

/-- SOR: bitwise OR (R115). -/
def bodySor (d a b : BitVec 5) (c : Ctx) (s : State) : WordResult :=
  saluBits c s d a b (fun _ x y => x ||| y)

/-- SXOR: bitwise exclusive OR (R115). -/
def bodySxor (d a b : BitVec 5) (c : Ctx) (s : State) : WordResult :=
  saluBits c s d a b (fun _ x y => x ^^^ y)

/-- SSHL: shift left (R115). -/
def bodySshl (d a b : BitVec 5) (c : Ctx) (s : State) : WordResult :=
  saluShift c s d a b (fun w x n => x * 2 ^ n % 2 ^ w)

/-- SSHR: logical shift right (R115). -/
def bodySshr (d a b : BitVec 5) (c : Ctx) (s : State) : WordResult :=
  saluShift c s d a b (fun _ x n => x / 2 ^ n)

/-- SSRA: arithmetic shift right (R115). -/
def bodySsra (d a b : BitVec 5) (c : Ctx) (s : State) : WordResult :=
  saluShift c s d a b sraAt

/-- SMIN: signed minimum (R115). -/
def bodySmin (d a b : BitVec 5) (c : Ctx) (s : State) : WordResult :=
  saluArith c s d a b (fun w x y => if signedOf w x ≤ signedOf w y then x else y)

/-- SMAX: signed maximum (R115). -/
def bodySmax (d a b : BitVec 5) (c : Ctx) (s : State) : WordResult :=
  saluArith c s d a b (fun w x y => if signedOf w y ≤ signedOf w x then x else y)

/-- SMINN: unsigned minimum (R115). -/
def bodySminn (d a b : BitVec 5) (c : Ctx) (s : State) : WordResult :=
  saluArith c s d a b (fun _ x y => if x ≤ y then x else y)

/-- SMAXN: unsigned maximum (R115). -/
def bodySmaxn (d a b : BitVec 5) (c : Ctx) (s : State) : WordResult :=
  saluArith c s d a b (fun _ x y => if y ≤ x then x else y)

/-- SEQ: 1 if equal (R115). -/
def bodySeq (d a b : BitVec 5) (c : Ctx) (s : State) : WordResult :=
  saluCmp c s d a b Tag.clean (fun _ x y => x == y)

/-- SLT: 1 if signed less (R115). -/
def bodySlt (d a b : BitVec 5) (c : Ctx) (s : State) : WordResult :=
  saluCmp c s d a b Tag.isInt (fun w x y => decide (signedOf w x < signedOf w y))

/-- SLTN: 1 if unsigned less (R115). -/
def bodySltn (d a b : BitVec 5) (c : Ctx) (s : State) : WordResult :=
  saluCmp c s d a b Tag.isInt (fun _ x y => decide (x < y))

/-- SMOV: copy, with a new tag when the field 1tttt names one (R116). -/
def bodySmov (d a t : BitVec 5) (c : Ctx) (s : State) : WordResult :=
  let x := c.getS a
  match c.scalarCheck [(2, x, Tag.clean)] with
  | some r => .trap r
  | none => .done (s.writeS c d (mkVal (if t == 0 then x.tag else Tag.ofCode (t.toNat % 16)) x.bits.toNat))

/-- SADDI: sum with the immediate (R117). -/
def bodySaddi (d a : BitVec 5) (i : BitVec 12) (c : Ctx) (s : State) : WordResult :=
  salui c s d a Tag.isInt id i.toInt (fun w x y => (x + y) % 2 ^ w)

/-- SANDI (R117). -/
def bodySandi (d a : BitVec 5) (i : BitVec 12) (c : Ctx) (s : State) : WordResult :=
  salui c s d a Tag.clean id i.toInt (fun _ x y => x &&& y)

/-- SORI (R117). -/
def bodySori (d a : BitVec 5) (i : BitVec 12) (c : Ctx) (s : State) : WordResult :=
  salui c s d a Tag.clean id i.toInt (fun _ x y => x ||| y)

/-- SXORI (R117). -/
def bodySxori (d a : BitVec 5) (i : BitVec 12) (c : Ctx) (s : State) : WordResult :=
  salui c s d a Tag.clean id i.toInt (fun _ x y => x ^^^ y)

/-- SSHLI (R117). -/
def bodySshli (d a : BitVec 5) (n : BitVec 6) (c : Ctx) (s : State) : WordResult :=
  salui c s d a Tag.shiftable id 0 (fun w x _ => x * 2 ^ (n.toNat % w) % 2 ^ w)

/-- SSHRI (R117). -/
def bodySshri (d a : BitVec 5) (n : BitVec 6) (c : Ctx) (s : State) : WordResult :=
  salui c s d a Tag.shiftable id 0 (fun w x _ => x / 2 ^ (n.toNat % w))

/-- SSRAI (R117). -/
def bodySsrai (d a : BitVec 5) (n : BitVec 6) (c : Ctx) (s : State) : WordResult :=
  salui c s d a Tag.shiftable id 0 (fun w x _ => sraAt w x (n.toNat % w))

/-- SLTI: 1 if signed less than the immediate, tagged I64 (R117). -/
def bodySlti (d a : BitVec 5) (i : BitVec 12) (c : Ctx) (s : State) : WordResult :=
  salui c s d a Tag.isInt (fun _ => .i64) i.toInt (fun w x y => if signedOf w x < signedOf w y then 1 else 0)

/-- SLI: the sign-extended immediate, tagged I64 (R118). -/
def bodySli (d : BitVec 5) (i : BitVec 20) (c : Ctx) (s : State) : WordResult :=
  .done (s.writeS c d { bits := i.signExtend 64, tag := .i64 })

/-- SLIH: bits 19:0 kept, the immediate above them, sign-extended from its bit 19, tagged I64; POISON traps (R118). -/
def bodySlih (d : BitVec 5) (i : BitVec 20) (c : Ctx) (s : State) : WordResult :=
  let x := c.getS d
  match c.scalarCheck [(1, x, Tag.clean)] with
  | some t => .trap t
  | none => .done (s.writeS c d { bits := i.signExtend 44 ++ x.bits.extractLsb' 0 20, tag := .i64 })

end Sys2Proof.Machine
end

