-- ==== Sys2Proof/Machine/Vector.lean ====
section
/-! DEFINITION. The meanings of the vector integer words VINT, VINTI, VLI and VIMAD (R138-R149, R152). -/

namespace Sys2Proof.Machine

/-! ### Shape shared by the vector words (R138-R140) -/

/-- The operands of a vector word after the checks ILLOP, STREAM, POISON and TAG, in that order (R139). The destination code is checked where one is given.
The codes are checked also where no lane is active (R30, log 53). -/
def Ctx.vecOperands (c : Ctx) (s : State) (d : Option (BitVec 6)) (codes : List (BitVec 6))
    (tagBad : List RegVal → Option (Nat × Tag)) : Except TrapInfo Operands :=
  let dst := match d with
    | some d => [(1, c.badDst (Dst.ofCode d))]
    | none => []
  match c.illopCheck (dst ++ codes.zipIdx.map fun x => (x.2 + 2, c.badSrc (Src.ofCode x.1))) with
  | some t => .error t
  | none =>
    match c.operands s codes with
    | .error t => .error t
    | .ok o => match firstTrap [c.poisonCheck o.vals, c.tagCheck o.vals tagBad] with
      | some t => .error t
      | none => .ok o

/-- A vector word that pushes one value per active lane (R138). -/
def Ctx.vecWord (c : Ctx) (s : State) (d : BitVec 6) (codes : List (BitVec 6)) (tagBad : List RegVal → Option (Nat × Tag))
    (f : List RegVal → RegVal) : WordResult :=
  match c.vecOperands s (some d) codes tagBad with
  | .error t => .trap t
  | .ok o => .done (o.state.pushWrite c d (o.vals.map fun x => (x.1, f x.2)))

/-- The k-th value of a list of operands. -/
def opnd (vs : List RegVal) (k : Nat) : RegVal := vs.getD k {}

/-- Operand A of an accepted tag, and every further value operand with A's tag (R55). -/
def sameTag (acc : Tag → Bool) (vs : List RegVal) : Option (Nat × Tag) :=
  let t := (opnd vs 0).tag
  if !acc t then some (2, t)
  else (vs.zipIdx.find? fun x => x.1.tag != t).map fun x => (x.2 + 2, x.1.tag)

/-- Operand A of one class and B of another (R144). -/
def twoTags (accA accB : Tag → Bool) (vs : List RegVal) : Option (Nat × Tag) :=
  if !accA (opnd vs 0).tag then some (2, (opnd vs 0).tag)
  else if !accB (opnd vs 1).tag then some (3, (opnd vs 1).tag) else none

/-- Integer or packed integer (R54). -/
def Tag.anyInt (t : Tag) : Bool := t.isInt || t.isPackedInt

/-- Integer, packed integer or M64 (R144). -/
def Tag.anyIntM (t : Tag) : Bool := t.anyInt || t == .m64

/-- The 64 bits of a value as a word reads them: a 32-bit tag's upper bits are ignored (R53). -/
def RegVal.read (r : RegVal) : Nat := r.low r.tag.scalarWidth

/-- A word on the elements of A (R145). -/
def vint1 (c : Ctx) (s : State) (d a : BitVec 6) (acc : Tag → Bool) (res : Tag → Tag) (f : Nat → Nat → Nat) : WordResult :=
  c.vecWord s d [a] (sameTag acc) fun vs =>
    let x := opnd vs 0
    let t := x.tag
    let ys := (elemsOf t x.bits).map fun u => f t.elemBits u % 2 ^ t.elemBits
    { mkVal .raw (packElems t.elemBits ys) with tag := res t }

/-- A word on the elements of A and B, which carry one tag (R145). -/
def vint2 (c : Ctx) (s : State) (d a b : BitVec 6) (f : Tag → Nat → Nat → Nat → Nat) : WordResult :=
  c.vecWord s d [a, b] (sameTag Tag.anyInt) fun vs =>
    let x := opnd vs 0
    let t := x.tag
    mkElems t (List.zipWith (f t t.elemBits) (elemsOf t x.bits) (elemsOf t (opnd vs 1).bits))

/-- A bitwise word: any tags but POISON, the result in A's tag, which for a constant A is B's (R56, R145). -/
def vbits (c : Ctx) (s : State) (d a b : BitVec 6) (f : Nat → Nat → Nat) : WordResult :=
  c.vecWord s d [a, b] (fun _ => none) fun vs => mkVal (opnd vs 0).tag (f (opnd vs 0).read (opnd vs 1).read)

/-- A shift word: the count is B[5:0] modulo the element width (R145). -/
def vshift (c : Ctx) (s : State) (d a b : BitVec 6) (f : Nat → Nat → Nat → Nat) : WordResult :=
  c.vecWord s d [a, b] (twoTags Tag.anyIntM Tag.isInt) fun vs =>
    let x := opnd vs 0
    let t := x.tag
    mkElems t ((elemsOf t x.bits).map fun u => f t.elemBits u ((opnd vs 1).low 6 % t.elemBits))

/-- The number of leading zero bits of x in e bits (R145). -/
def clz (e x : Nat) : Nat := if x = 0 then e else e - 1 - Nat.log2 x

/-- The number of one bits of x in e bits (R145). -/
def popc (e x : Nat) : Nat := ((List.range e).filter fun i => x.testBit i).length

/-- The result tag of VCLZ and VPOPC (R144). -/
def countTag (t : Tag) : Tag := if t == .m64 then .n64 else t

/-- The field length k of VBFE and VBFI (R146). -/
def fieldLen (e pos len : Nat) : Nat := if pos < e then min len (e - pos) else 0

/-- The value that VBFE returns (R146). -/
def bfe (t : Tag) (x ctl : Nat) : Nat :=
  let e := t.elemBits
  let k := fieldLen e (ctl % 64) (ctl / 2 ^ 8 % 64)
  if k = 0 then 0
  else
    let f := x / 2 ^ (ctl % 64) % 2 ^ k
    if t.isSigned then wrapTo e (signedOf k f) else f

/-- The value that VBFI pushes (R146). -/
def bfi (t : Tag) (base x ctl : Nat) : Nat :=
  let pos := ctl % 64
  let k := fieldLen t.elemBits pos (ctl / 2 ^ 8 % 64)
  base - base / 2 ^ pos % 2 ^ k * 2 ^ pos + x % 2 ^ k * 2 ^ pos

/-- The tags that VPACK accepts (R144). -/
def Tag.packable (t : Tag) : Bool := t == .raw || t.is32 || t.elemCount != 1

/-- The tags that VUNPK accepts (R144). -/
def Tag.unpackable (t : Tag) : Bool := t == .raw || t.elemCount != 1

/-- The value that VUNPK pushes: the chosen half, and +0 in the upper elements (R147). -/
def unpk (t : Tag) (x sel : Nat) : RegVal :=
  let half := if sel % 2 = 1 then x / 2 ^ 32 else x % 2 ^ 32
  let e := t.elemBits
  mkVal t (half + if t == .raw then 0 else packElems e (List.replicate (32 / e) t.zeroElem) * 2 ^ 32)

/-- VADD (R145). -/
def bodyVadd (d a b : BitVec 6) (c : Ctx) (s : State) : WordResult :=
  vint2 c s d a b (fun _ e x y => (x + y) % 2 ^ e)

/-- VSUB (R145). -/
def bodyVsub (d a b : BitVec 6) (c : Ctx) (s : State) : WordResult :=
  vint2 c s d a b (fun _ e x y => (x + 2 ^ e - y) % 2 ^ e)

/-- VMUL (R145). -/
def bodyVmul (d a b : BitVec 6) (c : Ctx) (s : State) : WordResult :=
  vint2 c s d a b (fun _ e x y => x * y % 2 ^ e)

/-- VMULH (R145). -/
def bodyVmulh (d a b : BitVec 6) (c : Ctx) (s : State) : WordResult :=
  vint2 c s d a b (fun _ e x y => mulhSigned e x y)

/-- VMULHN (R145). -/
def bodyVmulhn (d a b : BitVec 6) (c : Ctx) (s : State) : WordResult :=
  vint2 c s d a b (fun _ e x y => x * y / 2 ^ e)

/-- VAND (R145). -/
def bodyVand (d a b : BitVec 6) (c : Ctx) (s : State) : WordResult :=
  vbits c s d a b (fun x y => x &&& y)

/-- VOR (R145). -/
def bodyVor (d a b : BitVec 6) (c : Ctx) (s : State) : WordResult :=
  vbits c s d a b (fun x y => x ||| y)

/-- VXOR (R145). -/
def bodyVxor (d a b : BitVec 6) (c : Ctx) (s : State) : WordResult :=
  vbits c s d a b (fun x y => x ^^^ y)

/-- VANDN: a AND NOT b (R145). -/
def bodyVandn (d a b : BitVec 6) (c : Ctx) (s : State) : WordResult :=
  vbits c s d a b (fun x y => x &&& (2 ^ 64 - 1 - y))

/-- VSHL (R145). -/
def bodyVshl (d a b : BitVec 6) (c : Ctx) (s : State) : WordResult :=
  vshift c s d a b (fun e x n => x * 2 ^ n % 2 ^ e)

/-- VSHR (R145). -/
def bodyVshr (d a b : BitVec 6) (c : Ctx) (s : State) : WordResult :=
  vshift c s d a b (fun _ x n => x / 2 ^ n)

/-- VSRA (R145). -/
def bodyVsra (d a b : BitVec 6) (c : Ctx) (s : State) : WordResult :=
  vshift c s d a b sraAt

/-- VMIN: signed (R145). -/
def bodyVmin (d a b : BitVec 6) (c : Ctx) (s : State) : WordResult :=
  vint2 c s d a b (fun _ e x y => if signedOf e x ≤ signedOf e y then x else y)

/-- VMAX: signed (R145). -/
def bodyVmax (d a b : BitVec 6) (c : Ctx) (s : State) : WordResult :=
  vint2 c s d a b (fun _ e x y => if signedOf e y ≤ signedOf e x then x else y)

/-- VMINN: unsigned (R145). -/
def bodyVminn (d a b : BitVec 6) (c : Ctx) (s : State) : WordResult :=
  vint2 c s d a b (fun _ _ x y => if x ≤ y then x else y)

/-- VMAXN: unsigned (R145). -/
def bodyVmaxn (d a b : BitVec 6) (c : Ctx) (s : State) : WordResult :=
  vint2 c s d a b (fun _ _ x y => if y ≤ x then x else y)

/-- VABS: the most negative value wraps to itself (R145). -/
def bodyVabs (d a : BitVec 6) (c : Ctx) (s : State) : WordResult :=
  vint1 c s d a Tag.anyInt id (fun e x => wrapTo e (signedOf e x).natAbs)

/-- VNEG (R145). -/
def bodyVneg (d a : BitVec 6) (c : Ctx) (s : State) : WordResult :=
  vint1 c s d a Tag.anyInt id (fun e x => 2 ^ e - x)

/-- VCLZ (R145). -/
def bodyVclz (d a : BitVec 6) (c : Ctx) (s : State) : WordResult :=
  vint1 c s d a Tag.anyIntM countTag clz

/-- VPOPC (R145). -/
def bodyVpopc (d a : BitVec 6) (c : Ctx) (s : State) : WordResult :=
  vint1 c s d a Tag.anyIntM countTag popc

/-- VADDS: clamped to the tag's range (R84, R145). -/
def bodyVadds (d a b : BitVec 6) (c : Ctx) (s : State) : WordResult :=
  vint2 c s d a b (fun t e x y => clampTo e t.isSigned ((if t.isSigned then signedOf e x else x) + (if t.isSigned then signedOf e y else y)))

/-- VSUBS: clamped to the tag's range (R84, R145). -/
def bodyVsubs (d a b : BitVec 6) (c : Ctx) (s : State) : WordResult :=
  vint2 c s d a b (fun t e x y => clampTo e t.isSigned ((if t.isSigned then signedOf e x else x) - (if t.isSigned then signedOf e y else y)))

/-- VBFE (R146). -/
def bodyVbfe (d a b : BitVec 6) (c : Ctx) (s : State) : WordResult :=
  c.vecWord s d [a, b] (twoTags Tag.isInt Tag.isInt) fun vs =>
    mkVal (opnd vs 0).tag (bfe (opnd vs 0).tag (opnd vs 0).read (opnd vs 1).bits.toNat)

/-- VBFI: the base is the register that D names; queue only traps with ILLOP, a base of another tag with TAG (R146). -/
def bodyVbfi (d a b : BitVec 6) (c : Ctx) (s : State) : WordResult :=
  let dst := Dst.ofCode d
  let base (l : Nat) : RegVal := (c.regs.lane l).readDst dst
  match c.illopCheck [(1, c.badDst dst || dst == .queue), (2, c.badSrc (Src.ofCode a)), (3, c.badSrc (Src.ofCode b))] with
  | some t => .trap t
  | none =>
    match c.operands s [a, b] with
    | .error t => .trap t
    | .ok o =>
      let poison := c.laneCheck .poison c.active fun l =>
        if (base l).tag == .poison then some (1, Tag.poison.code)
        else (((tget o.vals l).getD []).zipIdx.find? fun x => x.1.tag == .poison).map fun x => (x.2 + 2, Tag.poison.code)
      let tags := c.laneCheck .tag c.active fun l =>
        let vs := (tget o.vals l).getD []
        match twoTags Tag.isInt Tag.isInt vs with
        | some x => some (x.1, x.2.code)
        | none => if (base l).tag == (opnd vs 0).tag then none else some (1, (base l).tag.code)
      match firstTrap [poison, tags] with
      | some t => .trap t
      | none => .done (o.state.pushWrite c d (o.vals.map fun x =>
          let t := (opnd x.2 0).tag
          (x.1, mkVal t (bfi t (base x.1).read (opnd x.2 0).read (opnd x.2 1).bits.toNat))))

/-- VPACK: the low halves of A and B (R147). -/
def bodyVpack (d a b : BitVec 6) (c : Ctx) (s : State) : WordResult :=
  c.vecWord s d [a, b] (sameTag Tag.packable) fun vs =>
    let t := (opnd vs 0).tag
    mkVal (if t == .raw || t.is32 then .raw else t) ((opnd vs 0).low 32 + (opnd vs 1).low 32 * 2 ^ 32)

/-- VUNPK: the half of A that B[0] selects (R147). -/
def bodyVunpk (d a b : BitVec 6) (c : Ctx) (s : State) : WordResult :=
  c.vecWord s d [a, b] (twoTags Tag.unpackable Tag.isInt) fun vs =>
    unpk (opnd vs 0).tag (opnd vs 0).bits.toNat (opnd vs 1).bits.toNat

/-- VADDA: x plus the magnitude of y (R145). -/
def bodyVadda (d a b : BitVec 6) (c : Ctx) (s : State) : WordResult :=
  vint2 c s d a b (fun _ e x y => (x + (signedOf e y).natAbs) % 2 ^ e)

/-! ### VINTI, VLI, VIMAD -/

/-- A word on the elements of A and an immediate truncated to their width (R148). -/
def vinti (c : Ctx) (s : State) (d a : BitVec 6) (acc : Tag → Bool) (imm : Int) (f : Nat → Nat → Nat → Nat) : WordResult :=
  vint1 c s d a acc id fun e x => f e x (wrapTo e imm)

/-- VADDI (R148). -/
def bodyVaddi (d a : BitVec 6) (i : BitVec 10) (c : Ctx) (s : State) : WordResult :=
  vinti c s d a Tag.anyInt i.toInt (fun _ x y => x + y)

/-- VANDI (R148). -/
def bodyVandi (d a : BitVec 6) (i : BitVec 10) (c : Ctx) (s : State) : WordResult :=
  vinti c s d a Tag.clean i.toInt (fun _ x y => x &&& y)

/-- VORI (R148). -/
def bodyVori (d a : BitVec 6) (i : BitVec 10) (c : Ctx) (s : State) : WordResult :=
  vinti c s d a Tag.clean i.toInt (fun _ x y => x ||| y)

/-- VXORI (R148). -/
def bodyVxori (d a : BitVec 6) (i : BitVec 10) (c : Ctx) (s : State) : WordResult :=
  vinti c s d a Tag.clean i.toInt (fun _ x y => x ^^^ y)

/-- VSHLI (R148). -/
def bodyVshli (d a n : BitVec 6) (c : Ctx) (s : State) : WordResult :=
  vinti c s d a Tag.anyIntM 0 (fun e x _ => x * 2 ^ (n.toNat % e))

/-- VSHRI (R148). -/
def bodyVshri (d a n : BitVec 6) (c : Ctx) (s : State) : WordResult :=
  vinti c s d a Tag.anyIntM 0 (fun e x _ => x / 2 ^ (n.toNat % e))

/-- VSRAI (R148). -/
def bodyVsrai (d a n : BitVec 6) (c : Ctx) (s : State) : WordResult :=
  vinti c s d a Tag.anyIntM 0 (fun e x _ => sraAt e x (n.toNat % e))

/-- VMULI (R148). -/
def bodyVmuli (d a : BitVec 6) (i : BitVec 10) (c : Ctx) (s : State) : WordResult :=
  vinti c s d a Tag.anyInt i.toInt (fun _ x y => x * y)

/-- The value of VLI (R149). -/
def vliValue (t : Tag) (i : BitVec 15) : RegVal :=
  match t with
  | .raw | .i64 | .n64 | .m64 => mkVal t (wrapTo 64 i.toInt)
  | .i32 | .n32 => mkVal t (wrapTo 32 i.toInt)
  | .f32 => mkVal t (i.toNat * 2 ^ 17)
  | .f64 => mkVal t (i.toNat * 2 ^ 49)
  | .f16x4 | .bf16x4 => mkElems t (List.replicate 4 (i.toNat * 2))
  | .i16x4 => mkElems t (List.replicate 4 (wrapTo 16 i.toInt))
  | _ => mkElems t (List.replicate 8 (i.toNat % 2 ^ 8))

/-- VLI (R149). -/
def bodyVli (d : BitVec 6) (t : BitVec 4) (i : BitVec 15) (c : Ctx) (s : State) : WordResult :=
  match c.illopCheck [(1, c.badDst (Dst.ofCode d))] with
  | some r => .trap r
  | none => .done (s.pushWrite c d (c.active.map fun l => (l, vliValue (Tag.ofCode t.toNat) i)))

/-- VIMAD: the integer multiply-add; X negates the product (R152). -/
def bodyVimad (d a b e : BitVec 6) (x : BitVec 1) (c : Ctx) (s : State) : WordResult :=
  c.vecWord s d [a, b, e] (sameTag Tag.anyInt) fun vs =>
    let t := (opnd vs 0).tag
    let es (k : Nat) : List Nat := elemsOf t (opnd vs k).bits
    mkElems t ((List.zipWith (fun (u v : Nat) => (if x == 1 then -((u : Int) * (v : Int)) else (u : Int) * (v : Int))) (es 0) (es 1)).zipWith
      (fun (p : Int) (z : Nat) => wrapTo t.elemBits ((z : Int) + p)) (es 2))

end Sys2Proof.Machine
end

