-- ==== Sys2Proof/Machine/FloatOps.lean ====
section
/-! DEFINITION. The meanings of the floating-point vector words VFP, VFMA, VFMAN, VSFU, VCVT, VCMP and VDOT (R150-R158). -/

namespace Sys2Proof.Machine

/-- A floating-point word that pushes one value per active lane, with its flags (R139, R142, R372). -/
def Ctx.fpWord (c : Ctx) (s : State) (d : BitVec 6) (codes : List (BitVec 6)) (tagBad : List RegVal → Option (Nat × Tag))
    (f : List RegVal → RegVal × Flags) : WordResult :=
  match c.vecOperands s (some d) codes tagBad with
  | .error t => .trap t
  | .ok o =>
    let rs := o.vals.map fun x => (x.1, f x.2, x.2)
    c.finishFp (rs.map fun x => (x.1, x.2.1.2))
      (rs.map fun x => (x.1, x.2.1.1, opnd x.2.2 0, opnd x.2.2 1, opnd x.2.2 2))
      (o.state.pushWrite c d (rs.map fun x => (x.1, x.2.1.1)))

/-- Elements with flags made one value with the OR of the flags (R92, R142). -/
def gather (t : Tag) (rs : List (Nat × Flags)) : RegVal × Flags :=
  (mkElems t (rs.map (·.1)), orFlags (rs.map (·.2)))

/-- The float format of a tag that the tag check accepted. -/
def Tag.fmt (t : Tag) : FloatFmt := t.floatFmt.getD .f32

/-- A word on the floating-point elements of A (R150). -/
def vfp1 (c : Ctx) (s : State) (d a : BitVec 6) (f : FloatFmt → Nat → Nat × Flags) : WordResult :=
  c.fpWord s d [a] (sameTag Tag.isFloat) fun vs =>
    let t := (opnd vs 0).tag
    gather t ((elemsOf t (opnd vs 0).bits).map (f t.fmt))

/-- A word on the floating-point elements of A and B (R150). -/
def vfp2 (c : Ctx) (s : State) (d a b : BitVec 6) (f : FloatFmt → Nat → Nat → Nat × Flags) : WordResult :=
  c.fpWord s d [a, b] (sameTag Tag.isFloat) fun vs =>
    let t := (opnd vs 0).tag
    gather t (List.zipWith (f t.fmt) (elemsOf t (opnd vs 0).bits) (elemsOf t (opnd vs 1).bits))

/-- The fused multiply-add of FFMA and FFMAN: np negates the product, nc the addend (R151). -/
def vfma (c : Ctx) (s : State) (d a b e : BitVec 6) (np nc : Bool) : WordResult :=
  c.fpWord s d [a, b, e] (sameTag Tag.isFloat) fun vs =>
    let t := (opnd vs 0).tag
    let es (k : Nat) : List Nat := elemsOf t (opnd vs k).bits
    gather t (((es 0).zip (es 1)).zipWith (fun p z => fFma t.fmt c.regs.rm c.regs.ftz np nc p.1 p.2 z) (es 2))

/-- A special function in RNE whatever %fpmode.RM holds (R93, R153). -/
def vsfu (c : Ctx) (s : State) (d a : BitVec 6) (op : SfuOp) : WordResult :=
  vfp1 c s d a fun f x => fSfu f op c.regs.ftz x

/-- FADD (R150). -/
def bodyFadd (d a b : BitVec 6) (r : BitVec 2) (c : Ctx) (s : State) : WordResult :=
  vfp2 c s d a b fun f => fAdd f (c.regs.roundField r) c.regs.ftz

/-- FSUB (R150). -/
def bodyFsub (d a b : BitVec 6) (r : BitVec 2) (c : Ctx) (s : State) : WordResult :=
  vfp2 c s d a b fun f => fSub f (c.regs.roundField r) c.regs.ftz

/-- FMUL (R150). -/
def bodyFmul (d a b : BitVec 6) (r : BitVec 2) (c : Ctx) (s : State) : WordResult :=
  vfp2 c s d a b fun f => fMul f (c.regs.roundField r) c.regs.ftz

/-- FDIV (R150). -/
def bodyFdiv (d a b : BitVec 6) (r : BitVec 2) (c : Ctx) (s : State) : WordResult :=
  vfp2 c s d a b fun f => fDiv f (c.regs.roundField r) c.regs.ftz

/-- FSQRT (R150). -/
def bodyFsqrt (d a : BitVec 6) (r : BitVec 2) (c : Ctx) (s : State) : WordResult :=
  vfp1 c s d a fun f => fSqrt f (c.regs.roundField r) c.regs.ftz

/-- FMIN (R150). -/
def bodyFmin (d a b : BitVec 6) (c : Ctx) (s : State) : WordResult :=
  vfp2 c s d a b fun f => fMinMax f c.regs.ftz false false

/-- FMAX (R150). -/
def bodyFmax (d a b : BitVec 6) (c : Ctx) (s : State) : WordResult :=
  vfp2 c s d a b fun f => fMinMax f c.regs.ftz true false

/-- FMINNUM (R150). -/
def bodyFminnum (d a b : BitVec 6) (c : Ctx) (s : State) : WordResult :=
  vfp2 c s d a b fun f => fMinMax f c.regs.ftz false true

/-- FMAXNUM (R150). -/
def bodyFmaxnum (d a b : BitVec 6) (c : Ctx) (s : State) : WordResult :=
  vfp2 c s d a b fun f => fMinMax f c.regs.ftz true true

/-- FABS: the sign bit cleared, no flag (R150). -/
def bodyFabs (d a : BitVec 6) (c : Ctx) (s : State) : WordResult :=
  vfp1 c s d a fun f x => (x % f.signBit, 0)

/-- FNEG: the sign bit inverted, no flag (R150). -/
def bodyFneg (d a : BitVec 6) (c : Ctx) (s : State) : WordResult :=
  vfp1 c s d a fun f x => (if x < f.signBit then x + f.signBit else x - f.signBit, 0)

/-- FCOPYSIGN: A with the sign bit of B, no flag (R150). -/
def bodyFcopysign (d a b : BitVec 6) (c : Ctx) (s : State) : WordResult :=
  vfp2 c s d a b fun f x y => (x % f.signBit + (if y < f.signBit then 0 else f.signBit), 0)

/-- FFMA (R151). -/
def bodyFfma (d a b e : BitVec 6) (x : BitVec 1) (c : Ctx) (s : State) : WordResult :=
  vfma c s d a b e (x == 1) false

/-- FFMAN (R151). -/
def bodyFfman (d a b e : BitVec 6) (x : BitVec 1) (c : Ctx) (s : State) : WordResult :=
  vfma c s d a b e (x == 1) true

/-- FRCP (R93, R153). -/
def bodyFrcp (d a : BitVec 6) (c : Ctx) (s : State) : WordResult :=
  vsfu c s d a .rcp

/-- FRSQ (R93, R153). -/
def bodyFrsq (d a : BitVec 6) (c : Ctx) (s : State) : WordResult :=
  vsfu c s d a .rsq

/-- FEXP2 (R93, R153). -/
def bodyFexp2 (d a : BitVec 6) (c : Ctx) (s : State) : WordResult :=
  vsfu c s d a .exp2

/-- FLOG2 (R93, R153). -/
def bodyFlog2 (d a : BitVec 6) (c : Ctx) (s : State) : WordResult :=
  vsfu c s d a .log2

/-- FSINPI (R93, R153). -/
def bodyFsinpi (d a : BitVec 6) (c : Ctx) (s : State) : WordResult :=
  vsfu c s d a .sinpi

/-- FCOSPI (R93, R153). -/
def bodyFcospi (d a : BitVec 6) (c : Ctx) (s : State) : WordResult :=
  vsfu c s d a .cospi

/-- FTANH (R93, R153). -/
def bodyFtanh (d a : BitVec 6) (c : Ctx) (s : State) : WordResult :=
  vsfu c s d a .tanh

/-! ### VCVT (R154, R155) -/

/-- The mode that VCVT's field selects (R154). -/
def CrewRegs.cvtMode (r : CrewRegs) (m : BitVec 2) : RMode :=
  match m.toNat with
  | 0 => .rne
  | 1 => .rtz
  | 2 => r.rm
  | _ => .odd

/-- The source tags of VCVT, and a part below Max(ns, nt) / Min(ns, nt) (R155). -/
def cvtBad (t : Tag) (p : Nat) (vs : List RegVal) : Option (Nat × Tag) :=
  let u := (opnd vs 0).tag
  let ns := u.elemCount
  let nt := t.elemCount
  if u.elemFmt.isNone then some (2, u)
  else if p < max ns nt / min ns nt then none else some (2, u)

/-- The elements that VCVT converts (R155). -/
def cvtElems (u t : Tag) (p : Nat) (bits : DWord) (conv : Nat → Nat × Flags) : List (Nat × Flags) :=
  let ns := u.elemCount
  let nt := t.elemCount
  let es := elemsOf u bits
  (List.range nt).map fun i =>
    if nt ≤ ns then conv (es.getD (p * nt + i) 0)
    else if p * ns ≤ i ∧ i < p * ns + ns then conv (es.getD (i - p * ns) 0)
    else (t.zeroElem, 0)

/-- VCVT (R154, R155). -/
def bodyVcvt (d a : BitVec 6) (p : BitVec 3) (t : BitVec 4) (m : BitVec 2) (x : BitVec 1) (c : Ctx) (s : State) : WordResult :=
  let t := Tag.ofCode t.toNat
  c.fpWord s d [a] (cvtBad t p.toNat) fun vs =>
    let u := (opnd vs 0).tag
    let conv := convert (u.elemFmt.getD .tt8) (t.elemFmt.getD .tt8) (c.regs.cvtMode m) (x == 1) c.regs.ftz
    gather t (cvtElems u t p.toNat (opnd vs 0).bits conv)

/-! ### VCMP (R156) -/

/-- The tags that a condition allows (R156). -/
def cmpTags (k : Nat) (t : Tag) : Bool :=
  let f := t == .f32 || t == .f64
  if k < 2 then t.isInt || f || t == .m64
  else if k < 6 then t.isInt || f
  else if k < 10 then t.isInt
  else f

/-- A condition on two integers, given signed and unsigned readings (R156). -/
def cmpInt (k : Nat) (sx sy : Int) (ux uy : Nat) : Bool :=
  match k with
  | 0 => ux == uy
  | 1 => ux != uy
  | 2 => decide (sx < sy)
  | 3 => decide (sx ≤ sy)
  | 4 => decide (sy < sx)
  | 5 => decide (sy ≤ sx)
  | 6 => decide (ux < uy)
  | 7 => decide (ux ≤ uy)
  | 8 => decide (uy < ux)
  | _ => decide (uy ≤ ux)

/-- A condition on two floating-point values with its flags (R156). -/
def cmpFloat (k : Nat) (x y : Num) : Bool × Flags :=
  let nan := x.isNan || y.isNan
  let snan := snanFlag [x, y]
  let quiet := flagIf nan fNV
  match k with
  | 0 => (x.eqv y, snan)
  | 1 => (nan || !x.eqv y, snan)
  | 2 => (!nan && x.lt y, quiet)
  | 3 => (!nan && !y.lt x, quiet)
  | 4 => (!nan && y.lt x, quiet)
  | 5 => (!nan && !x.lt y, quiet)
  | 10 => (nan, snan)
  | _ => (!nan, snan)

/-- The condition of VCMP in one lane (R156). -/
def cmpLane (k : Nat) (ftz : Bool) (vs : List RegVal) : Bool × Flags :=
  let x := opnd vs 0
  let y := opnd vs 1
  match x.tag.floatFmt with
  | some f => cmpFloat k (f.read (f.flush ftz x.read)) (f.read (f.flush ftz y.read))
  | none =>
    let w := x.tag.scalarWidth
    (cmpInt k (signedOf w x.read) (signedOf w y.read) x.read y.read, 0)

/-- VCMP: the condition, combined with the old predicate (R156); FPX hands over the value p would have received, tagged N32 (R372). -/
def bodyVcmp (p : BitVec 3) (a b : BitVec 6) (m : BitVec 2) (k : BitVec 4) (c : Ctx) (s : State) : WordResult :=
  match c.vecOperands s none [a, b] (sameTag (cmpTags k.toNat)) with
  | .error t => .trap t
  | .ok o =>
    let rs := o.vals.map fun x =>
      let r := cmpLane k.toNat c.regs.ftz x.2
      let old := (c.regs.lane x.1).getP p.toNat
      let v := match m.toNat with
        | 0 => r.1
        | 1 => old && r.1
        | _ => old || r.1
      (x.1, v, r.2, x.2)
    c.finishFp (rs.map fun x => (x.1, x.2.2.1))
      (rs.map fun x => (x.1, mkVal .n32 (if x.2.1 then 1 else 0), opnd x.2.2.2 0, opnd x.2.2.2 1, {}))
      (o.state.writeP c p.toNat (rs.map fun x => (x.1, x.2.1)))

/-! ### VDOT (R158) -/

/-- The tag of C that a pair of tags of A and B requires (R158). -/
def dotTag (ta tb : Tag) : Option Tag :=
  match ta, tb with
  | .f16x4, .f16x4 | .bf16x4, .bf16x4 => some .f32
  | .e4m3x8, .e4m3x8 | .e4m3x8, .e5m2x8 | .e5m2x8, .e4m3x8 | .e5m2x8, .e5m2x8 => some .f32
  | .e4m3x8, .tt8x8 | .e5m2x8, .tt8x8 => some .f32
  | .i8x8, .i8x8 | .i16x4, .i16x4 => some .i32
  | _, _ => none

/-- The tag check of VDOT (R158). -/
def dotBad (vs : List RegVal) : Option (Nat × Tag) :=
  let ta := (opnd vs 0).tag
  let tb := (opnd vs 1).tag
  let tc := (opnd vs 2).tag
  if (dotTag ta ta).isNone then some (2, ta)
  else match dotTag ta tb with
    | none => some (3, tb)
    | some t => if t == tc then none else some (4, tc)

/-- The integer dot product, modulo 2^32 (R158). -/
def dotI32 (np : Bool) (t : Tag) (c : Nat) (as bs : List Nat) : Nat :=
  let e := t.elemBits
  let sum := (List.zipWith (fun x y => signedOf e x * signedOf e y) as bs).foldl (· + ·) 0
  wrapTo 32 (signedOf 32 c + if np then -sum else sum)

/-- VDOT (R158). -/
def bodyVdot (d a b e : BitVec 6) (x : BitVec 1) (c : Ctx) (s : State) : WordResult :=
  c.fpWord s d [a, b, e] dotBad fun vs =>
    let ta := (opnd vs 0).tag
    let tb := (opnd vs 1).tag
    let as := elemsOf ta (opnd vs 0).bits
    let bs := elemsOf tb (opnd vs 1).bits
    let z := (opnd vs 2).low 32
    if ta.isPackedInt then (mkVal .i32 (dotI32 (x == 1) ta z as bs), 0)
    else
      let r := dotF32 c.regs.rm c.regs.ftz (x == 1) (ta.elemFmt.getD .tt8) (tb.elemFmt.getD .tt8) z as bs
      (mkVal .f32 r.1, r.2)

end Sys2Proof.Machine
end

