-- ==== Sys2Proof/Machine/Move.lean ====
section
/-! DEFINITION. The meanings of VSEL, of the predicate words PRED and of the transfers XFER (R157, R159, R160). -/

namespace Sys2Proof.Machine

/-- A scalar check of a word that acts in lanes: nothing is checked when no lane is active (R58, R139). -/
def Ctx.laneScalarCheck (c : Ctx) (ops : List (Nat × RegVal × (Tag → Bool))) : Option TrapInfo :=
  if c.active.isEmpty then none else c.scalarCheck ops

/-- A word that writes one predicate from two in each active lane (R159). -/
def predWord (c : Ctx) (s : State) (d a b : BitVec 3) (f : Bool → Bool → Bool) : WordResult :=
  .done (s.writeP c d.toNat (c.active.map fun l =>
    (l, f ((c.regs.lane l).getP a.toNat) ((c.regs.lane l).getP b.toNat))))

/-- VSEL: A where the predicate, inverted by X, is 1, else B; only the selected operand is checked (R157, log 18). -/
def bodyVsel (d a b : BitVec 6) (p : BitVec 3) (x : BitVec 1) (c : Ctx) (s : State) : WordResult :=
  let srcs := [Src.ofCode a, Src.ofCode b]
  match c.illopCheck [(1, c.badDst (Dst.ofCode d)), (2, c.badSrc (Src.ofCode a)), (3, c.badSrc (Src.ofCode b))] with
  | some t => .trap t
  | none =>
    match c.operands s [a, b] with
    | .error t => .trap t
    | .ok o =>
      let pick (l : Nat) : Nat := if ((c.regs.lane l).getP p.toNat) != (x == 1) then 0 else 1
      match c.laneCheck .poison c.active fun l =>
          if (srcs.getD (pick l) .zero).isConst then none
          else if (opnd ((tget o.vals l).getD []) (pick l)).tag == .poison then some (pick l + 2, Tag.poison.code) else none with
      | some t => .trap t
      | none => .done (o.state.pushWrite c d (o.vals.map fun v => (v.1, opnd v.2 (pick v.1))))

/-- PAND (R159). -/
def bodyPand (d a b : BitVec 3) (c : Ctx) (s : State) : WordResult :=
  predWord c s d a b (fun x y => x && y)

/-- POR (R159). -/
def bodyPor (d a b : BitVec 3) (c : Ctx) (s : State) : WordResult :=
  predWord c s d a b (fun x y => x || y)

/-- PXOR (R159). -/
def bodyPxor (d a b : BitVec 3) (c : Ctx) (s : State) : WordResult :=
  predWord c s d a b (fun x y => x != y)

/-- PANDN (R159). -/
def bodyPandn (d a b : BitVec 3) (c : Ctx) (s : State) : WordResult :=
  predWord c s d a b (fun x y => x && !y)

/-- PTOV: p7…p0 in bits 7:0, tagged N32 (R159). -/
def bodyPtov (d : BitVec 6) (c : Ctx) (s : State) : WordResult :=
  match c.illopCheck [(1, c.badDst (Dst.ofCode d))] with
  | some t => .trap t
  | none => .done (s.pushWrite c d (c.active.map fun l =>
      (l, mkVal .n32 (packElems 1 ((List.range 8).map fun k => if (c.regs.lane l).getP k then 1 else 0)))))

/-- VTOP: p1…p7 from bits 1 to 7 of A (R159). -/
def bodyVtop (a : BitVec 6) (c : Ctx) (s : State) : WordResult :=
  match c.vecOperands s none [a] (sameTag Tag.isInt) with
  | .error t => .trap t
  | .ok o => .done ((List.range 8).foldl (fun s k =>
      s.writeP c k (o.vals.map fun v => (v.1, (opnd v.2 0).bits.getLsbD k))) o.state)

/-- VTOS: the value and tag of A in the lowest active lane, the only one that reads, that pops and that can trap; with no active lane nothing (R160, log 18). -/
def bodyVtos (d : BitVec 5) (a : BitVec 6) (c : Ctx) (s : State) : WordResult :=
  match c.active with
  | [] => .done s
  | l :: _ =>
    let c1 := { c with active := [l] }
    match c1.illopCheck [(2, c.badSrc (Src.ofCode a))] with
    | some t => .trap { t with amask := maskOf c.active }
    | none =>
      match c1.operands s [a] with
      | .error t => .trap { t with amask := maskOf c.active }
      | .ok o => match c1.poisonCheck o.vals with
        | some t => .trap { t with amask := maskOf c.active }
        | none => .done (o.state.writeS c d (opnd ((tget o.vals l).getD []) 0))

/-- STOV: the scalar in every active lane (R160). -/
def bodyStov (d : BitVec 6) (a : BitVec 5) (c : Ctx) (s : State) : WordResult :=
  match c.illopCheck [(1, c.badDst (Dst.ofCode d))] with
  | some t => .trap t
  | none => match c.laneScalarCheck [(2, c.getS a, fun _ => true)] with
    | some t => .trap t
    | none => .done (s.pushWrite c d (c.active.map fun l => (l, c.getS a)))

/-- VRETAG: the value of A with a new tag, a 32-bit one clearing bits 63:32 (R160). -/
def bodyVretag (d a : BitVec 6) (t : BitVec 4) (c : Ctx) (s : State) : WordResult :=
  c.vecWord s d [a] (fun _ => none) fun vs => mkVal (Tag.ofCode t.toNat) (opnd vs 0).bits.toNat

end Sys2Proof.Machine
end

