-- ==== Sys2Proof/Machine/Control.lean ====
section
/-! DEFINITION. The meanings of the CTL words, of the branches and of JMPR (R37, R119-R137). A control transfer only records its decision here; it acts at run end. -/

namespace Sys2Proof.Machine

/-- The group of a word's context changed. -/
def State.modGrp (s : State) (c : Ctx) (f : Group → Group) : State := s.modGroup c.cid c.grp.id f

/-- A control transfer recorded (R119). -/
def State.transfer (s : State) (c : Ctx) (k : TransferKind) : State :=
  s.modGrp c fun g => { g with transfer := some { packet := c.grp.packet, word := c.grp.word, active := maskOf c.active, kind := k } }

/-- A branch taken in some lanes, all to one target (R119, R120). -/
def State.branch (s : State) (c : Ctx) (take : List Nat) (target : DWord) : State :=
  s.transfer c (.jump (maskOf take) (take.map fun l => (l, target)))

/-- The register that a TRL code names: none for 0, and the illegal codes apart (R24). -/
def trlCode (c : Ctx) (x : BitVec 6) : Option Bool :=
  if x == 0 then some false
  else match Dst.ofCode x with
    | .v _ => some true
    | .h _ => if c.handler then some true else none
    | _ => none

/-- NOP: no effect (R137). -/
def bodyNop (_ : Ctx) (s : State) : WordResult := .done s

/-- TRL: the named registers are what the next run waits for; an illegal code traps with ILLOP, whatever guards hold (R24, R126). -/
def bodyTrl (x y z : BitVec 6) (c : Ctx) (s : State) : WordResult :=
  let codes := [x, y, z]
  if codes.any fun k => (trlCode c k).isNone then .trap (c.fail .illop (c.crew.groupLanes c.grp) 5)
  else .done (s.modGrp c fun g => { g with trailer := codes.filter fun k => trlCode c k == some true })

/-- GRD: guards the next words of the run, in effect even when no lane is active (R124-R126). The count includes the GRD itself, which its own issue counts off. -/
def bodyGrd (p : BitVec 3) (n : BitVec 1) (k : BitVec 3) (c : Ctx) (s : State) : WordResult :=
  let allow := maskOf ((List.range c.crew.width).filter fun l => ((c.regs.lane l).getP p.toNat) != (n == 1))
  .done (s.modGrp c fun g => { g with guards := g.guards ++ [{ allow := allow, left := k.toNat + 2 }] })

/-- WAITC: waits until every counter it tests is within its limit (R127). -/
def bodyWaitc (l st : BitVec 4) (y : BitVec 6) (t : BitVec 4) (c : Ctx) (s : State) : WordResult :=
  let n := c.regs.cnt
  if c.ready || (l == 15 || n.loads ≤ l.toNat) && (st == 15 || n.stores ≤ st.toNat) && (y == 63 || n.copies ≤ y.toNat)
      && (t == 15 || n.tileops ≤ t.toNat) then .done s
  else .wait .waitc

/-- YIELD: at the end of the run the group stands behind the others at one choice (R129). -/
def bodyYield (c : Ctx) (s : State) : WordResult := .done (s.modGrp c fun g => { g with yielding := true })

/-- EXIT: its active lanes exit at run end; ILLOP in handler mode, FREEZE in a template crew (R130, R131). -/
def bodyExit (c : Ctx) (s : State) : WordResult :=
  if c.active.isEmpty then .done s
  else if c.handler then .trap (c.fail .illop c.active 5)
  else if c.crew.role != .normal then .trap (c.fail .freeze c.active 3)
  else .done (s.transfer c (.exit (maskOf c.active)))

/-- Whether a crew may execute FREEZE at a level (R132). -/
def freezeAllowed (c : Ctx) (l : Nat) : Bool :=
  !c.handler && ((l == 1 && c.crew.role == .launchTemplate && (c.record.level == 1 || c.record.level == 2))
    || (l == 2 && c.crew.role == .blockTemplate && c.record.level == 2))

/-- FREEZE: the crew and level check, then every lane of the crew active; the image is taken at run end (R132-R134). -/
def bodyFreeze (l : BitVec 2) (c : Ctx) (s : State) : WordResult :=
  if !freezeAllowed c l.toNat then .trap (c.fail .freeze c.active 1)
  else match (List.range c.crew.width).filter fun x => !c.active.contains x with
    | [] => .done (s.transfer c (.freeze l.toNat))
    | bad => .trap (c.fail .freeze bad 2)

/-- SETRL: %restart, or BOUNDS for an invalid packet address (R135). -/
def bodySetrl (i : BitVec 21) (c : Ctx) (s : State) : WordResult :=
  let target := c.grp.packet + i.signExtend 64
  if validPacket target then .done (s.modRegs c.cid fun r => { r with restart := target })
  else .trap (c.fail .bounds c.active (addr := target))

/-- ELECT: true in the lowest active lane, false in every other active lane (R136). -/
def bodyElect (p : BitVec 3) (c : Ctx) (s : State) : WordResult :=
  .done (s.writeP c p.toNat (c.active.map fun l => (l, c.active.head? == some l)))

/-- BR: every active lane to packet + I25 (R120). -/
def bodyBr (i : BitVec 25) (c : Ctx) (s : State) : WordResult :=
  .done (s.branch c c.active (c.grp.packet + i.signExtend 64))

/-- The condition of BRC on a signed value (R120). -/
def brcCond (k : Nat) (x : Int) : Bool :=
  match k with
  | 0 => x == 0
  | 1 => x != 0
  | 2 => decide (x < 0)
  | 3 => decide (0 ≤ x)
  | 4 => decide (x ≤ 0)
  | _ => decide (0 < x)

/-- BRC: on a scalar of an integer tag or M64, for every active lane alike (R120, R121). -/
def bodyBrc (k : BitVec 3) (a : BitVec 5) (i : BitVec 17) (c : Ctx) (s : State) : WordResult :=
  let x := c.getS a
  match c.laneScalarCheck [(2, x, Tag.shiftable)] with
  | some t => .trap t
  | none =>
    let take := brcCond k.toNat (signedOf x.tag.scalarWidth x.read)
    .done (s.branch c (if take then c.active else []) (c.grp.packet + i.signExtend 64))

/-- BRP: where the predicate, inverted by N, is true (R120, R121). -/
def bodyBrp (p : BitVec 3) (n : BitVec 1) (i : BitVec 21) (c : Ctx) (s : State) : WordResult :=
  .done (s.branch c (c.active.filter fun l => ((c.regs.lane l).getP p.toNat) != (n == 1)) (c.grp.packet + i.signExtend 64))

/-- The link of CALL: the packet after the word's own, tagged N64, in v31 of the active lanes (R122). -/
def State.link (s : State) (c : Ctx) : State :=
  s.writeV c 31 (c.active.map fun l => (l, mkVal .n64 (c.grp.packet + 1).toNat))

/-- CALL: the link, and every active lane to packet + I25 (R122). -/
def bodyCall (i : BitVec 25) (c : Ctx) (s : State) : WordResult :=
  .done ((s.link c).branch c c.active (c.grp.packet + i.signExtend 64))

/-- The tags of a jump target (R123). -/
def Tag.isPacket (t : Tag) : Bool := t == .i64 || t == .n64

/-- JMPI: every active lane to the packet in its A (R123). -/
def bodyJmpi (a : BitVec 6) (c : Ctx) (s : State) : WordResult :=
  match c.vecOperands s none [a] (sameTag Tag.isPacket) with
  | .error t => .trap t
  | .ok o => .done (o.state.transfer c (.jump (maskOf c.active) (o.vals.map fun v => (v.1, (opnd v.2 0).bits))))

/-- RET: every active lane to the packet in its v31 (R123). -/
def bodyRet (c : Ctx) (s : State) : WordResult :=
  let x (l : Nat) : RegVal := (c.regs.lane l).getV 31
  match firstTrap [
      c.laneCheck .poison c.active fun l => if (x l).tag == .poison then some (5, Tag.poison.code) else none,
      c.laneCheck .tag c.active fun l => if (x l).tag.isPacket then none else some (5, (x l).tag.code)] with
  | some t => .trap t
  | none => .done (s.transfer c (.jump (maskOf c.active) (c.active.map fun l => (l, (x l).bits))))

/-- JMPI.L: the target is read before the link is written (R123). -/
def bodyJmpiL (a : BitVec 6) (c : Ctx) (s : State) : WordResult :=
  match c.vecOperands s none [a] (sameTag Tag.isPacket) with
  | .error t => .trap t
  | .ok o => .done ((o.state.link c).transfer c (.jump (maskOf c.active) (o.vals.map fun v => (v.1, (opnd v.2 0).bits))))

end Sys2Proof.Machine
end

