-- ==== Sys2Proof/Machine/Cross.lean ====
section
/-! DEFINITION. The cross-lane words: tiles, member masks, the rendezvous, XLANE and XRED (R107, R108, R161-R172). -/

namespace Sys2Proof.Machine

/-- What a cross-lane word sees once its groups have come together: the crew width, the tile width T, the member mask, the present lanes, and their
operands A, B and predicate (R161-R164). -/
structure XIn where
  width : Nat
  tile : Nat
  mask : DWord
  present : List Nat
  vals : List (Nat × (RegVal × RegVal × Bool))

/-- Why a cross-lane word traps. -/
structure XFail where
  cause : Cause
  lanes : List Nat
  detail : Nat := 0
  aux : Nat := 0

/-- Operand A of a lane. -/
def XIn.a (x : XIn) (l : Nat) : RegVal := ((tget x.vals l).map (·.1)).getD {}

/-- Operand B of a lane. -/
def XIn.b (x : XIn) (l : Nat) : RegVal := ((tget x.vals l).map (·.2.1)).getD {}

/-- The predicate of a lane. -/
def XIn.p (x : XIn) (l : Nat) : Bool := ((tget x.vals l).map (·.2.2)).getD false

/-- The base lane of a lane's tile (R161). -/
def XIn.base (x : XIn) (l : Nat) : Nat := l - l % x.tile

/-- The members of a lane: the set bits of the mask within its tile (R162). -/
def XIn.members (x : XIn) (l : Nat) : List Nat :=
  ((List.range x.tile).map (x.base l + ·)).filter fun k => x.mask.getLsbD k

/-- The present members of a lane, ascending (R163). -/
def XIn.presents (x : XIn) (l : Nat) : List Nat := (x.members l).filter x.present.contains

/-- The tile width that a %tile code selects (R72, R161). -/
def tileWidth (width : Nat) (code : BitVec 3) : Nat := if code == 0 then width else 2 ^ code.toNat

/-- A failure of present lanes for which f finds a DETAIL and an AUX; those of the lowest such lane are reported. -/
def XIn.fails (_ : XIn) (cause : Cause) (lanes : List Nat) (f : Nat → Option (Nat × Nat)) : Option XFail :=
  match lanes.filter fun l => (f l).isSome with
  | [] => none
  | l :: ls => some { cause := cause, lanes := l :: ls, detail := ((f l).getD (0, 0)).1, aux := ((f l).getD (0, 0)).2 }

/-- The first failure. -/
def firstFail : List (Option XFail) → Option XFail
  | [] => none
  | some f :: _ => some f
  | none :: fs => firstFail fs

/-- A cross-lane operation: the POISON and TAG checks, and then either a LANE failure or the result and flags of every present lane. -/
structure XOp where
  check : XIn → Option XFail
  eval : XIn → Except XFail (List (Nat × RegVal × Flags))

/-! ### The rendezvous (R163-R166) -/

/-- The lanes that a GRD admits (R124). -/
def guardAdmit (r : CrewRegs) (width : Nat) (p : BitVec 3) (n : BitVec 1) : DWord :=
  maskOf ((List.range width).filter fun l => ((r.lane l).getP p.toNat) != (n == 1))

/-- The position of the cross-lane word of the chain group that a group stands at, with the guards in force there. -/
def State.reach (s : State) (c : Crew) : Group → Nat → Option Group
  | _, 0 => none
  | g, n + 1 =>
    match (s.packetOf c.launch g).bind fun ws => ws[g.word]? with
    | none => none
    | some w =>
      let major := (field w 25 6).toNat
      if major = 0x17 ∨ major = 0x18 then some g
      else if w.getLsbD 31 && g.word < 2 then
        let g := match decode w with
          | .ok (.grd _ p n k) =>
            { g with guards := g.guards ++ [({ allow := guardAdmit (g.snap.getD c.regs) c.width p n, left := k.toNat + 2 } : Guard)] }
          | _ => g
        s.reach c g.pass n
      else none

/-- The other groups of the crew that hold unexited members of the tiles of the given lanes. The spec does not say whether a tile all of whose own lanes a guard
excludes still waits: the word's lanes are here all member lanes of its group (log 52). -/
def Ctx.elsewhere (c : Ctx) (tile : Nat) (mask : DWord) (lanes : List Nat) (known : List Nat) : List Group :=
  let tiles := ((lanes.filter fun l => mask.getLsbD l).map fun l => l / tile).eraseDups
  c.crew.groups.filter fun g => !known.contains g.id &&
    (c.crew.groupLanes g).any fun l => mask.getLsbD l && tiles.contains (l / tile)

/-- The groups that a cross-lane word brings together: those that hold members of its lanes, members of theirs, and so on. -/
def Ctx.closure (c : Ctx) (tile : Nat) (mask : DWord) : Nat → List Group → List Group
  | 0, gs => gs
  | n + 1, gs =>
    match c.elsewhere tile mask (gs.flatMap c.crew.groupLanes) (gs.map (·.id)) with
    | [] => gs
    | more => c.closure tile mask n (gs ++ more)

/-- The context of another group at the cross-lane word, reading the registers as they stood before the common cycle (R14, R49, R164), when it waits there with the same tile width and has not issued the word already (R164, R161). -/
def State.arrived (s : State) (c : Ctx) (g : Group) : Option Ctx :=
  if g.wait != some .rendezvous || g.joined.isSome || tileWidth c.crew.width g.tileCode != tileWidth c.crew.width c.grp.tileCode then none
  else match s.reach c.crew g 3 with
    | none => none
    | some h =>
      if h.packet == c.grp.packet && h.word == c.grp.word then some { c with
        grp := h, regs := g.snap.getD c.regs, fill := if g.snap.isSome then g.snapFill else g.fill
        queues := if g.snap.isSome then g.snapQueues else c.queues, active := c.crew.activeLanes h }
      else none

/-- What a group brings to the word: its operands per active lane. -/
def Ctx.brings (c : Ctx) (codes : List (BitVec 6)) (p : Nat) (vals : List (Nat × List RegVal)) :
    List (Nat × (RegVal × RegVal × Bool)) :=
  let constB : Bool := (codes.drop 1).any fun k => (Src.ofCode k).isConst
  vals.map fun v => (v.1, v.2.getD 0 {},
    (if constB then mkVal .n64 (if (codes.drop 1).any fun k => Src.ofCode k == .one then 1 else 0) else v.2.getD 1 {}),
    (c.regs.lane v.1).getP p)

/-- The trap of a failing cross-lane word. -/
def Ctx.xTrap (c : Ctx) (f : XFail) : TrapInfo := c.fail f.cause f.lanes f.detail f.aux

/-- The end of a cross-lane word in its own group (R164, R172). -/
def Ctx.xFinish (c : Ctx) (s : State) (d : BitVec 6) (x : XIn) (rs : List (Nat × RegVal × Flags)) : WordResult :=
  let own := rs.filter fun r => c.active.contains r.1
  let s := s.modGrp c fun g => { g with joined := none, since := none }
  c.finishFp (own.map fun r => (r.1, r.2.2)) (own.map fun r => (r.1, r.2.1, x.a r.1, {}, {}))
    (s.pushWrite c d (own.map fun r => (r.1, r.2.1)))

/-- The end of a cross-lane word that has issued with another group's: its results are written (R164). -/
def Ctx.xWrite (c : Ctx) (s : State) (d : BitVec 6) (r : Rendezvous) : State :=
  let s := s.modGrp c fun g => { g with joined := none, since := none }
  (s.pushWrite c d (r.results.map fun x => (x.1, x.2.1))).mergeFlags c.cid (orFlags (r.results.map (·.2.2)))

/-- The operands of every group that has come to the word, in the order of the list; none when one of them cannot supply them. -/
def State.collect (s : State) (codes : List (BitVec 6)) (p : Nat) : List Ctx → Option (List (Nat × (RegVal × RegVal × Bool)) × State)
  | [] => some ([], s)
  | c :: cs =>
    match c.operands s codes with
    | .error _ => none
    | .ok o => match o.state.collect codes p cs with
      | none => none
      | some r => some (c.brings codes p o.vals ++ r.1, r.2)

/-- A waiting group joined to the issue of its cross-lane word: its chain group begins, in the same cycle, with the registers as its context has them (R14, R164). -/
def Group.join (c : Ctx) (r : Rendezvous) (g : Group) : Group :=
  { g with
    joined := some r, since := none, wait := none, snap := some c.regs, snapFill := c.fill, snapQueues := c.queues, snapShapes := c.shapes }

/-- The member mask that a code names: every lane for code 0; a scalar that is not tagged M64 has no bits (R162). -/
def Ctx.memberMask (c : Ctx) (m : BitVec 3) : DWord :=
  let r := c.regs.getS false m.toNat
  if m == 0 then maskOf (List.range c.crew.width) else if r.tag == .m64 then r.bits else 0

/-- The POISON and TAG checks of a member mask (R162); with no active lane nothing is checked, and the mask has no bits (log 25). -/
def Ctx.maskTag (c : Ctx) (m : BitVec 3) : Option XFail :=
  let r := c.regs.getS false m.toNat
  if m == 0 || c.active.isEmpty then none
  else if r.tag == .poison then some { cause := .poison, lanes := c.active, detail := 5 }
  else if r.tag != .m64 then some { cause := .tag, lanes := c.active, detail := 5, aux := r.tag.code }
  else none

/-- The value checks of a member mask over the active lanes of every group that has come: a bit at or above the crew width, or an active lane outside the mask (R162, R163). -/
def XIn.maskFail (x : XIn) : Option XFail :=
  if x.present.isEmpty then none
  else if x.mask.toNat / 2 ^ x.width ≠ 0 then some { cause := .illop, lanes := x.present, detail := 5 }
  else match x.present.filter fun l => !x.mask.getLsbD l with
    | [] => none
    | bad => some { cause := .illop, lanes := bad, detail := 5 }

/-- The FPX failure of a cross-lane word over all its present lanes: nothing of it happens before the trap (R172). -/
def Ctx.xFpx (c : Ctx) (rs : List (Nat × RegVal × Flags)) : List Nat :=
  let en : Flags := c.regs.fptrap.extractLsb' 0 5
  if c.handler then [] else (rs.filter fun r => r.2.2 &&& en != 0).map (·.1)

/-- The failure of a word whose member mask cannot be used: POISON in its own group's operands stands before the TAG of the mask (R162). -/
def maskEarly (f : XFail) (own : Option XFail) : XFail :=
  if f.cause == .poison then f
  else match own with
    | some g => if g.cause == .poison then g else f
    | none => f

/-- A cross-lane word (R161-R168): codes, mask, the rendezvous, and then over all groups that came to it POISON, TAG, the value of the mask, and the
operation's own failure. The word issues once for all of them: the results of the other groups are theirs to write, in chain groups that issue before anything else moves. A failure is taken by the group
that holds its lowest lane; the others keep waiting (log 19). -/
def Ctx.xWord (c : Ctx) (s : State) (d : BitVec 6) (codes : List (BitVec 6)) (p : Nat) (m : BitVec 3) (op : XOp) : WordResult :=
  match c.illopCheck ((1, c.badDst (Dst.ofCode d)) :: codes.zipIdx.map fun x => (x.2 + 2, c.badSrc (Src.ofCode x.1))) with
  | some t => .trap t
  | none =>
    match c.grp.joined with
    | some r => .done (c.xWrite s d r)
    | none =>
      match c.operands s codes with
      | .error t => .trap t
      | .ok o =>
        let width := c.crew.width
        let tile := tileWidth width c.grp.tileCode
        let mask := c.memberMask m
        let mine := c.brings codes p o.vals
        match c.maskTag m with
        | some f => .trap (c.xTrap (maskEarly f (op.check { width := width, tile := tile, mask := maskOf (List.range width), present := c.active, vals := mine })))
        | none =>
          let others := if c.handler then [] else (c.closure tile mask width [c.grp]).drop 1
          let there := others.map (s.arrived c)
          if there.any Option.isNone then .wait .rendezvous
          else
            match o.state.collect codes p (there.filterMap id) with
            | none => .wait .rendezvous
            | some r =>
              let vals := mine ++ r.1
              let x : XIn := { width := width, tile := tile, mask := mask, present := (List.range width).filter fun l => (tget vals l).isSome, vals := vals }
              let failed (f : XFail) : WordResult :=
                if f.lanes.head?.any c.active.contains then .trap (c.xTrap f) else .wait .rendezvous
              match firstFail [op.check x, x.maskFail] with
              | some f => failed f
              | none => match op.eval x with
                | .error f => failed f
                | .ok rs =>
                  match (c.xFpx rs).head? with
                  | some l => if c.active.contains l then c.xFinish o.state d x rs else .wait .rendezvous
                  | none =>
                    let left (g : Group) : Rendezvous := { results := rs.filter fun r => (c.crew.activeLanes g).contains r.1 }
                    let s1 := (there.filterMap id).foldl (fun s g => s.modGroup c.cid g.grp.id (Group.join g (left g.grp))) r.2
                    c.xFinish s1 d x rs

/-! ### XLANE (R167, R168) -/

/-- The source position of a lane (R167): op is F7[5:3], b the index, t the lane's position. -/
def sourcePos (op tile b t : Nat) : Nat :=
  match op with
  | 1 => (t + tile - b % tile) % tile
  | 2 => (t + b) % tile
  | 3 => t ^^^ (b % tile)
  | _ => b % tile

/-- The lane whose B a lane uses: its own, or for BCAST the lowest present lane of its tile (R167). -/
def XIn.indexLane (x : XIn) (op l : Nat) : Nat :=
  if op = 4 then ((x.present.filter fun k => k / x.tile == l / x.tile).head?).getD l else l

/-- The lane that a lane reads (R168). -/
def XIn.source (x : XIn) (op l : Nat) : Nat :=
  x.base l + sourcePos op x.tile (x.b (x.indexLane op l)).toUnsigned (l % x.tile)

/-- Whether a lane can supply another with its value: a present member (R168). -/
def XIn.supplies (x : XIn) (src l : Nat) : Bool := (x.members l).contains src && x.present.contains src

/-- The shuffles and the broadcast (R168). -/
def xlaneOp (op : Nat) (permissive : Bool) : XOp where
  check x :=
    let bTag (l : Nat) : Tag := (x.b (x.indexLane op l)).tag
    let bLanes := if op = 4 then x.present.filter fun l => x.indexLane op l == l else x.present
    firstFail [
      x.fails .poison x.present fun l =>
        if (bLanes.contains l && (x.b l).tag == .poison) then some (3, 15)
        else if (bTag l).isInt && x.supplies (x.source op l) l && (x.a (x.source op l)).tag == .poison then some (2, 15) else none,
      x.fails .tag bLanes fun l => if (x.b l).tag.isInt then none else some (3, (x.b l).tag.code)]
  eval x :=
    match x.present.filter fun l => !permissive && !x.supplies (x.source op l) l with
    | [] => .ok (x.present.map fun l =>
        let src := x.source op l
        (l, (if x.supplies src l then { x.a src with pend := none } else { bits := 0, tag := (x.a l).tag }), 0))
    | bad => .error { cause := .lane, lanes := bad }

/-- SHFL: the value at position b mod T (R167, R168). -/
def bodyShfl (d a b : BitVec 6) (p : BitVec 1) (m : BitVec 3) (c : Ctx) (s : State) : WordResult :=
  c.xWord s d [a, b] 0 m (xlaneOp 0 (p == 1))

/-- SHFLUP: position (t − b) mod T (R167, R168). -/
def bodyShflup (d a b : BitVec 6) (p : BitVec 1) (m : BitVec 3) (c : Ctx) (s : State) : WordResult :=
  c.xWord s d [a, b] 0 m (xlaneOp 1 (p == 1))

/-- SHFLDN: position (t + b) mod T (R167, R168). -/
def bodyShfldn (d a b : BitVec 6) (p : BitVec 1) (m : BitVec 3) (c : Ctx) (s : State) : WordResult :=
  c.xWord s d [a, b] 0 m (xlaneOp 2 (p == 1))

/-- SHFLX: position t XOR (b mod T) (R167, R168). -/
def bodyShflx (d a b : BitVec 6) (p : BitVec 1) (m : BitVec 3) (c : Ctx) (s : State) : WordResult :=
  c.xWord s d [a, b] 0 m (xlaneOp 3 (p == 1))

/-- BCAST: position b mod T, with b from the lowest present lane of the tile (R167, R168). -/
def bodyBcast (d a b : BitVec 6) (p : BitVec 1) (m : BitVec 3) (c : Ctx) (s : State) : WordResult :=
  c.xWord s d [a, b] 0 m (xlaneOp 4 (p == 1))

/-! ### XRED: votes (R169, R170) -/

/-- A vote: from how many members count 1 and how many members there are, or the mask of those that count 1. -/
def voteOp (f : XIn → Nat → RegVal) : XOp where
  check _ := none
  eval x := .ok (x.present.map fun l => (l, f x l, 0))

/-- The members of a lane that count 1: present with a true predicate (R170). -/
def XIn.ayes (x : XIn) (l : Nat) : List Nat := (x.presents l).filter x.p

/-- A truth value as a vote's result, tagged N32 (R169). -/
def voteBit (b : Bool) : RegVal := mkVal .n32 (if b then 1 else 0)

/-- VOTE.ANY (R169, R170). -/
def bodyVoteAny (d : BitVec 6) (p m : BitVec 3) (c : Ctx) (s : State) : WordResult :=
  c.xWord s d [] p.toNat m (voteOp fun x l => voteBit (!(x.ayes l).isEmpty))

/-- VOTE.ALL (R169, R170). -/
def bodyVoteAll (d : BitVec 6) (p m : BitVec 3) (c : Ctx) (s : State) : WordResult :=
  c.xWord s d [] p.toNat m (voteOp fun x l => voteBit ((x.ayes l).length == (x.members l).length))

/-- VOTE.BAL (R169, R170). -/
def bodyVoteBal (d : BitVec 6) (p m : BitVec 3) (c : Ctx) (s : State) : WordResult :=
  c.xWord s d [] p.toNat m (voteOp fun x l => mkVal .m64 (maskOf (x.ayes l)).toNat)

/-- VOTE.EQ (R169, R170). -/
def bodyVoteEq (d : BitVec 6) (p m : BitVec 3) (c : Ctx) (s : State) : WordResult :=
  c.xWord s d [] p.toNat m (voteOp fun x l => voteBit ((x.ayes l).isEmpty || (x.ayes l).length == (x.members l).length))

/-! ### XRED: reductions, scans, MATCH (R107, R108, R169, R171, R172) -/

/-- POISON in A of a present lane (R57). -/
def XIn.poisonA (x : XIn) : Option XFail :=
  x.fails .poison x.present fun l => if (x.a l).tag == .poison then some (2, 15) else none

/-- The tags of the reductions that combine numbers (R171): integer, packed integer, F32, F64, F16x4, BF16x4. -/
def Tag.reducible (t : Tag) : Bool := t.anyInt || t.isFloat

/-- The TAG check of R171: one accepted tag in every tile; a failure holds every present lane. -/
def XIn.tagA (x : XIn) : Option XFail :=
  match x.present.find? fun l => !(x.a l).tag.reducible || (x.presents l).any fun k => (x.a k).tag != (x.a l).tag with
  | none => none
  | some l => some { cause := .tag, lanes := x.present, detail := 2, aux := (x.a l).tag.code }

/-- One level of the pairwise tree of R107. -/
def treeLevel (f : Nat → Nat → Nat × Flags) : List (Option (Nat × Flags)) → List (Option (Nat × Flags))
  | a :: b :: t =>
    (match a, b with
      | some x, some y => let r := f x.1 y.1; some (r.1, r.2 ||| x.2 ||| y.2)
      | some x, none => some x
      | none, y => y) :: treeLevel f t
  | t => t

/-- The tree of R107 over a tile: n levels. -/
def treeSum (f : Nat → Nat → Nat × Flags) : Nat → List (Option (Nat × Flags)) → Option (Nat × Flags)
  | 0, xs => xs.headD none
  | n + 1, xs => treeSum f n (treeLevel f xs)

/-- The sum of two elements under a tag: rounded in RNE under FTZ, or wrapped (R83, R107). -/
def elemAdd (t : Tag) (ftz : Bool) (x y : Nat) : Nat × Flags :=
  match t.floatFmt with
  | some f => fAdd f .rne ftz x y
  | none => ((x + y) % 2 ^ t.elemBits, 0)

/-- An element as a reduction reads it: with FTZ a subnormal is a zero of its sign (R90). -/
def elemRead (t : Tag) (ftz : Bool) (x : Nat) : Nat :=
  match t.floatFmt with
  | some f => f.flush ftz x
  | none => x

/-- An element as a scan returns it where it meets no addition: a NaN is the canonical one (R89). -/
def elemCanon (t : Tag) (x : Nat) : Nat :=
  match t.floatFmt with
  | some f => if (f.read x).isNan then f.nan else x
  | none => x

/-- The element i of a lane's A. -/
def XIn.elem (x : XIn) (t : Tag) (l i : Nat) : Nat := (elemsOf t (x.a l).bits).getD i 0

/-- A reduction of each element of the present members of a lane's tile. -/
def redOp (f : XIn → Tag → Nat → Nat → Nat × Flags) : XOp where
  check x := firstFail [x.poisonA, x.tagA]
  eval x := .ok (x.present.map fun l =>
    let t := (x.a l).tag
    (l, gather t ((List.range t.elemCount).map fun i => f x t l i)))

/-- NV where a signalling NaN is among elements: it is an operand of the word also where it meets no addition (R79; log 53). -/
def snanAmong (t : Tag) (xs : List Nat) : Flags :=
  match t.floatFmt with
  | some f => snanFlag (xs.map f.read)
  | none => 0

/-- REDADD's element: the tree of R107, present members at their positions, each read under FTZ (R90). A value that meets no addition passes through
unchanged (R107). -/
def redaddElem (ftz : Bool) (x : XIn) (t : Tag) (l i : Nat) : Nat × Flags :=
  let ps := x.presents l
  let xs := (List.range x.tile).map fun k =>
    if ps.contains (x.base l + k) then some (elemRead t ftz (x.elem t (x.base l + k) i), (0 : Flags)) else none
  let r := (treeSum (elemAdd t ftz) (Nat.log2 x.tile) xs).getD (0, 0)
  (r.1, r.2 ||| snanAmong t (ps.map fun k => x.elem t k i))

/-- A minimum or maximum of two elements under a tag: I tags and packed integers signed, N tags unsigned (R171, R172). -/
def elemPick (t : Tag) (ftz wantMax : Bool) (x y : Nat) : Nat × Flags :=
  match t.floatFmt with
  | some f => fMinMax f ftz wantMax false x y
  | none =>
    let v (u : Nat) : Int := if t.isSigned then signedOf t.elemBits u else u
    ((if wantMax then (if v x < v y then y else x) else (if v y < v x then y else x)), 0)

/-- REDMIN's and REDMAX's element: a fold over the present members, each read under FTZ (R172). -/
def redpickElem (ftz wantMax : Bool) (x : XIn) (t : Tag) (l i : Nat) : Nat × Flags :=
  match (x.presents l).map fun k => x.elem t k i with
  | [] => (0, 0)
  | v :: vs => (v :: vs).foldl (fun acc u => let r := elemPick t ftz wantMax acc.1 u; (r.1, acc.2 ||| r.2)) (v, 0)

/-- A left fold of additions of values read under FTZ; an empty one gives +0 (R90, R108). A first value that is a NaN is the canonical one (R89). -/
def foldAdd (t : Tag) (ftz : Bool) : List Nat → Nat × Flags
  | [] => (0, 0)
  | [v] => (elemCanon t (elemRead t ftz v), 0)
  | v :: vs => vs.foldl (fun acc u => let r := elemAdd t ftz acc.1 u; (r.1, acc.2 ||| r.2)) (elemRead t ftz v, 0)

/-- SCANADD's and SCANADDX's element (R108). The lane's own value is an operand of the word in both (R79; log 53). -/
def scanElem (ftz inclusive : Bool) (x : XIn) (t : Tag) (l i : Nat) : Nat × Flags :=
  let vs := ((x.presents l).filter fun k => k < l || (inclusive && k == l)).map fun k => x.elem t k i
  let r := foldAdd t ftz vs
  (r.1, r.2 ||| snanAmong t (x.elem t l i :: vs))

/-- A bitwise reduction, tagged as the lowest present lane (R169). -/
def bitsOp (f : DWord → DWord → DWord) : XOp where
  check x := x.poisonA
  eval x := .ok (x.present.map fun l =>
    match x.presents l with
    | [] => (l, {}, 0)
    | k :: ks => (l, mkVal (x.a k).tag (ks.foldl (fun acc j => f acc (x.a j).bits) (x.a k).bits).toNat, 0))

/-- REDADD (R107, R169). -/
def bodyRedadd (d a : BitVec 6) (m : BitVec 3) (c : Ctx) (s : State) : WordResult :=
  c.xWord s d [a] 0 m (redOp (redaddElem c.regs.ftz))

/-- REDMIN (R169, R172). -/
def bodyRedmin (d a : BitVec 6) (m : BitVec 3) (c : Ctx) (s : State) : WordResult :=
  c.xWord s d [a] 0 m (redOp (redpickElem c.regs.ftz false))

/-- REDMAX (R169, R172). -/
def bodyRedmax (d a : BitVec 6) (m : BitVec 3) (c : Ctx) (s : State) : WordResult :=
  c.xWord s d [a] 0 m (redOp (redpickElem c.regs.ftz true))

/-- REDAND (R169). -/
def bodyRedand (d a : BitVec 6) (m : BitVec 3) (c : Ctx) (s : State) : WordResult := c.xWord s d [a] 0 m (bitsOp (· &&& ·))

/-- REDOR (R169). -/
def bodyRedor (d a : BitVec 6) (m : BitVec 3) (c : Ctx) (s : State) : WordResult := c.xWord s d [a] 0 m (bitsOp (· ||| ·))

/-- REDXOR (R169). -/
def bodyRedxor (d a : BitVec 6) (m : BitVec 3) (c : Ctx) (s : State) : WordResult := c.xWord s d [a] 0 m (bitsOp (· ^^^ ·))

/-- SCANADD (R108, R169). -/
def bodyScanadd (d a : BitVec 6) (m : BitVec 3) (c : Ctx) (s : State) : WordResult :=
  c.xWord s d [a] 0 m (redOp (scanElem c.regs.ftz true))

/-- SCANADDX (R108, R169). -/
def bodyScanaddx (d a : BitVec 6) (m : BitVec 3) (c : Ctx) (s : State) : WordResult :=
  c.xWord s d [a] 0 m (redOp (scanElem c.regs.ftz false))

/-- MATCH: the present members with the same 64 bits and tag (R169). -/
def matchOp : XOp where
  check x := x.poisonA
  eval x := .ok (x.present.map fun l =>
    (l, mkVal .m64 (maskOf ((x.presents l).filter fun k => (x.a k).bits == (x.a l).bits && (x.a k).tag == (x.a l).tag)).toNat, 0))

/-- MATCH (R169). -/
def bodyXmatch (d a : BitVec 6) (m : BitVec 3) (c : Ctx) (s : State) : WordResult := c.xWord s d [a] 0 m matchOp

end Sys2Proof.Machine
end

