-- ==== Sys2Proof/Machine/Access.lean ====
section
/-! DEFINITION. What the memory words and the memory events share: a crew's view of memory with its own stores on their way (R246, R319), the address checks over lanes (R245), tickets (R385, R386). -/

namespace Sys2Proof.Machine

/-! ### The crew's view (R246, R317, R319) -/

/-- Whether two places lie in one store. -/
def Place.sameStore (a b : Place) : Bool := a.moved 0 == b.moved 0

/-- Whether n bytes at one place overlap m bytes at another. -/
def Place.meets (a : Place) (n : Nat) (b : Place) (m : Nat) : Bool := a.sameStore b && rangesMeet a.start n b.start m

/-- What a store entry writes, at the places where it would fall now; atomics and landing updates write when they are applied. -/
def State.entWrites (s : State) (c : Crew) (e : StoreEnt) : List (Place × List Byte) :=
  match e.op with
  | .st lanes => lanes.map fun x => (s.placeOf c true x.2.1, x.2.2)
  | _ => []

/-- The writes of a crew's queued stores issued before an operation, per entry, that fall in the store of a place. -/
def State.queuedWrites (s : State) (c : Crew) (before : Nat) (pl : Place) : List (List (Nat × List Byte)) :=
  ((c.storeQ.filter fun e => e.id < before).map fun e =>
    ((s.entWrites c e).filter fun w => w.1.sameStore pl).map fun w => (w.1.start, w.2))

/-- The bytes at a place as a crew reads them: its core's view with its own queued stores laid over it (R246). -/
def State.crewBytes (s : State) (c : Crew) (before : Nat) (pl : Place) (n : Nat) : List Byte :=
  ((s.queuedWrites c before pl).flatMap id).foldl (overlayAt pl.start) (s.placeBytes c.core pl n)

/-- Whether a crew reads poison at a place: a marked granule that no store on its way covers whole (R252). -/
def State.crewPoisoned (s : State) (c : Crew) (before : Nat) (pl : Place) (n : Nat) : Bool :=
  let coming : List (List (Nat × List Byte)) := match pl with
    | .vault _ => (s.vaultView c.core).map (·.writes)
    | .spad _ _ _ => []
  let all := coming ++ s.queuedWrites c before pl
  (granulesOf pl.start n).any fun g => s.placePoisoned (pl.moved (16 * g)) 1 && !(all.any fun ws => coversGranule ws g)

/-- Whether an entry of the crew's store queue may change what a word reads at a place: an atomic or a landing update, or a store to those bytes. -/
def State.queueHolds (s : State) (c : Crew) (before : Nat) (pl : Place) (n : Nat) : Bool :=
  c.storeQ.any fun e => e.id < before && match e.op with
    | .st _ => (s.entWrites c e).any fun w => w.1.meets w.2.length pl n
    | _ => true

/-- Whether an earlier acquiring access of a crew has not returned: a load, an atomic, or an ordered FATOM that has not performed. No access of the crew from
issue number k on performs before (R251, R301, R325). -/
def State.acquireDue (s : State) (c : Crew) (k : Nat) : Bool :=
  (c.loads.any fun l => l.acquire && l.id < k)
    || (c.storeQ.any fun e => e.acquire && e.id < k)
    || (c.replies.any fun r => r.ent.acquire && r.id < k)
    || ((s.core c.core).vaultPend.any fun v => v.crew == c.id && v.acquire && v.id < k)
    || (s.core c.core).ferry.any fun x => x.2.crew == c.id && x.2.seq < k && x.2.op == .fatom && !x.2.done && x.2.prog == 0
        && leAt x.2.desc 30 1 % 4 != 0

/-- Whether the elements of a stream cannot be read yet: the crew's stores and loads from before its STRM.SET have not performed, or an acquiring access of the
crew has not returned (R251, R271, R320). -/
def State.elementsHeld (s : State) (c : Crew) (st : StreamInst) : Bool :=
  (c.storeQ.any fun x => x.id < st.setAt) || (c.loads.any fun x => x.id < st.setAt) || s.acquireDue c c.nextOp

/-- Whether stores still on their way to their vault homes hold back a release or a fence of a crew at a scope (R251, R254, R326): from twin scope on, and in a
twin block from block scope on, every store that its core sees has arrived. -/
def State.vaultDue (s : State) (c : Crew) (scope : Nat) : Bool :=
  (if ((tget s.blocks c.block).map Block.isTwin).getD false then 1 else 2) ≤ scope && !(s.vaultView c.core).isEmpty

/-! ### Address checks over lanes (R245) -/

/-- One lane's access: its address and what the address checks find. -/
structure LaneAcc where
  lane : Nat
  addr : DWord
  chk : AddrCheck

/-- The size in bytes that an SZ code names (R33). -/
def memSize (z : BitVec 3) : Nat := 2 ^ z.toNat

/-- A lane's address: A, and with AM = 01 also %lane × size (R240, R243). -/
def laneAddr (a : RegVal) (m : BitVec 2) (size lane : Nat) : DWord :=
  a.toAddress + if m == 1 then BitVec.ofNat 64 (lane * size) else 0

/-- The accesses of a word over its active lanes. -/
def Ctx.accesses (c : Ctx) (s : State) (p m : BitVec 2) (size : Nat) (write : Bool) (vals : List (Nat × List RegVal)) : List LaneAcc :=
  vals.map fun v =>
    let a := laneAddr (opnd v.2 0) m size v.1
    { lane := v.1, addr := a, chk := s.addrCheck c.env p a size write }

/-- The trap of the accesses for which f finds an AUX; %taddr is the lowest failing lane's address. -/
def Ctx.accTrap (c : Ctx) (cause : Cause) (detail : Nat) (as : List LaneAcc) (f : LaneAcc → Option Nat) : Option TrapInfo :=
  match as.filter fun a => (f a).isSome with
  | [] => none
  | x :: xs => some (c.fail cause ((x :: xs).map (·.lane)) detail ((f x).getD 0) x.addr)

/-- ALIGN, BOUNDS and PROT in this order, with the numbers of their lines in the word's check table (R245). -/
def Ctx.addrTrap (c : Ctx) (as : List LaneAcc) (al bo pr : Nat) : Option TrapInfo :=
  firstTrap [
    c.accTrap .align al as (fun a => if a.chk == .align then some 0 else none),
    c.accTrap .bounds bo as (fun a => if a.chk == .bounds then some 0 else none),
    c.accTrap .prot pr as (fun a => match a.chk with
      | .prot x => some x
      | _ => none)]

/-- The location of an access that passed its checks. -/
def LaneAcc.loc (a : LaneAcc) : Option Loc :=
  match a.chk with
  | .ok l _ => some l
  | _ => none

/-- The scratchpad ranges among accesses of n bytes. -/
def spadOf (as : List LaneAcc) (n : Nat) : List (Nat × Nat) := spadRanges (as.filterMap LaneAcc.loc) n

/-- The segment budget (R230): PROT when the lanes need more new granules than the pool has left. -/
def Ctx.budgetTrap (c : Ctx) (as : List LaneAcc) (n line : Nat) : Option TrapInfo :=
  if (c.blk.newClaims c.crew.side (spadOf as n)).length ≤ (c.blk.side c.crew.side).pool then none
  else c.accTrap .prot line as fun a =>
    if (c.blk.newClaims c.crew.side (spadOf [a] n)).isEmpty then none else some 2

/-- The claim of the granules that a word's stores will copy (R230). -/
def State.claimFor (s : State) (c : Ctx) (as : List LaneAcc) (n : Nat) : State :=
  s.claim c.blk.id c.crew.side (c.blk.newClaims c.crew.side (spadOf as n))

/-- POISON in the address (field 2, with the address) or in the stored data (field 1) (R245, R359). -/
def Ctx.memPoison (c : Ctx) (m : BitVec 2) (size : Nat) (vals : List (Nat × List RegVal)) : Option TrapInfo :=
  let bad (vs : List RegVal) : Bool := vs.any fun v => v.tag == .poison
  match vals.filter fun v => bad v.2 with
  | [] => none
  | v :: vs =>
    let inAddr := (opnd v.2 0).tag == .poison
    some (c.fail .poison ((v :: vs).map (·.1)) (if inAddr then 2 else 1) 0 (if inAddr then laneAddr (opnd v.2 0) m size v.1 else 0))

/-- The address operand's tag: an integer one, and never a constant code's (R27, R240). -/
def addrTagBad (a : BitVec 6) (vs : List RegVal) : Option (Nat × Tag) :=
  if (Src.ofCode a).isConst then some (2, .raw)
  else if (opnd vs 0).tag.isInt then none
  else some (2, (opnd vs 0).tag)

/-- Whether a data code names the even register of a pair (R244). -/
def pairCode (d : BitVec 6) : Bool := 0x10 ≤ d.toNat && d.toNat < 0x30 && d.toNat % 2 == 0

/-! ### Tickets (R385, R386) -/

/-- The crew's ticket horizon H (R386). -/
def Crew.horizon (c : Crew) : BitVec 16 := c.tickets.headD c.seq

/-- Whether the crew's next ticketed word must stall: its SEQ would reach H + 2^15 (R386). -/
def Crew.horizonFull (c : Crew) : Bool := 2 ^ 15 ≤ (c.seq - c.horizon).toNat

/-- The ticket of a sequence number of a crew (R385). -/
def State.ticketOf (s : State) (c : Crew) (seq : BitVec 16) : DWord :=
  let ctx := ((tget s.launches c.launch).map (·.ctx)).getD 0
  BitVec.ofNat 64 (ctx % 2 ^ 32 + c.key.toNat * 2 ^ 32 + seq.toNat * 2 ^ 48)

/-- The key of a launch's ticket in the duplicate filters: context numbers are a partition's own (R385, R387, log 51). -/
def State.ticketKey (s : State) (lid : Nat) (t : Option DWord) : Nat := s.pidOf lid * 2 ^ 64 + (t.getD 0).toNat

/-- The crew's next ticket taken. -/
def Crew.takeTicket (c : Crew) : Crew := { c with seq := c.seq + 1, tickets := c.tickets ++ [c.seq] }

/-- A ticket completed (R386). -/
def Crew.endTicket (c : Crew) (t : Option DWord) : Crew :=
  match t with
  | none => c
  | some t => { c with tickets := c.tickets.filter fun q => q.toNat != t.toNat / 2 ^ 48 }

/-- The crew's next operation number; an operation takes two, the second for the odd register of a pair (R244). -/
def Crew.takeOp (c : Crew) : Crew := { c with nextOp := c.nextOp + 2 }

/-- A load-value entry that waits for an operation of a lead (R464). -/
def State.awaitLv (s : State) (c : Crew) (op : Nat) (lanes : List Nat) : State :=
  s.modLvq c fun q => q ++ [({ op := op, left := lanes } : LvEnt)]

/-- A lane of an awaited load-value entry filled (R464). -/
def State.fillLv (s : State) (c : Crew) (op lane : Nat) (v w : RegVal) : State :=
  s.modLvq c fun q => q.map fun e : LvEnt =>
    if e.op == op then { e with left := e.left.filter (· != lane), vals := e.vals ++ [(lane, v, w)] } else e

/-- A scalar that a lead receives at issue, recorded for its shadow (R464). -/
def State.recordS (s : State) (c : Ctx) (v : RegVal) : State := s.recordLv c.crew [(0, v, {})]

end Sys2Proof.Machine
end

