-- ==== Sys2Proof/Machine/Memory.lean ====
section
/-! DEFINITION. The meanings of the M-pipe words but the tile transfers: LD, ST, ATOM, the FENCE group, LND and STRM (R239-R271). A word only issues its access here; Machine/Lsu.lean performs it. -/

namespace Sys2Proof.Machine

/-! ### LD, ST, ATOM (R243-R252) -/

/-- LD: one load of every active lane enters the crew's outstanding loads; the entry and the named registers stay pending until it has returned (R246). -/
def State.issueLoad (s : State) (c : Ctx) (d : BitVec 6) (ty : Tag) (size : Nat) (o : BitVec 2) (as : List LaneAcc) : State :=
  let id := c.crew.nextOp
  let lanes := as.filterMap fun a => a.loc.map fun l => (a.lane, l)
  let wait (k : Nat) : RegVal := { tag := ty, pend := some k }
  let s := s.pushWrite c d (lanes.map fun l => (l.1, wait id))
  if lanes.isEmpty then s
  else
    let s := if size = 16 then s.writeV c (d.toNat - 0x0F) (lanes.map fun l => (l.1, wait (id + 1))) else s
    let op : LoadOp := {
      id := id, ty := ty, size := size, dest := d, lanes := lanes, acquire := o != 0, sc := o == 2, word := c.word, gen := c.crew.gen }
    let s := s.modCrew c.cid fun w => { w.takeOp with loads := w.loads ++ [op] }
    (s.count c.cid fun n => { n with loads := n.loads + 1 }).awaitLv c.crew id (lanes.map (·.1))

/-- LD (R243-R246). -/
def bodyLd (d a : BitVec 6) (p : BitVec 2) (z : BitVec 3) (t : BitVec 4) (o m : BitVec 2) (c : Ctx) (s : State) : WordResult :=
  let size := memSize z
  match c.illopCheck [
      (1, c.badDst (Dst.ofCode d) || (size == 16 && !pairCode d)),
      (2, c.badSrc (Src.ofCode a))] with
  | some t => .trap t
  | none =>
    match c.operands s [a] with
    | .error t => .trap t
    | .ok v =>
      let as := c.accesses s p m size false v.vals
      match firstTrap [c.memPoison m size v.vals, c.tagCheck v.vals (addrTagBad a), c.addrTrap as 5 6 7] with
      | some t => .trap t
      | none => .done (v.state.issueLoad c d (Tag.ofCode t.toNat) size o as)

/-- The bytes of a store's data in one lane: the low bytes of the value, or both registers of a pair (R244). -/
def storeBytes (size : Nat) (vs : List RegVal) : List Byte :=
  if size = 16 then bytesOfNat 8 (opnd vs 1).bits.toNat ++ bytesOfNat 8 (opnd vs 2).bits.toNat
  else bytesOfNat size (opnd vs 1).bits.toNat

/-- The scope of an ordered access: partition when any lane falls in vault, else block (R251, R325). -/
def orderScope (ls : List Loc) : Nat :=
  if ls.any fun l => match l with
    | .spad _ => false
    | .vault _ => true
    | .berth _ v _ _ _ => v then 4 else 1

/-- The number of entries of a crew's store queue (R247). -/
def storeQueueSize : Nat := 32

/-- ST (R243-R248): one store-queue entry with the data of every active lane. -/
def bodySt (d a : BitVec 6) (p : BitVec 2) (z : BitVec 3) (t : BitVec 4) (o m : BitVec 2) (c : Ctx) (s : State) : WordResult :=
  let size := memSize z
  let ty := Tag.ofCode t.toNat
  match c.illopCheck [
      (1, c.badSrc (Src.ofCode d) || (size == 16 && !pairCode d)),
      (2, c.badSrc (Src.ofCode a))] with
  | some t => .trap t
  | none =>
    match c.operands s (if size = 16 then [a, d, d + 1] else [a, d]) with
    | .error t => .trap t
    | .ok v =>
      let as := c.accesses s p m size true v.vals
      let tagBad (vs : List RegVal) : Option (Nat × Tag) := match addrTagBad a vs with
        | some x => some x
        | none => ((vs.drop 1).find? fun x => ty != .raw && x.tag != ty).map fun x => (1, x.tag)
      match firstTrap [c.memPoison m size v.vals, c.tagCheck v.vals tagBad, c.addrTrap as 5 6 7, c.budgetTrap as size 7] with
      | some t => .trap t
      | none =>
        if as.isEmpty then .done v.state
        else if storeQueueSize ≤ c.crew.storeQ.length then .wait .storeSpace
        else
          let lanes := as.filterMap fun x => x.loc.map fun l => (x.lane, l, storeBytes size ((tget v.vals x.lane).getD []))
          let ent : StoreEnt := {
            id := c.crew.nextOp, op := .st lanes, release := o != 0, acquire := o == 2, sc := o == 2
            scope := orderScope (lanes.map (·.2.1)), word := c.word, atSeq := c.crew.seq }
          let s := v.state.claimFor c as size
          let s := s.modCrew c.cid fun w => { w.takeOp with storeQ := w.storeQ ++ [ent] }
          .done (s.count c.cid fun n => { n with stores := n.stores + 1 })

/-- The atomic operation of a code (R249). -/
def AtomOp.ofCode (k : Nat) : AtomOp :=
  match k with
  | 0 => .add | 1 => .fadd | 2 => .min | 3 => .max | 4 => .minn | 5 => .maxn
  | 6 => .and | 7 => .or | 8 => .xor | 9 => .exch | _ => .cas

/-- The tags that an atomic operation takes at a size (R249). -/
def AtomOp.takes (op : AtomOp) (size : Nat) (t : Tag) : Bool :=
  match op with
  | .add | .min | .max | .minn | .maxn => if size = 4 then t == .i32 || t == .n32 else t == .i64 || t == .n64
  | .fadd => if size = 4 then t == .f32 else t == .f64
  | _ => t == .raw || (t != .poison && (if size = 4 then t.is32 else !t.is32))

/-- ATOM (R249, R250): an indivisible read and write at the location's home, entered in the store queue with its ticket. -/
def bodyAtom (d a : BitVec 6) (p : BitVec 2) (z : BitVec 3) (k : BitVec 4) (o m : BitVec 2) (c : Ctx) (s : State) : WordResult :=
  let size := memSize z
  let op := AtomOp.ofCode k.toNat
  let cas := op == .cas
  match c.illopCheck [
      (1, !(0x10 ≤ d.toNat && d.toNat < 0x30) || (cas && d.toNat == 0x2F)),
      (2, c.badSrc (Src.ofCode a)),
      (5, p == 2)] with
  | some t => .trap t
  | none =>
    match c.operands s (if cas then [a, d, d + 1] else [a, d]) with
    | .error t => .trap t
    | .ok v =>
      let as := c.accesses s p m size true v.vals
      let tagBad (vs : List RegVal) : Option (Nat × Tag) := match addrTagBad a vs with
        | some x => some x
        | none =>
          if !op.takes size (opnd vs 1).tag then some (1, (opnd vs 1).tag)
          else if cas && (opnd vs 2).tag != (opnd vs 1).tag then some (1, (opnd vs 2).tag)
          else none
      let ndet := if op == .fadd && c.record.strict && !c.active.isEmpty then some (c.fail .ndet c.active) else none
      match firstTrap [c.memPoison m size v.vals, c.tagCheck v.vals tagBad, c.addrTrap as 5 6 7, c.budgetTrap as size 7, ndet] with
      | some t => .trap t
      | none =>
        let id := c.crew.nextOp
        if as.isEmpty then .done (v.state.pushWrite c d [])
        else if storeQueueSize ≤ c.crew.storeQ.length then .wait .storeSpace
        else if c.crew.horizonFull then .wait .horizon
        else
          let vals (l : Nat) : List RegVal := (tget v.vals l).getD []
          let lanes : List AtomLane := as.filterMap fun x => x.loc.map fun l =>
            { lane := x.lane, loc := l, operand := opnd (vals x.lane) 1, second := opnd (vals x.lane) 2 }
          let ent : StoreEnt := {
            id := id, op := .atom op size (d.toNat - 0x10) lanes, release := o != 0, acquire := o != 0, sc := o == 2
            scope := orderScope (lanes.map (·.loc)), ticket := some (s.ticketOf c.crew c.crew.seq), word := c.word
            atSeq := c.crew.seq, hor := c.crew.horizon }
          let s := v.state.pushWrite c d (as.map fun x => (x.lane, { tag := (opnd (vals x.lane) 1).tag, pend := some id }))
          let s := s.claimFor c as size
          let s := s.modCrew c.cid fun w => { w.takeOp.takeTicket with storeQ := w.storeQ ++ [ent] }
          let s := s.count c.cid fun n => { n with loads := n.loads + 1, stores := n.stores + 1 }
          .done (s.awaitLv c.crew id (as.map (·.lane)))

/-! ### FENCE, PUBLISH and the berths (R253-R259) -/

/-- Whether a crew has engine commands outstanding. -/
def State.crewCommands (s : State) (c : Crew) : Bool := (s.core c.core).ferry.any fun x => x.2.crew == c.id

/-- Whether what a crew issued has returned and performed at a scope (R254): its loads and atomics have returned, its stores have left the
queue, at wider scopes the vault stores that its core sees have reached their homes, and at system scope its engine commands have completed and what they
wrote has reached the memory-side cache (R334). -/
def State.fenced (s : State) (c : Crew) (scope : Nat) : Bool :=
  c.loads.isEmpty && c.replies.isEmpty && c.storeQ.isEmpty
    && !s.vaultDue c scope && (scope < 5 || (!s.crewCommands c && (tget s.partitions (s.pidOf c.launch)).all fun p => p.gm.behind.isEmpty))

/-- FENCE (R254). -/
def bodyFence (sc : BitVec 3) (c : Ctx) (s : State) : WordResult :=
  if c.ready || s.fenced c.crew sc.toNat then .done s else .wait .fence

/-- A berth entry of a core changed. -/
def State.setBerth (s : State) (core k : Nat) (b : Option Berth) : State :=
  s.modCore core fun r =>
    let gone : Table Bool := match tget r.berths k with
      | some old => tput r.berthGone old.install old.visible
      | none => r.berthGone
    { r with berthGone := gone, berths := match b with
        | some b => tput r.berths k b
        | none => tdel r.berths k }

/-- Whether a core's entry is valid and owned by a block. -/
def State.ownsBerth (s : State) (core k bid : Nat) : Bool :=
  match tget (s.core core).berths k with
  | some b => b.block == bid
  | none => false

/-- The visible side of an entry inverted (R259). -/
def State.swapBerth (s : State) (core k : Nat) : State :=
  s.modCore core fun r => match tget r.berths k with
    | some b => { r with berths := tput r.berths k { b with visible := !b.visible } }
    | none => r

/-- PUBLISH (R259): the crew's stores and atomics first, then the swap on this core, or on both cores of the twin. -/
def bodyPublish (b : BitVec 4) (t : BitVec 1) (c : Ctx) (s : State) : WordResult :=
  let twin := t == 1
  let cores := if twin then c.blk.sides.map (·.core) else [c.crew.core]
  if twin && !c.blk.isTwin then .trap (c.fail .illop c.active 5)
  else if !c.ready && !(c.crew.storeQ.isEmpty && (!twin || !s.vaultDue c.crew 2)) then .wait .fence
  else if !(cores.all fun k => s.ownsBerth k b.toNat c.blk.id) then .trap (c.fail .bounds c.active)
  else .done (cores.foldl (fun s k => s.swapBerth k b.toNat) s)

/-- Whether every byte of a vault range is mapped writable. -/
def State.vaultWritable (s : State) (pid : Nat) (a : Nat) : Nat → Bool
  | 0 => true
  | n + 1 =>
    match s.xlateVault pid (a + 256 * n) true, s.xlateVault pid (a + 256 * n + 255) true with
    | .ok _, .ok _ => s.vaultWritable pid a n
    | _, _ => false

/-- Whether a berth descriptor is valid for a block (R255). -/
def State.berthValid (s : State) (c : Ctx) (d : List Byte) : Bool :=
  let b0 := leAt d 0 8
  let b1 := leAt d 8 8
  let size := leAt d 16 4
  let flags := leAt d 20 1
  let inside (a : Nat) : Bool :=
    if flags % 2 = 1 then s.vaultWritable c.pid a (size / 256) && (tget s.partitions c.pid).isSome
    else
      (c.blk.ts ≤ a && a + size ≤ c.blk.ts + c.blk.p) || (c.blk.ts + c.blk.p ≤ a && a + size ≤ c.blk.spadSize)
  b0 % 256 = 0 && b1 % 256 = 0 && size % 256 = 0 && 256 ≤ size && flags / 4 = 0 && (d.drop 21).all (· == 0)
    && !rangesMeet b0 size b1 size && inside b0 && inside b1

/-- The descriptor at a scalar address: the TAG, POISON, ALIGN and BOUNDS checks, and the bytes as the crew reads them (R256, R270). -/
def State.descriptorAt (s : State) (c : Ctx) (a : BitVec 5) (n : Nat) : Except TrapInfo (DWord × List Byte) :=
  match c.addressCheck [(2, c.getS a, Tag.isInt)] with
  | some t => .error t
  | none =>
    let x := (c.getS a).toAddress
    let pl := Place.spad c.blk.id c.crew.side x.toNat
    if x.toNat % n ≠ 0 then .error (c.fail .align c.active (addr := x))
    else if c.blk.spadSize < x.toNat + n then .error (c.fail .bounds c.active (addr := x))
    else if s.crewPoisoned c.crew c.crew.nextOp pl n then .error (c.fail .poison c.active 2 (addr := x))
    else .ok (x, s.crewBytes c.crew c.crew.nextOp pl n)

/-- BERTH.SET (R256). -/
def bodyBerthSet (b : BitVec 4) (a : BitVec 5) (c : Ctx) (s : State) : WordResult :=
  match s.descriptorAt c a 32 with
  | .error t => .trap t
  | .ok (x, d) =>
    if !s.berthValid c d then .trap (c.fail .bounds c.active (addr := x))
    else if ((tget (s.core c.crew.core).berths b.toNat).map (·.block)).getD c.blk.id ≠ c.blk.id then .trap (c.fail .prot c.active 0 6)
    else
      let n := s.nextId
      let e : Berth := {
        block := c.blk.id, install := n, base0 := BitVec.ofNat 64 (leAt d 0 8), base1 := BitVec.ofNat 64 (leAt d 8 8)
        size := leAt d 16 4, vault := leAt d 20 1 % 2 == 1, visible := leAt d 20 1 / 2 % 2 == 1, desc := d }
      .done ({ s with nextId := n + 1 }.setBerth c.crew.core b.toNat (some e))

/-- BERTH.CLR (R257). -/
def bodyBerthClr (b : BitVec 4) (c : Ctx) (s : State) : WordResult :=
  match tget (s.core c.crew.core).berths b.toNat with
  | none => .done s
  | some e => if e.block = c.blk.id then .done (s.setBerth c.crew.core b.toNat none) else .trap (c.fail .prot c.active 0 6)

/-! ### Landings (R260-R265) -/

/-- What an LND word finds: its landing's location, its place now, its address, and S[SB] as an unsigned value. -/
structure LndAt where
  loc : Loc
  addr : DWord
  val : Nat

/-- The checks of an LND word in the order of R263; limit is the first value of S[SB] that is too large. -/
def State.lndChecks (s : State) (c : Ctx) (a : BitVec 5) (b : Option (BitVec 5)) (limit : Nat) (write : Bool) : Except TrapInfo LndAt :=
  let ra := c.getS a
  let rb := (b.map c.getS).getD (mkVal .i64 0)
  let addr := BitVec.ofNat 64 (ra.bits.toNat / 16 * 16)
  if ra.tag == .poison then .error (c.fail .poison c.active 2 (addr := addr))
  else if rb.tag == .poison then .error (c.fail .poison c.active 3)
  else if !(ra.tag == .i64 || ra.tag == .n64) then .error (c.fail .tag c.active 2 ra.tag.code)
  else if !rb.tag.isInt then .error (c.fail .tag c.active 3 rb.tag.code)
  else match landRef ra with
    | .ok vault x =>
      if limit ≤ rb.toUnsigned then .error (c.fail .illop c.active 3)
      else
        let chk := s.landCheck c.env vault x write
        let acc := c.active.map fun l => ({ lane := l, addr := x, chk := chk } : LaneAcc)
        match c.addrTrap acc 4 6 7, chk with
        | some t, _ => .error t
        | none, .ok l _ => match (if write then c.budgetTrap acc 16 7 else none) with
          | some t => .error t
          | none => .ok { loc := l, addr := x, val := rb.toUnsigned }
        | none, _ => .error (c.fail .bounds c.active 6 0 x)
    | _ => .error (c.fail .align c.active 4 0 addr)

/-- An LND update into the store queue, release-ordered at the word's scope (R250, R263); one to vault carries a ticket (R387). -/
def State.lndUpdate (s : State) (c : Ctx) (x : LndAt) (op : LandOp) (sc : BitVec 3) (sd : Option (BitVec 5)) : WordResult :=
  let vault := match x.loc with
    | .vault _ => true
    | _ => false
  if storeQueueSize ≤ c.crew.storeQ.length then .wait .storeSpace
  else if vault && c.crew.horizonFull then .wait .horizon
  else
    let id := c.crew.nextOp
    let ent : StoreEnt := {
      id := id, op := .lnd op x.loc (sd.map (·.toNat)), release := true, scope := sc.toNat
      ticket := if vault then some (s.ticketOf c.crew c.crew.seq) else none
      word := c.word, atSeq := c.crew.seq, hor := c.crew.horizon, lane := c.active.headD 0 }
    let s := s.claimFor c [{ lane := 0, addr := x.addr, chk := .ok x.loc 0 }] 16
    let s := match sd with
      | some d => (s.writeS c d { tag := .n64, pend := some id }).awaitLv c.crew id [0]
      | none => s
    .done (s.modCrew c.cid fun w =>
      let w := if vault then w.takeTicket else w
      { w.takeOp with storeQ := w.storeQ ++ [ent] })

/-- LND.INIT (R264). -/
def bodyLndInit (a b : BitVec 5) (sc : BitVec 3) (c : Ctx) (s : State) : WordResult :=
  match s.lndChecks c a (some b) 4096 true with
  | .error t => .trap t
  | .ok x => s.lndUpdate c x (.init x.val) sc none

/-- LND.EXPECT.IN (R264). -/
def bodyLndExpectIn (a b : BitVec 5) (sc : BitVec 3) (c : Ctx) (s : State) : WordResult :=
  match s.lndChecks c a (some b) (2 ^ 48) true with
  | .error t => .trap t
  | .ok x => s.lndUpdate c x (.expectIn x.val) sc none

/-- LND.EXPECT.OUT (R264). -/
def bodyLndExpectOut (a b : BitVec 5) (sc : BitVec 3) (c : Ctx) (s : State) : WordResult :=
  match s.lndChecks c a (some b) (2 ^ 48) true with
  | .error t => .trap t
  | .ok x => s.lndUpdate c x (.expectOut x.val) sc none

/-- LND.ARRIVE (R264). -/
def bodyLndArrive (d a : BitVec 5) (sc : BitVec 3) (c : Ctx) (s : State) : WordResult :=
  match s.lndChecks c a none 1 true with
  | .error t => .trap t
  | .ok x => s.lndUpdate c x .arrive sc (some d)

/-- Whether the crew's earlier words may still change the landing, or must have performed before it is read: its loads and what acquires (R251, R319, R320). -/
def State.lndHeld (s : State) (c : Ctx) (x : LndAt) : Bool :=
  s.queueHolds c.crew c.crew.nextOp (s.placeOf c.crew false x.loc) 16 || !c.crew.loads.isEmpty || s.acquireDue c.crew c.crew.nextOp

/-- The landing as the crew reads it. -/
def State.lndRead (s : State) (c : Ctx) (x : LndAt) : Landing :=
  Landing.ofBytes (s.crewBytes c.crew c.crew.nextOp (s.placeOf c.crew false x.loc) 16)

/-- LND.WAIT (R265): waits for another generation, or traps with LANDING on a status other than ok. What it observes of a landing in a granule marked poisoned the spec does not say:
here the bytes as they stand, a DESIGN CHOICE (log 22). -/
def bodyLndWait (a b : BitVec 5) (_ : BitVec 3) (c : Ctx) (s : State) : WordResult :=
  match s.lndChecks c a (some b) (2 ^ 64) false with
  | .error t => .trap t
  | .ok x =>
    let l := s.lndRead c x
    if !c.ready && s.lndHeld c x then .wait .landing
    else if l.st ≠ 0 then
      .trap { c.fail .landing c.active (addr := x.addr) with info := BitVec.ofNat 64 (l.low % 2 ^ 32) }
    else if !c.ready && l.gen = x.val % 16 then .wait .landing
    else .done (s.recordLv c.crew [])

/-- LND.TEST (R264). -/
def bodyLndTest (d a : BitVec 5) (_ : BitVec 3) (c : Ctx) (s : State) : WordResult :=
  match s.lndChecks c a none 1 false with
  | .error t => .trap t
  | .ok x =>
    if !c.ready && s.lndHeld c x then .wait .landing
    else
      let bad := s.crewPoisoned c.crew c.crew.nextOp (s.placeOf c.crew false x.loc) 16
      let v : RegVal := { mkVal .n64 ((s.lndRead c x).low % 2 ^ 32) with tag := if bad then .poison else .n64 }
      .done ((s.writeS c d v).recordS c v)

/-! ### Streams (R268-R271) -/

/-- Whether n bytes at a lie in a space: the block's scratchpad, or vault pages of the partition (R240, R241). -/
def State.inSpace (s : State) (c : Ctx) (vault : Bool) (a : DWord) (n : Nat) : Bool :=
  match s.addrCheck c.env (if vault then 1 else 0) a n false with
  | .ok _ _ => true
  | .prot _ => true
  | _ => false

/-- Whether every address from a in steps of one axis after another lies in the space: exactly, one element after another. -/
def State.allIn (s : State) (c : Ctx) (vault : Bool) (size : Nat) : List (Nat × Int) → Int → Bool
  | [], a => s.inSpace c vault (BitVec.ofInt 64 a) size
  | (n, st) :: axes, a => (List.range n).all fun i => s.allIn c vault size axes (a + i * st)

/-- The least and the greatest address of a box of strides. -/
def boxBounds : List (Nat × Int) → Int × Int
  | [] => (0, 0)
  | (n, st) :: axes =>
    let r := boxBounds axes
    let e := ((n : Int) - 1) * st
    (min 0 e + r.1, max 0 e + r.2)

/-- Whether every element address of every lane lies in the space (R269). In scratchpad the two extreme addresses decide; in vault, when
both extremes lie in one mapping of the partition, so do all; else every element is looked at. -/
def State.streamInside (s : State) (c : Ctx) (d : StreamDesc) : Bool :=
  let axes := [(c.crew.width, d.lstr), (max d.cnt2 1, d.str2), (max d.cnt1 1, d.str1), (d.cnt0, d.str0)]
  let r := boxBounds axes
  let lo := (d.base : Int) + r.1
  let hi := (d.base : Int) + r.2
  if !d.vault then decide (0 ≤ lo) && decide (hi + d.size ≤ (c.blk.spadSize : Int))
  else
    let page (a : Int) : Option Page := (tget s.partitions c.pid).bind fun p => p.page? (BitVec.ofInt 64 a).toNat
    match page lo, page (hi + d.size - 1) with
    | some g, some h => if g == h && g.vault && decide (hi - lo < 2 ^ 56) then true else s.allIn c true d.size axes d.base
    | _, _ => false

/-- Whether a stream descriptor is valid for a crew (R269). -/
def State.streamValid (s : State) (c : Ctx) (b : List Byte) : Bool :=
  let d := streamDesc b
  let flags := leAt b 9 1
  let dims := flags / 8 % 4
  let used (k cnt : Nat) : Bool := if k ≤ dims then 1 ≤ cnt else cnt == 0
  let z : BitVec 3 := BitVec.ofNat 3 (flags % 4)
  let t : BitVec 4 := BitVec.ofNat 4 (leAt b 8 1)
  leAt b 8 1 < 16 && flags < 32 && dims != 3 && typeSizeLegal t z
    && used 0 d.cnt0 && used 1 d.cnt1 && used 2 d.cnt2
    && d.base % d.size == 0 && [d.str0, d.str1, d.str2, d.lstr].all (fun x => x % (d.size : Int) == 0)
    && s.streamInside c d

/-- STRM.SET (R269, R270). -/
def bodyStrmSet (a : BitVec 5) (q : BitVec 2) (c : Ctx) (s : State) : WordResult :=
  match s.descriptorAt c a 32 with
  | .error t => .trap t
  | .ok (x, d) =>
    if !s.streamValid c d then .trap (c.fail .bounds c.active (addr := x))
    else
      let st : StreamInst := {
        desc := d, width := c.crew.width, pos := List.replicate c.crew.width 0, setAt := c.crew.nextOp, word := c.word, lane := c.active.headD 0 }
      .done (s.modCrew c.cid fun w => { w with streams := tput w.streams q.toNat st })

/-- STRM.STOP (R270). -/
def bodyStrmStop (q : BitVec 2) (c : Ctx) (s : State) : WordResult :=
  .done (s.modCrew c.cid fun w => { w with streams := tdel w.streams q.toNat })

end Sys2Proof.Machine
end

