-- ==== Sys2Proof/Machine/Lsu.lean ====
section
/-! DEFINITION. The performing of accesses: loads, the store queue, vault stores at their homes, atomics with the duplicate filters, landing updates and stream prefetch (R246-R252, R261, R271, R317-R321, R387, R388). Each event answers none where it cannot take place. -/

namespace Sys2Proof.Machine

/-! ### Loads (R246) -/

/-- Whether a crew's outstanding load may perform now (R251, R318, R320): earlier loads have returned, earlier atomics, landing updates and
SC stores have left the queue, earlier acquiring accesses have returned, and before an SC load every earlier store has performed. -/
def State.loadReady (s : State) (c : Crew) (l : LoadOp) : Bool :=
  (c.storeQ.all fun e => l.id ≤ e.id || (!e.acquire && !l.sc && match e.op with
    | .st _ => true
    | _ => false))
  && !s.acquireDue c l.id
  && (!l.sc || !s.vaultDue c (orderScope (l.lanes.map (·.2))))

/-- The value of one lane of a load, and the second register's of a 16-byte load (R244, R246, R252). -/
def State.loadValue (s : State) (c : Crew) (l : LoadOp) (loc : Loc) : RegVal × RegVal :=
  let pl := s.placeOf c false loc
  let bs := s.crewBytes c l.id pl l.size
  let tag (v : RegVal) : RegVal := if s.crewPoisoned c l.id pl l.size then { v with tag := .poison } else v
  (tag (extendLoad l.ty l.size bs), tag (extendLoad l.ty 8 (bs.drop 8)))

/-- The data of one lane of a load with the errors found in reading them (R460); from a vault that its slice's firewall keeps closed the error response has no data that
the spec states: they are free (R430, log 49). -/
def State.loadLane (s : State) (c : Crew) (l : LoadOp) (loc : Loc) : (RegVal × RegVal) × State :=
  let pl := s.placeOf c false loc
  if s.vaultRefused c.core (s.pidOf c.launch) pl then
    let r := (s.refuseVault c.core (s.pidOf c.launch) pl).freeBytes l.size
    ((extendLoad l.ty l.size r.1, extendLoad l.ty 8 (r.1.drop 8)), r.2)
  else
    let s := s.detect c.core (s.pidOf c.launch) c.launch pl l.size
    (s.loadValue c l loc, s)

/-- A crew's oldest outstanding load returns one lane's data (R246, log 7); a reply of an earlier generation is dropped (R388). -/
def State.loadReturn (s : State) (cid lane : Nat) : Option State :=
  match tget s.crews cid with
  | none => none
  | some c =>
    match c.loads with
    | [] => none
    | l :: rest =>
      if l.gen != c.gen then some (s.modCrew cid fun w => { w with loads := rest })
      else match tget l.lanes lane with
      | none => none
      | some loc =>
        if !s.loadReady c l then none
        else
          let r := s.loadLane c l loc
          let v := r.1
          let s := r.2
          let left := l.lanes.filter fun x => x.1 != lane
          let s := s.modBoth cid fun w =>
            let w := w.deliver l.id lane v.1
            let w := if l.size = 16 then w.deliver (l.id + 1) lane v.2 else w
            if left.isEmpty then (w.settle l.id).settle (l.id + 1) else w
          let s := s.fillLv c l.id lane v.1 v.2
          if left.isEmpty then
            let s := s.modCrew cid fun w => { w with loads := rest }
            some (s.count cid fun n => { n with loads := n.loads - 1 })
          else some (s.modCrew cid fun w => { w with loads := { l with lanes := left } :: rest })

/-! ### The store queue (R247, R250) -/

/-- Whether a queue entry may not perform yet (R251, R320): an earlier load has not returned, an earlier acquiring atomic has not returned,
or, for a release, an earlier access has not performed at its scope or an earlier ticketed command is not answered (R394). -/
def State.storeHeld (s : State) (c : Crew) (e : StoreEnt) : Bool :=
  (c.loads.any fun l => l.id < e.id)
  || s.acquireDue c e.id
  || (e.release && (
      s.vaultDue c e.scope
      || ((s.core c.core).ferry.any fun x => x.2.crew == c.id && x.2.ticket.isSome && x.2.seq < e.id)))

/-- A store's vault writes set on their way from a core, those of its lanes to one 16-byte granule together (log 7). -/
def State.sendVault (s : State) (c : Crew) (id : Nat) (acquire : Bool) (ws : List (Nat × List Byte)) : State :=
  let gs := (ws.map fun w => w.1 / 16).eraseDups
  let twin := ((tget s.blocks c.block).map Block.isTwin).getD false
  let vs := gs.zipIdx.map fun g : Nat × Nat => ({
    crew := c.id, id := id, gran := g.1, writes := ws.filter fun w => w.1 / 16 == g.1, seq := s.nextId + g.2, twin := twin, acquire := acquire } : VaultPend)
  { s with nextId := s.nextId + gs.length }.modCore c.core fun r => { r with vaultPend := r.vaultPend ++ vs }

/-- The first entry of the queue taken off. -/
def State.popStore (s : State) (cid : Nat) : State := s.modCrew cid fun w => { w with storeQ := w.storeQ.drop 1 }

/-- The oldest entry performs: a store in every lane (R247, R248), or an update of a landing in scratchpad, whose GEN before it goes to S[SD] (R264). -/
def State.storePerform (s : State) (cid : Nat) : Option State :=
  match tget s.crews cid with
  | none => none
  | some c =>
    match c.storeQ with
    | [] => none
    | e :: _ =>
      if s.storeHeld c e then none
      else match e.op with
      | .st _ =>
        let ws := s.entWrites c e
        let spads := ws.filterMap fun w => match w.1 with
          | .spad _ _ off => some (off, w.2)
          | .vault _ => none
        let vaults := ws.filterMap fun w => match w.1 with
          | .vault pa => some (pa, w.2)
          | .spad _ _ _ => none
        let s := if spads.isEmpty then s else s.spadWriteAll c.block c.side spads
        let s := if vaults.isEmpty then s
          else s.sendVault c e.id e.acquire vaults
        some ((s.popStore cid).count cid fun n => { n with stores := n.stores - 1 })
      | .lnd op loc sd =>
        match s.placeOf c true loc with
        | .vault _ => none
        | pl =>
          let s := s.detect c.core (s.pidOf c.launch) c.launch pl 16
          let gen := (s.landingAt pl).gen
          let s := (s.applyLanding pl op).popStore cid
          match sd with
          | none => some s
          | some _ =>
            let v := mkVal .n64 gen
            some ((s.modBoth cid fun w => (w.deliverS e.id v).settle e.id).fillLv c e.id 0 v {})
      | .atom _ _ _ _ => none

/-- Whether a store on its way from a core must arrive after others, which some core sees before it and which write one of its bytes (R317-R319). -/
def State.arrivalHeld (s : State) (core : Nat) (v : VaultPend) : Bool :=
  let before (u : VaultPend) : Bool := u.seq < v.seq && u.overlaps v
  ((s.core core).vaultPend.any before) || (s.core (mateCore core)).vaultPend.any fun u => (u.twin || v.twin) && before u

/-- A store on its way written at its home, or refused there by the slice's firewall (R430). -/
def State.arrive (s : State) (core : Nat) (v : VaultPend) : State :=
  let pid := (s.slice (core / 32)).fwPid
  if s.vaultRefused core pid (.vault (16 * v.gran)) then s.refuseVault core pid (.vault (16 * v.gran)) else { s with vault := s.vault.writeAll v.writes }

/-- A vault store of the core's list reaches its home, unless an earlier one to the same bytes is still on its way (R317, R319). -/
def State.vaultArrival (s : State) (core n : Nat) : Option State :=
  match (s.core core).vaultPend[n]? with
  | none => none
  | some v =>
    if s.arrivalHeld core v then none
    else
      let s := s.arrive core v
      some (s.modCore core fun r => { r with vaultPend := r.vaultPend.eraseIdx n })

/-- Before an engine of a core writes vault bytes, the stores on their way to them that its core sees are at their home: in the coherence order they stand
before the engine's write (R318, R329). Those of the twin that left their queues before them arrive with them. -/
def State.flushVault (s : State) (core pa n : Nat) : State :=
  match ((s.vaultView core).filter fun v => v.meets pa n).getLast? with
  | none => s
  | some last =>
    let mate := mateCore core
    let all := (s.core mate).vaultPend.foldl (fun us v => insertPend v us) (s.core core).vaultPend
    let s := (all.filter fun v => v.seq ≤ last.seq).foldl (fun s v => s.arrive core v) s
    let keep (s : State) (k : Nat) : State := s.modCore k fun r => { r with vaultPend := r.vaultPend.filter fun v => last.seq < v.seq }
    keep (keep s core) mate

/-! ### Duplicate filters (R387) -/

/-- The filters of a slice. -/
inductive FilterKind where
  | l2 | msc | vault | coll
  deriving DecidableEq, Repr

/-- A filter of a slice. -/
def Slice.filterOf (s : Slice) : FilterKind → List FilterEnt
  | .l2 => s.l2Filter
  | .msc => s.mscFilter
  | .vault => s.vaultFilter
  | .coll => s.collFilter

/-- A slice with a filter replaced. -/
def Slice.setFilter (s : Slice) (k : FilterKind) (f : List FilterEnt) : Slice :=
  match k with
  | .l2 => { s with l2Filter := f }
  | .msc => { s with mscFilter := f }
  | .vault => { s with vaultFilter := f }
  | .coll => { s with collFilter := f }

/-- The entries of a filter. -/
def filterSize : Nat := 65536

/-- Whether a sequence is acknowledged under a horizon: it lies in [H - 2^15, H) (R386). -/
def acknowledged (h q : BitVec 16) : Bool := (h - q - 1).toNat < 2 ^ 15

/-- The entries of a request's crew that its horizon acknowledges retire (R387). -/
def State.filterRetire (s : State) (slice : Nat) (k : FilterKind) (ticket : Nat) (h : BitVec 16) : State :=
  s.modSlice slice fun r => r.setFilter k ((r.filterOf k).filter fun e =>
    !(e.ticket % 2 ^ 48 == ticket % 2 ^ 48 && e.ticket / 2 ^ 64 == ticket / 2 ^ 64 && acknowledged h (BitVec.ofNat 16 (e.ticket / 2 ^ 48))))

/-- The result that a filter holds for a ticket and lane. -/
def State.filterGet (s : State) (slice : Nat) (k : FilterKind) (ticket lane : Nat) : Option (List RegVal) :=
  (((s.slice slice).filterOf k).find? fun e => e.ticket == ticket && e.lane == lane).map (·.result)

/-- Whether a filter cannot take n more entries. -/
def State.filterFull (s : State) (slice : Nat) (k : FilterKind) (n : Nat) : Bool :=
  filterSize < ((s.slice slice).filterOf k).length + n

/-- A result put into a filter. -/
def State.filterPut (s : State) (slice : Nat) (k : FilterKind) (ticket lane : Nat) (r : List RegVal) : State :=
  s.modSlice slice fun x => x.setFilter k (x.filterOf k ++ [{ ticket := ticket, lane := lane, result := r }])

/-! ### Atomics (R249, R250) -/

/-- The new memory value m' of an atomic on w-bit values (R249). -/
def AtomOp.apply (op : AtomOp) (w m v new : Nat) : Nat :=
  match op with
  | .add => (m + v) % 2 ^ w
  | .fadd => (fAdd (if w = 32 then .f32 else .f64) .rne false m v).1
  | .min => if signedOf w v < signedOf w m then v else m
  | .max => if signedOf w m < signedOf w v then v else m
  | .minn => if v < m then v else m
  | .maxn => if m < v then v else m
  | .and => m &&& v
  | .or => m ||| v
  | .xor => m ^^^ v
  | .exch => v
  | .cas => if m = v then new else m

/-- An atomic on n bytes at a place: the old value with the operand's tag, and the memory after it; a poisoned granule is not changed (R252). -/
def State.atomAt (s : State) (pl : Place) (op : AtomOp) (n : Nat) (operand second : RegVal) : RegVal × State :=
  let m := natOfBytes (s.homeBytes pl n)
  let old := mkVal operand.tag m
  if s.placePoisoned pl n then ({ old with tag := .poison }, s)
  else (old, s.placeWrite pl (bytesOfNat n (op.apply (8 * n) m (operand.low (8 * n)) (second.low (8 * n)))))

/-- One lane of a ticketed request of a crew at its home: answered from the filter, or applied and recorded there (R387). The filter stands before vaults only. A slice whose
firewall refuses the request performs nothing, and what its error response returns, the spec does not state: a free value of n bytes (R430, log 49). -/
def State.ticketLane (s : State) (c : Crew) (pl : Place) (ticket lane n : Nat) (tag : Tag) (apply : State → RegVal × State) : RegVal × State :=
  match pl with
  | .spad _ _ _ => apply s
  | .vault pa =>
    let k := vaultHome pa / 32
    if s.vaultRefused c.core (s.pidOf c.launch) pl then
      let r := (s.refuseVault c.core (s.pidOf c.launch) pl).freeBytes n
      (mkVal tag (natOfBytes r.1), r.2)
    else match s.filterGet k .vault ticket lane with
    | some r => (r.headD {}, s)
    | none =>
      let r := apply s
      (r.1, r.2.filterPut k .vault ticket lane [r.1])

/-- The lanes of an atomic applied in ascending order (R248). -/
def State.atomLanes (s : State) (c : Crew) (ticket : Nat) (op : AtomOp) (n : Nat) : List AtomLane → List (Nat × RegVal) × State
  | [] => ([], s)
  | x :: xs =>
    let pl := s.placeOf c true x.loc
    let r := s.ticketLane c pl ticket x.lane n x.operand.tag fun s => (s.detect c.core (s.pidOf c.launch) c.launch pl n).atomAt pl op n x.operand x.second
    let t := r.2.atomLanes c ticket op n xs
    ((x.lane, r.1) :: t.1, t.2)

/-- The vault homes that an entry goes to, with the lane of each. -/
def State.entVaults (s : State) (c : Crew) (e : StoreEnt) : List (Nat × Nat) :=
  let one (lane : Nat) (l : Loc) : Option (Nat × Nat) := match s.placeOf c true l with
    | .vault pa => some (lane, pa)
    | .spad _ _ _ => none
  match e.op with
  | .st _ => []
  | .atom _ _ _ lanes => lanes.filterMap fun x => one x.lane x.loc
  | .lnd _ loc _ => (one 0 loc).toList

/-- Those of them that the firewalls let the crew reach (R430). -/
def State.openVaults (s : State) (c : Crew) (e : StoreEnt) : List (Nat × Nat) :=
  (s.entVaults c e).filter fun v => !s.vaultRefused c.core (s.pidOf c.launch) (.vault v.2)

/-- The size of an entry's access. -/
def StoreEnt.size (e : StoreEnt) : Nat :=
  match e.op with
  | .atom _ n _ _ => n
  | _ => 16

/-- Whether the filters of an entry's homes have room for the lanes that they do not yet hold (R387). -/
def State.filtersHaveRoom (s : State) (c : Crew) (e : StoreEnt) (vs : List (Nat × Nat)) : Bool :=
  let fresh := vs.filter fun v => (s.filterGet (vaultHome v.2 / 32) .vault (s.ticketKey c.launch e.ticket) v.1).isNone
  ((fresh.map fun v => vaultHome v.2 / 32).eraseDups).all fun k =>
    !s.filterFull k .vault (fresh.filter fun v => vaultHome v.2 / 32 == k).length

/-- What a ticketed entry does at its home: its values per lane (for a landing update the GEN before it), and the state after (R250, R264). -/
def State.applyEnt (s : State) (c : Crew) (e : StoreEnt) : List (Nat × RegVal) × State :=
  match e.op with
  | .st _ => ([], s)
  | .atom op n _ lanes => s.atomLanes c (s.ticketKey c.launch e.ticket) op n lanes
  | .lnd op loc _ =>
    let pl := s.placeOf c true loc
    let r := s.ticketLane c pl (s.ticketKey c.launch e.ticket) 0 8 .n64 fun s => (mkVal .n64 (s.landingAt pl).gen, (s.detect c.core (s.pidOf c.launch) c.launch pl 16).applyLanding pl op)
    ([(0, r.1)], r.2)

/-- The destination that an entry's reply fills: a vector register, or a scalar. -/
def StoreEnt.dest (e : StoreEnt) : Option Nat × Option Nat :=
  match e.op with
  | .st _ => (none, none)
  | .atom _ _ rd _ => (some rd, none)
  | .lnd _ _ sd => (none, sd)

/-- Whether an entry is an atomic, or a landing update to vault: what leaves the queue when its home has applied it. -/
def State.goesHome (s : State) (c : Crew) (e : StoreEnt) : Bool :=
  match e.op with
  | .st _ => false
  | .atom _ _ _ _ => true
  | .lnd _ loc _ => match s.placeOf c true loc with
    | .vault _ => true
    | .spad _ _ _ => false

/-- The oldest entry, an atomic or a landing update to vault, is applied at its home and leaves the queue; its reply is on its way (R250). -/
def State.atomHomeApply (s : State) (cid : Nat) : Option State :=
  match tget s.crews cid with
  | none => none
  | some c =>
    match c.storeQ with
    | [] => none
    | e :: _ =>
      if s.storeHeld c e || !s.goesHome c e then none
      else
        let vs := s.openVaults c e
        let blocked := vs.any fun v => (s.vaultView c.core).any fun u => u.meets v.2 e.size
        let s := ((vs.map fun v => vaultHome v.2 / 32).eraseDups).foldl (fun s k => s.filterRetire k .vault (s.ticketKey c.launch e.ticket) e.hor) s
        if blocked || !s.filtersHaveRoom c e vs then none
        else
          let r := s.applyEnt c e
          let reply : Reply := {
            id := e.id, rd := e.dest.1, sd := e.dest.2, lanes := r.1, ticket := e.ticket, gen := c.gen, ent := e }
          some ((r.2.popStore cid).modCrew cid fun w => { w with replies := w.replies ++ [reply] })

/-- What an operation's reply does in its crew: values, counters, ticket (R250, R264). -/
def State.acceptReply (s : State) (c : Crew) (r : Reply) : State :=
  let isAtom := match r.ent.op with
    | .atom _ _ _ _ => true
    | _ => false
  let s := s.modBoth c.id fun w =>
    let w := if isAtom then r.lanes.foldl (fun w x => w.deliver r.id x.1 x.2) w
      else w.deliverS r.id ((r.lanes.head?.map (·.2)).getD {})
    w.settle r.id
  let s := r.lanes.foldl (fun s x => s.fillLv c r.id x.1 x.2 {}) s
  let s := s.modCrew c.id fun w => (w.endTicket r.ticket)
  if isAtom then s.count c.id fun n => { n with loads := n.loads - 1, stores := n.stores - 1 } else s

/-- The reply of an applied operation returns (R250); one of an earlier generation is dropped (R388). -/
def State.atomReplyReturn (s : State) (cid op : Nat) : Option State :=
  match tget s.crews cid with
  | none => none
  | some c =>
    match c.replies.find? fun r => r.id == op with
    | none => none
    | some r =>
      let s := s.modCrew cid fun w => { w with replies := w.replies.filter fun x => x.id != op }
      if r.gen != c.gen then some s else some (s.acceptReply c r)

/-! ### Landing updates of engines and agents (R261, R287) -/

/-- Whether a landing's home still exists. -/
def State.homeExists (s : State) : LandHome → Bool
  | .spad b _ _ => (tget s.blocks b).isSome
  | .vault _ => true

/-- Whether a crew has LND words from before issue number k that have not performed, in its queue or in its manifest. -/
def Crew.lndBefore (c : Crew) (k : Nat) : Bool :=
  let one (e : StoreEnt) : Bool := e.id < k && match e.op with
    | .lnd _ _ _ => true
    | _ => false
  c.storeQ.any one || c.replay.any fun m => match m.op with
    | .storeQ e => one e
    | _ => false

/-- A crew on a core or in a save area. -/
def State.anyCrew (s : State) (cid : Nat) : Option Crew := (tget s.crews cid).orElse fun _ => (s.saved.flatMap fun u => u.crews).find? fun c => c.id == cid

/-- Whether an update waits: for the crew's earlier LND words (R287), or for its block to come back from the save area (R382). -/
def State.updateWaits (s : State) (u : LandUpd) : Bool :=
  ((u.after.bind fun x => (s.anyCrew x.1).map fun c => c.lndBefore x.2).getD false)
  || match u.home with
    | .spad b _ _ => s.saved.any fun x => x.blocks.any fun y => y.id == b
    | .vault _ => false

/-- Errors at the home of an update that reads it are detected (R460). -/
def State.detectHome (s : State) (u : LandUpd) : State :=
  match u.home with
  | .vault pa => s.detect (vaultHome pa) u.pid (((u.after.bind fun x => tget s.crews x.1).map fun c : Crew => c.launch).getD 0) u.home.place 16
  | .spad b side _ =>
    match tget s.blocks b with
    | none => s
    | some x => s.detect (x.side side).core (s.pidOf x.launch) x.launch u.home.place 16

/-- The core of the command or crew that an update follows. -/
def State.updateCore (s : State) (u : LandUpd) : Option Nat :=
  match u.owner with
  | some o => some o.1
  | none => (u.after.bind fun x => tget s.crews x.1).map fun c : Crew => c.core

/-- The stores on their way to a landing in vault that the core of its command sees are at their home: the update follows them (R317, R318, R329). -/
def State.flushHome (s : State) (u : LandUpd) : State :=
  match u.home, s.updateCore u with
  | .vault pa, some core => s.flushVault core pa 16
  | _, _ => s

/-- One update on its way is applied at its home, after the crew's earlier LND words (R261, R287), or refused by the slice's firewall (R430). -/
def State.landingUpdateApply (s : State) (n : Nat) : Option State :=
  match s.landUpds[n]? with
  | none => none
  | some u =>
    if s.updateWaits u then none
    else
      let s := { s with landUpds := s.landUpds.eraseIdx n }
      let from' := (s.updateCore u).getD (32 * vaultSlice u.home.place.start)
      let s := if s.vaultRefused from' u.pid u.home.place then s.refuseVault from' u.pid u.home.place
        else if s.homeExists u.home then
          let s := ((s.flushHome u).detectHome u).applyLanding u.home.place u.op
          match u.st with
          | none => s
          | some st => s.applyLanding u.home.place (.status st)
        else s
      match u.owner with
      | none => some s
      | some (core, slot) => some (s.modCore core fun r => match tget r.ferry slot with
          | none => r
          | some f => { r with ferry := tput r.ferry slot { f with updates := f.updates - 1 } })

/-! ### Streams (R271) -/

/-- The next element of a lane of a stream fetched ahead, up to 16 of them, once what comes before it has performed (R251, R271). -/
def State.streamFetch (s : State) (cid k lane : Nat) : Option State :=
  match tget s.crews cid with
  | none => none
  | some c =>
    match tget c.streams k, tget s.blocks c.block with
    | some st, some b =>
      let d := streamDesc st.desc
      let have' := (st.fetched.filter fun f => f.1 == lane).length
      let n := st.pos.getD lane 0 + have'
      let e : AddrEnv := { pid := s.pidOf c.launch, lid := c.launch, block := b, core := c.core }
      if st.width ≤ lane || d.total ≤ n || 16 ≤ have' || c.frozen || !c.replay.isEmpty || s.elementsHeld c st then none
      else
        let s := s.detectElem e c d n lane
        let v := s.streamElem e c d n lane
        some (s.modCrew cid fun w => { w with streams := tput w.streams k { st with fetched := st.fetched ++ [(lane, n, v.1, v.2)] } })
    | _, _ => none

end Sys2Proof.Machine
end

