-- ==== Sys2Proof/Machine/Tiles.lean ====
section
/-! DEFINITION. Tile views and accumulators: shape records (R60-R65), accumulator memory and geometry words (R66, R67, R186), the memory ranges of tile operations (R195), the tile queue (R174), the numerics of the array and the epilogue (R101-R106, R196), and the check entries (R198-R200). -/

namespace Sys2Proof.Machine

/-! ### Shape records (R60-R63) -/

/-- The fields of a shape record (R60); cstr is the stride in elements. -/
structure Shape where
  fmt : Nat
  rows : Nat
  cols : Nat
  cstr : Nat
  coff : Nat
  stor : Nat
  scale : Nat
  rsv : Nat
  deriving DecidableEq, Repr

/-- The record's fields (R60). -/
def Shape.ofBits (b : DWord) : Shape :=
  let v := b.toNat
  { fmt := bitsAt v 0 4, rows := bitsAt v 4 9, cols := bitsAt v 13 11, cstr := 2 ^ bitsAt v 24 2, coff := bitsAt v 26 3
    stor := bitsAt v 29 4, scale := bitsAt v 33 4, rsv := v / 2 ^ 37 }

/-- The bytes of an element of a format code (R61). -/
def fmtBytes (f : Nat) : Nat :=
  match f with
  | 0 => 4 | 1 => 8 | 2 => 2 | 3 => 2 | 9 => 4 | _ => 1

/-- The element format of a format code but E8S (R61). -/
def fmtElem (f : Nat) : ElemFmt :=
  match f with
  | 0 => .float .f32 | 1 => .float .f64 | 2 => .float .f16 | 3 => .float .bf16 | 4 => .float .e4m3 | 5 => .float .e5m2
  | 6 => .tt8 | 7 => .int 8 true | 8 => .int 8 false | _ => .int 32 true

/-- The row pitch of a view (R63). -/
def Shape.pitch (h : Shape) : Nat := (h.cols * h.cstr * fmtBytes h.fmt + 63) / 64 * 64

/-- Whether a record is valid among n tiles of S bytes (R62, R63). -/
def Shape.valid (h : Shape) (n S : Nat) : Bool :=
  h.fmt ≤ 10 && 1 ≤ h.rows && h.rows ≤ 256 && 1 ≤ h.cols && h.cols ≤ 1024 && h.coff < h.cstr && h.stor < n
    && (h.scale == 15 || h.scale < n) && h.rsv == 0 && h.rows * h.pitch ≤ S

/-- The byte of element (i, j) in the view's storage (R63). -/
def Shape.at (h : Shape) (i j : Nat) : Nat := i * h.pitch + (j * h.cstr + h.coff) * fmtBytes h.fmt

/-- The tile size S in bytes that a launch declares (R59, R344). -/
def Record.tileBytes (r : Record) : Nat := 4096 * r.tsize

/-- The number n of tiles of a side (R59). -/
def Side.tileCount (sd : Side) : Nat := sd.shapes.length

/-- The shape record of a tile of a side, when the tile exists and its record is valid (R62). -/
def Side.view (sd : Side) (S t : Nat) : Option DWord :=
  match sd.shapes[t]? with
  | none => none
  | some b => if (Shape.ofBits b).valid sd.tileCount S then some b else none

/-- The storage of a tile. -/
def Side.storage (sd : Side) (t : Nat) : Store := (tget sd.tiles t).getD {}

/-- The pattern of element (i, j) of a view. -/
def Side.elem (sd : Side) (h : Shape) (i j : Nat) : Nat :=
  natOfBytes ((sd.storage h.stor).bytes (h.at i j) (fmtBytes h.fmt))

/-- The bytes of the first n elements of row i of a view, as ranges. -/
def Shape.rowBytes (h : Shape) (i n : Nat) : List (Nat × Nat) :=
  if h.cstr = 1 then [(h.at i 0, n * fmtBytes h.fmt)] else (List.range n).map fun j => (h.at i j, fmtBytes h.fmt)

/-- Whether one of the first n elements of row i of a view is marked poisoned (R203). -/
def Side.rowPoisoned (sd : Side) (h : Shape) (i n : Nat) : Bool := (sd.storage h.stor).tainted (h.rowBytes i n)

/-- The elements of row i of a view written, from the first on, and marked poisoned or not (R203). -/
def Side.writeRow (sd : Side) (h : Shape) (i : Nat) (xs : List Nat) (poison : Bool) : Side :=
  let w := fmtBytes h.fmt
  let ws := if h.cstr = 1 then [(h.at i 0, xs.flatMap (bytesOfNat w))] else xs.zipIdx.map fun x => (h.at i x.2, bytesOfNat w x.1)
  { sd with tiles := tput sd.tiles h.stor ((sd.storage h.stor).writeElems ws poison) }

/-! ### Accumulators (R66, R67, R186) -/

/-- The width of an accumulator element (R67). -/
def AccFmt.bytes : AccFmt → Nat
  | .fp64 => 8
  | _ => 4

/-- The floating-point format of an accumulator; I32 rows are summed apart. -/
def AccFmt.float : AccFmt → FloatFmt
  | .fp64 => .f64
  | _ => .f32

/-- The byte at which row i of an accumulator of n columns begins (R67). -/
def accRow (base n : Nat) (f : AccFmt) (i : Nat) : Nat := base * 16384 + i * n * f.bytes

/-- The accumulator bytes of a block: none in a template crew's (R66, R220). -/
def accBytes (b : Block) (r : Record) : Nat := if b.template then 0 else r.accu * 16384

/-- A geometry word, when it is valid for an allocation (R186). -/
def AccGeo.ofBits (bits : DWord) (alloc : Nat) : Option AccGeo :=
  let v := bits.toNat
  let g : AccGeo := {
    base := bitsAt v 0 6, rows := bitsAt v 6 9, cols := bitsAt v 15 11
    fmt := match bitsAt v 26 2 with
      | 0 => .fp32
      | 1 => .i32
      | _ => .fp64
    pitch := bitsAt v 28 20 }
  if g.rows = 0 || 256 < g.rows || g.cols = 0 || 1024 < g.cols || bitsAt v 26 2 = 3 || v / 2 ^ 48 ≠ 0
      || alloc < g.base * 16384 + g.rows * g.cols * g.fmt.bytes then none
  else some g

/-- An accumulator element's pattern. -/
def Side.accElem (sd : Side) (base n : Nat) (f : AccFmt) (i j : Nat) : Nat :=
  natOfBytes (sd.acc.bytes (accRow base n f i + j * f.bytes) f.bytes)

/-- Whether a row of an accumulator is marked poisoned (R203). -/
def Side.accPoisoned (sd : Side) (base n : Nat) (f : AccFmt) (i : Nat) : Bool :=
  sd.acc.tainted [(accRow base n f i, n * f.bytes)]

/-- A row of an accumulator written, and marked poisoned or not (R203). -/
def Side.writeAcc (sd : Side) (base n : Nat) (f : AccFmt) (i : Nat) (xs : List Nat) (poison : Bool) : Side :=
  { sd with acc := sd.acc.writeElems [(accRow base n f i, xs.flatMap (bytesOfNat f.bytes))] poison }

/-! ### Memory ranges (R195, R258, R266) -/

/-- The vault pages of a range: virtual base, physical base and length of each (R195). -/
def State.vaultPages (s : State) (pid a n : Nat) (write : Bool) : Nat → Except XlateFail (List (Nat × Nat × Nat))
  | 0 => .ok []
  | fuel + 1 =>
    if n = 0 then .ok []
    else match s.xlateVault pid a write, (tget s.partitions pid).bind fun p => p.page? a with
      | .ok pa, some g =>
        let m := min n (g.va + g.size - a)
        match s.vaultPages pid (a + m) (n - m) write fuel with
        | .ok rest => .ok ((a, pa, m) :: rest)
        | .error e => .error e
      | .error e, _ => .error e
      | _, none => .error .absent

/-- The vault pages of a range with the checks of R241 and the world rules: BOUNDS, PROT, or the pages. -/
def State.vaultRange (s : State) (c : Ctx) (a n : Nat) (write : Bool) : Except AddrCheck (List (Nat × Nat × Nat)) :=
  match s.vaultPages c.pid a n false (n / 65536 + 2) with
  | .error _ => .error .bounds
  | .ok _ =>
    match s.vaultPages c.pid a n write (n / 65536 + 2) with
    | .error _ => .error (.prot 5)
    | .ok ps => if s.vaultWorldBad c.crew.launch c.blk.beta a n write then .error (.prot 3) else .ok ps

/-- The range of n bytes from an address in a space, translated and checked as at issue (R193, R195, R266). -/
def State.spanAt (s : State) (c : Ctx) (sp : Nat) (a : DWord) (n : Nat) (write : Bool) : Except AddrCheck Span :=
  let x := a.toNat
  match sp with
  | 0 =>
    if c.blk.spadSize < x + n then .error .bounds
    else if write && c.blk.inSegment x then .error (.prot 2)
    else .ok (.spad x)
  | 1 => match s.vaultRange c x n write with
    | .error e => .error e
    | .ok ps => .ok (.vault a ps)
  | _ =>
    match tget (s.core c.crew.core).berths (x / 2 ^ 60) with
    | none => .error .bounds
    | some b =>
      let off := x % 2 ^ 60
      if b.block ≠ c.blk.id || b.size < off + n then .error .bounds
      else if b.vault then
        match s.vaultRange c (b.base0.toNat + off) n write, s.vaultRange c (b.base1.toNat + off) n write with
        | .ok p0, .ok p1 => .ok (.berth b.install true b.base0 b.base1 off (p0 ++ p1) (x / 2 ^ 60))
        | .error e, _ => .error e
        | _, .error e => .error e
      else .ok (.berth b.install false b.base0 b.base1 off [] (x / 2 ^ 60))

/-- A vault byte through the pages translated at issue. -/
def pageByte (ps : List (Nat × Nat × Nat)) (a : Nat) : Nat :=
  match ps.find? fun p => p.1 ≤ a && a < p.1 + p.2.2 with
  | some p => p.2.1 + (a - p.1)
  | none => 0

/-- Where byte x of a range falls now (R258). -/
def State.spanByte (s : State) (bid side core : Nat) (sp : Span) (write : Bool) (x : Nat) : Place :=
  match sp with
  | .spad a => .spad bid side (a + x)
  | .vault a ps => .vault (pageByte ps (a.toNat + x))
  | .berth install vault b0 b1 off ps _ =>
    let b := if s.visibleSide core install != write then b1 else b0
    if vault then .vault (pageByte ps (b.toNat + off + x)) else .spad bid side (b.toNat + off + x)

/-- n bytes of a range from x on, with whether a granule of them is poisoned. -/
def State.spanRead (s : State) (bid side core : Nat) (sp : Span) (x n : Nat) : List Byte × Bool :=
  let ps := (List.range n).map fun i => s.spanByte bid side core sp false (x + i)
  (ps.flatMap fun p => s.placeBytes core p 1, ps.any fun p => s.corePoisoned core p 1)

/-- Whether a byte of a range may not be accessed: the firewall of its vault's slice refuses the block's partition (R430). -/
def State.spanClosed (s : State) (b : Block) (core : Nat) (p : Place) : Bool := s.vaultRefused core (s.pidOf b.launch) p

/-- n bytes of a range from x on as an operation takes them; those of a vault that is closed to it are free, and the refusal is recorded (R430, log 49). -/
def State.spanTake (s : State) (b : Block) (side core : Nat) (sp : Span) (x n : Nat) : (List Byte × Bool) × State :=
  let closed := (List.range n).filter fun i => s.spanClosed b core (s.spanByte b.id side core sp false (x + i))
  let r := s.spanRead b.id side core sp x n
  match closed with
  | [] => (r, s)
  | i :: _ =>
    let f := (s.refuseVault core (s.pidOf b.launch) (s.spanByte b.id side core sp false (x + i))).freeBytes n
    ((r.1.zipIdx.map fun y => if closed.contains y.2 then f.1.getD y.2 0 else y.1, r.2), f.2)

/-- The writes of an operation that the firewalls let through, and the state with the refusal of the others (R430). -/
def State.spanGives (s : State) (b : Block) (core : Nat) (ws : List (Place × List Byte)) : List (Place × List Byte) × State :=
  match ws.find? fun w => s.spanClosed b core w.1 with
  | none => (ws, s)
  | some w => (ws.filter fun w => !s.spanClosed b core w.1, s.refuseVault core (s.pidOf b.launch) w.1)

/-- Writes of a tile operation at places, applied at once at their homes; poisoned marks the granules they touch (R201, R203). -/
def State.writePlaces (s : State) (bid side : Nat) (ws : List (Place × List Byte)) (poison : Bool) : State :=
  let spads := ws.filterMap fun w => match w.1 with
    | .spad _ _ off => some (off, w.2)
    | .vault _ => none
  let vaults := ws.filterMap fun w => match w.1 with
    | .vault pa => some (pa, w.2)
    | .spad _ _ _ => none
  let marks (l : List (Nat × List Byte)) : List Nat := l.flatMap fun w => granulesOf w.1 w.2.length
  let s := if spads.isEmpty then s else s.spadWriteAll bid side spads
  let s := if vaults.isEmpty then s else { s with vault := s.vault.writeAll vaults }
  if !poison then s
  else
    let s := (marks spads).foldl (fun s g => s.modSpad bid side (16 * g) fun st => st.markPoison [g]) s
    { s with vault := s.vault.markPoison (marks vaults) }

/-- The sector checks of the sectors that places touch, set to the CRC of their bytes (R201). -/
def State.setPlaceChecks (s : State) (bid side : Nat) (ps : List Place) : State :=
  let spads := (ps.filterMap fun p => match p with
    | .spad _ _ off => some (off / 256)
    | .vault _ => none).eraseDups
  let vaults := (ps.filterMap fun p => match p with
    | .vault pa => some (pa / 256)
    | .spad _ _ _ => none).eraseDups
  let s := spads.foldl (fun s k => s.modSpad bid side (256 * k) fun st => st.setCheck k) s
  { s with vault := vaults.foldl Store.setCheck s.vault }

/-! ### The tile queue (R174) -/

/-- A tile operation enters the tail of its block's queue on the issuing core and counts in TILEOPS (R174). -/
def State.enqueueTile (s : State) (c : Ctx) (op : TileOp) : State :=
  let n := s.nextId
  let e : TileEnt := { id := n, crew := c.cid, op := op, seq := c.crew.nextOp, word := c.word, lane := c.active.headD 0 }
  let s := { s with nextId := n + 1 }.modSide c.blk.id c.crew.side fun sd => { sd with queue := sd.queue ++ [e] }
  (s.modCrew c.cid Crew.takeOp).count c.cid fun n => { n with tileops := n.tileops + 1 }

/-! ### The array (R101-R106, R180, R182) -/

/-- The value of an E8S scale (R82): a NaN, or a power of two. -/
def e8sValue (b : Nat) : Num :=
  match e8sExp b with
  | none => .nan false
  | some e => .fin false 1 e

/-- A scaled element of an operand: row i and column j of the view, with the scale at (si, sj) of its scale view (R180). -/
def Side.scaled (sd : Side) (h : Shape) (sc : Option Shape) (i j si sj : Nat) : Num :=
  let v := (fmtElem h.fmt).read false (sd.elem h i j)
  match sc with
  | none => v
  | some k => (v.mul (e8sValue (sd.elem k si sj))).1

/-- The group size and window of an MMA by the format codes of its operands (R102). -/
def mmaGroup (fa fb : Nat) : Nat × Nat :=
  match max (fmtBytes fa) (fmtBytes fb) with
  | 4 => (16, 52)
  | 8 => (8, 108)
  | _ => (32, 28)

/-- The columns K of A that an MMA reads, by format codes; 0 for an illegal pair (R179). -/
def mmaK (fa fb : Nat) : Nat :=
  match fa, fb with
  | 2, 2 => 64
  | 3, 3 => 64
  | 3, 6 => 64
  | 4, 4 => 128
  | 4, 5 => 128
  | 5, 4 => 128
  | 5, 5 => 128
  | 4, 6 => 128
  | 5, 6 => 128
  | 7, 7 => 128
  | 8, 7 => 128
  | 0, 0 => 32
  | 1, 1 => 16
  | _, _ => 0

/-- The accumulator format of an MMA by A's format code (R179). -/
def mmaAcc (fa : Nat) : AccFmt :=
  match fa with
  | 1 => .fp64
  | 7 => .i32
  | 8 => .i32
  | _ => .fp32

/-- One floating-point element: the groups of its products in order, each on the value the previous one left; with the leading exponents that the check sums (R103, R199). -/
def accGroups (f : AccFmt) (G W : Nat) (neg : Bool) : List (Num × Num) → Nat → Nat → Nat × List (Option Int)
  | _, acc, 0 => (acc, [])
  | ps, acc, fuel + 1 =>
    match ps with
    | [] => (acc, [])
    | _ =>
      let prods := (ps.take G).map fun p => p.1.mul p.2
      let bad := prods.any fun p => p.2 != 0
      let ts := f.float.read acc :: prods.map fun p => if neg then p.1.negate else p.1
      let lead := if bad || ts.any (fun t => t.isNan || t == .inf false || t == .inf true) then none else maxLeading ts
      let r := accGroups f G W neg (ps.drop G) (groupSum f.float W bad ts) fuel
      (r.1, lead :: r.2)

/-- One integer element: the sum of the accumulator and every product modulo 2^32 (R105). -/
def accInt (neg : Bool) (ps : List (Num × Num)) (acc : Nat) : Nat :=
  let s : Int := ps.foldl (fun t p => t + p.1.toInt 0 * p.2.toInt 0) 0
  wrapTo 32 ((acc : Int) + if neg then -s else s)

/-! ### Check entries (R198-R200) -/

/-- A value as a binary64 pattern. -/
def toF64 (x : Num) : Nat := (FloatFmt.f64.ofNum .rne false false x).1

/-- The binary64 sum of two patterns. -/
def f64Add (a b : Nat) : Nat := (fAdd .f64 .rne false a b).1

/-- The binary64 product of two patterns. -/
def f64Mul (a b : Nat) : Nat := (fMul .f64 .rne false a b).1

/-- Values added two at a time until one is left, in the order that a number chooses: its remainders tell the places of the next two. -/
def f64SumBy : Nat → Nat → List Nat → Nat
  | _, _, [] => 0
  | _, _, [x] => x
  | 0, _, x :: _ => x
  | n + 1, k, xs =>
    let rest := xs.eraseIdx (k % xs.length)
    let k2 := k / xs.length
    f64SumBy n (k2 / rest.length) (f64Add (xs.getD (k % xs.length) 0) (rest.getD (k2 % rest.length) 0) :: rest.eraseIdx (k2 % rest.length))

/-- The binary64 sum of values; the order of the additions is free (log 20). -/
def f64Sum (xs : List Nat) : Nat := f64SumBy xs.length (Config.sumOrder xs) xs

/-- A value without its sign. -/
def Num.abs : Num → Num
  | .fin _ m e => .fin false m e
  | .inf _ => .inf false
  | .nan s => .nan s

/-- The value of an accumulator pattern. -/
def AccFmt.num (f : AccFmt) (x : Nat) : Num :=
  match f with
  | .i32 => (ElemFmt.int 32 true).read false x
  | f => f.float.read x

/-- V := 0 in the rows of slots of other bases that overlap accumulator bytes (R199). -/
def Side.spoilOthers (sd : Side) (base a n : Nat) : Side :=
  { sd with slots := sd.slots.map fun k : CheckSlot =>
      if k.base = base then k
      else { k with rows := k.rows.map fun r : Nat × CheckEnt =>
        if rangesMeet (accRow k.base r.2.nc r.2.af r.1) (r.2.nc * r.2.af.bytes) a n then (r.1, { r.2 with v := false }) else r } }

/-- The slot of a base made present and used now; the one used earliest gives way when 16 are taken (R198). -/
def Side.takeSlot (sd : Side) (base : Nat) : Side :=
  let t := sd.tick + 1
  if sd.slots.any fun k => k.base == base then
    { sd with tick := t, slots := sd.slots.map fun k : CheckSlot => if k.base = base then { k with used := t } else k }
  else
    let oldest := (sd.slots.map (·.used)).foldl min t
    let kept := if sd.slots.length < 16 then sd.slots else sd.slots.filter fun k => k.used != oldest
    { sd with tick := t, slots := kept ++ [({ base := base, used := t, rows := [] } : CheckSlot)] }

/-- The check entry of a row of a base; none where nothing has recorded one. -/
def Side.checkEnt (sd : Side) (base i : Nat) : Option CheckEnt :=
  (sd.slots.find? fun k => k.base == base).bind fun k => tget k.rows i

/-- The check entry of a row put. -/
def Side.setCheckEnt (sd : Side) (base i : Nat) (e : CheckEnt) : Side :=
  { sd with slots := sd.slots.map fun k : CheckSlot => if k.base = base then { k with rows := tput k.rows i e } else k }

/-- The check entry that values loaded into a row give (ACCLD, R199). -/
def checkOfRow (f : AccFmt) (xs : List Nat) : CheckEnt :=
  match f with
  | .i32 => { cs := BitVec.ofNat 64 (xs.foldl (fun a x => (a + x) % 2 ^ 32) 0), nc := xs.length, af := f, v := true }
  | f => {
      cs := BitVec.ofNat 64 (f64Sum (xs.map fun x => toF64 (f.num x)))
      cm := BitVec.ofNat 64 (f64Sum (xs.map fun x => toF64 (f.num x).abs)), nc := xs.length, af := f, v := true }

/-- Whether a binary64 pattern is finite. -/
def f64Finite (x : Nat) : Bool :=
  match FloatFmt.f64.read x with
  | .fin _ _ _ => true
  | _ => false

/-- What the check of a drained row finds: none for a row without a usable check, else whether it fails (R200). The difference S - CS is formed in binary64
too, which the spec leaves open (log 53). -/
def drainCheck (e : Option CheckEnt) (f : AccFmt) (xs : List Nat) : Option Bool :=
  match e with
  | none => none
  | some e =>
    if !(e.v && e.nc == xs.length && e.af == f) then none
    else match f with
    | .i32 => some (xs.foldl (fun a x => (a + x) % 2 ^ 32) 0 != e.cs.toNat % 2 ^ 32)
    | f =>
      let vs := xs.map f.num
      if !(f64Finite e.cs.toNat && vs.all fun v => f64Finite (toF64 v)) then none
      else
        let d := (fSub .f64 .rne false (f64Sum (vs.map toF64)) e.cs.toNat).1
        let k : Int := if f = .fp64 then -38 else -17
        let bound := (FloatFmt.f64.read e.cm.toNat).mul (.fin false 1 k)
        some (bound.1.lt (FloatFmt.f64.read d).abs)

/-! ### The epilogue (R196) -/

/-- A value no more than another, for ReLU: a zero of either sign counts as no more than zero. -/
def Num.notPositive (x : Num) : Bool := x.isZero || x.neg?

/-- The parameters that an ACCST reads when it runs: clamp bounds, and per column a scale and a bias, as F32 patterns. -/
structure Epilogue where
  lo : Nat := 0
  hi : Nat := 0
  scale : Option (List Nat) := none
  bias : Option (List Nat) := none

/-- The output format of an OFMT code (R194). -/
def ofmtFloat (o : Nat) : FloatFmt :=
  match o with
  | 0 => .f32 | 1 => .bf16 | 2 => .f16 | 3 => .e4m3 | 4 => .e5m2 | _ => .f64

/-- The bytes of an output element (R195). -/
def ofmtBytes (o : Nat) : Nat :=
  match o with
  | 0 => 4 | 1 => 2 | 2 => 2 | 3 => 1 | 4 => 1 | _ => 8

/-- One drained element (R196): j is its column. -/
def Epilogue.run (p : Epilogue) (f : AccFmt) (act ofmt : Nat) (sat : Bool) (j a : Nat) : Nat :=
  let wf : FloatFmt := if f = .fp64 then .f64 else .f32
  let wide (x : Nat) : Nat := (convert (.float .f32) (.float wf) .rne false false x).1
  let x := if f = .i32 then (convert (.int 32 true) (.float .f32) .rne false false a).1 else a
  let x := match p.scale, p.bias with
    | some sc, some bi => (fFma wf .rne false false false x (wide (sc.getD j 0)) (wide (bi.getD j 0))).1
    | some sc, none => (fMul wf .rne false x (wide (sc.getD j 0))).1
    | none, some bi => (fAdd wf .rne false x (wide (bi.getD j 0))).1
    | none, none => x
  let v := wf.read x
  let x := if act = 1 then (if v.isNan then x else if v.notPositive then 0 else x) else x
  let x := if act = 2 then (fMinMax wf false false false (fMinMax wf false true false x (wide p.lo)).1 (wide p.hi)).1 else x
  (convert (.float wf) (.float (ofmtFloat ofmt)) .rne sat false x).1

end Sys2Proof.Machine
end

