-- ==== Sys2Proof/Machine/Matrix.lean ====
section
/-! DEFINITION. The meanings of MMA, the MCTL group, ACCLD, ACCST, LDT and STT (R173-R195, R266): every check is made here, and the operation enters the tile queue; Machine/TileRun.lean runs it. -/

namespace Sys2Proof.Machine

/-- The side record on which the word's crew runs, its shape records as they stood before the word's chain group (R14). -/
def Ctx.side (c : Ctx) : Side := { c.blk.side c.crew.side with shapes := c.shapes }

/-- BOUNDS, ALIGN or PROT of a crew-uniform word, with the number of its line in the word's check table and %taddr (R359). -/
def Ctx.uniformFail (c : Ctx) (k : AddrCheck) (al bo pr : Nat) (a : DWord) : TrapInfo :=
  match k with
  | .align => c.fail .align c.active al 0 a
  | .prot x => c.fail .prot c.active pr x a
  | _ => c.fail .bounds c.active bo 0 a

/-! ### MMA (R178-R181) -/

/-- The records that an MMA captures on one side: the B view, and its scale view when it uses scales. -/
structure MmaSide where
  tb : DWord
  sb : Option DWord

/-- The scale view that a valid record names: none where it uses none; an error where that record is not valid (R180, R181 line 3). -/
def Side.scaleView (sd : Side) (S : Nat) (rec : DWord) : Except Unit (Option DWord) :=
  let k := (Shape.ofBits rec).scale
  if k = 15 then .ok none
  else match sd.view S k with
    | none => .error ()
    | some b => .ok (some b)

/-- A tile with its scale view, when both records are valid (R181 line 3). -/
def Side.mmaView (sd : Side) (S t : Nat) : Option MmaSide :=
  match sd.view S t with
  | none => none
  | some b => match sd.scaleView S b with
    | .error _ => none
    | .ok sc => some { tb := b, sb := sc }

/-- Whether scales are used where they may not be (R180). -/
def MmaSide.scaleMisuse (v : MmaSide) : Bool :=
  match v.sb with
  | none => false
  | some b =>
    let f := (Shape.ofBits v.tb).fmt
    !(f == 4 || f == 5 || f == 6) || (Shape.ofBits b).fmt != 10

/-- Whether a view has at least so many rows and columns. -/
def viewHolds (rec : DWord) (rows cols : Nat) : Bool := rows ≤ (Shape.ofBits rec).rows && cols ≤ (Shape.ofBits rec).cols

/-- Whether a scale view, where one is used, has at least so many rows and columns. -/
def scaleHolds (rec : Option DWord) (rows cols : Nat) : Bool :=
  match rec with
  | none => true
  | some r => viewHolds r rows cols

/-- MMA (R178-R181). -/
def bodyMma (b : BitVec 6) (a t : BitVec 4) (n : BitVec 6) (m : BitVec 2) (g z w : BitVec 1) (c : Ctx) (s : State) : WordResult :=
  let tw := w == 1
  let mv := 64 * 2 ^ m.toNat
  let nv := 16 * (n.toNat + 1)
  let nl := if tw then nv / 2 else nv
  let S := c.record.tileBytes
  if tw && (!c.blk.isTwin || c.crew.side != 0) then .trap (c.fail .illop c.active 5)
  else
    let follower : Option MmaSide := if tw then (c.blk.side 1).mmaView S t.toNat else none
    match c.side.mmaView S a.toNat, c.side.mmaView S t.toNat with
    | some va, some vb =>
      if tw && follower.isNone then .trap (c.fail .bounds c.active 3)
      else
        let bs := vb :: follower.toList
        let fa := (Shape.ofBits va.tb).fmt
        let fb := (Shape.ofBits vb.tb).fmt
        let k := mmaK fa fb
        let acc := mmaAcc fa
        if k = 0 || (bs.any fun v => (Shape.ofBits v.tb).fmt != fb || v.sb.isSome != vb.sb.isSome)
            || (va :: bs).any MmaSide.scaleMisuse then .trap (c.fail .tag c.active 5)
        else if !(viewHolds va.tb mv k && scaleHolds va.sb mv (k / 32)
            && bs.all fun v => viewHolds v.tb k nl && scaleHolds v.sb (k / 32) nl) then .trap (c.fail .bounds c.active 5)
        else if accBytes c.blk c.record < b.toNat * 16384 + mv * nl * acc.bytes then .trap (c.fail .bounds c.active 6)
        else .done (s.enqueueTile c (.mma b.toNat va.tb vb.tb va.sb vb.sb (follower.map (·.tb)) (follower.bind (·.sb)) nl mv
          (g == 1) (z == 1) tw))
    | _, _ => .trap (c.fail .bounds c.active 3)

/-! ### MCTL (R187-R192) -/

/-- A shape record of a side replaced. -/
def State.setShape (s : State) (bid side t : Nat) (r : DWord) : State :=
  s.modSide bid side fun sd => { sd with shapes := sd.shapes.set t r }

/-- MOVTS (R188). -/
def bodyMovts (t : BitVec 4) (a : BitVec 5) (c : Ctx) (s : State) : WordResult :=
  match c.scalarCheck [(2, c.getS a, fun x => x.isInt || x == .raw)] with
  | some e => .trap e
  | none =>
    let r := (c.getS a).bits
    if c.side.tileCount ≤ t.toNat || !(Shape.ofBits r).valid c.side.tileCount c.record.tileBytes then .trap (c.fail .bounds c.active)
    else .done (s.setShape c.blk.id c.crew.side t.toNat r)

/-- MOVST (R188). -/
def bodyMovst (d : BitVec 5) (t : BitVec 4) (c : Ctx) (s : State) : WordResult :=
  match c.side.shapes[t.toNat]? with
  | none => .trap (c.fail .bounds c.active)
  | some r => .done ((s.writeS c d (mkVal .n64 r.toNat)).recordS c (mkVal .n64 r.toNat))

/-- The tags of a geometry word (R186). -/
def Tag.isGeometry (t : Tag) : Bool := t == .i64 || t == .n64

/-- ACCZ (R191). -/
def bodyAccz (a : BitVec 5) (c : Ctx) (s : State) : WordResult :=
  match c.scalarCheck [(2, c.getS a, Tag.isGeometry)] with
  | some e => .trap e
  | none => match AccGeo.ofBits (c.getS a).bits (accBytes c.blk c.record) with
    | none => .trap (c.fail .bounds c.active)
    | some g => .done (s.enqueueTile c (.accz g))

/-- MCHK: the scalar waits until the operation runs (R192); a template crew has no tile operations (R220). -/
def bodyMchk (d : BitVec 5) (c : Ctx) (s : State) : WordResult :=
  if c.blk.template then .trap (c.fail .bounds c.active)
  else
    let s := (s.writeS c d { tag := .n64, pend := some c.crew.nextOp }).awaitLv c.crew c.crew.nextOp [0]
    .done (s.enqueueTile c (.mchk d.toNat))

/-- A shape record with another format (R190). -/
def recordWithFmt (r : DWord) (f : BitVec 4) : DWord := (r &&& ~~~0xF#64) ||| f.zeroExtend 64

/-- TCVT (R190): the new record takes effect at issue. -/
def bodyTcvt (t : BitVec 4) (x : BitVec 1) (m : BitVec 2) (f : BitVec 4) (c : Ctx) (s : State) : WordResult :=
  let S := c.record.tileBytes
  match c.side.view S t.toNat with
  | none => .trap (c.fail .bounds c.active 3)
  | some old =>
    let new := recordWithFmt old f
    let h := Shape.ofBits new
    if (Shape.ofBits old).fmt = 10 then .trap (c.fail .tag c.active 5)
    else if S < h.rows * h.pitch then .trap (c.fail .bounds c.active 5)
    else
      let rm := match m.toNat with
        | 0 => 0
        | 1 => 1
        | _ => (c.regs.fpmode.extractLsb' 0 2).toNat
      .done ((s.setShape c.blk.id c.crew.side t.toNat new).enqueueTile c (.tcvt old new rm (m == 3) (x == 1)))

/-- TZERO (R189). -/
def bodyTzero (t : BitVec 4) (c : Ctx) (s : State) : WordResult :=
  match c.side.view c.record.tileBytes t.toNat with
  | none => .trap (c.fail .bounds c.active)
  | some r => .done (s.enqueueTile c (.tzero r))

/-! ### ACCLD and ACCST (R193-R195) -/

/-- ACCLD (R193). -/
def bodyAccld (d a : BitVec 5) (p : BitVec 1) (c : Ctx) (s : State) : WordResult :=
  match c.addressCheck [(1, c.getS d, Tag.isGeometry), (2, c.getS a, Tag.isInt)] with
  | some e => .trap e
  | none => match AccGeo.ofBits (c.getS d).bits (accBytes c.blk c.record) with
    | none => .trap (c.fail .bounds c.active 4)
    | some g =>
      let x := (c.getS a).toAddress
      let w := g.fmt.bytes
      if x.toNat % w ≠ 0 then .trap (c.fail .align c.active 5 0 x)
      else if g.pitch % w ≠ 0 || g.pitch < g.cols * w then .trap (c.fail .bounds c.active 6 0 x)
      else match s.spanAt c p.toNat x ((g.rows - 1) * g.pitch + g.cols * w) false with
        | .error k => .trap (c.uniformFail k 5 6 6 x)
        | .ok src => .done (s.enqueueTile c (.accld g src))

/-- ACCST (R194, R195): x SAT, y BI, q SC, p the space, u OS, f OFMT, t ACT. -/
def bodyAccst (d a b : BitVec 5) (x y q p u : BitVec 1) (f : BitVec 3) (t : BitVec 2) (c : Ctx) (s : State) : WordResult :=
  let sc := q == 1
  let bi := y == 1
  let par := sc || bi || t == 2
  let ops : List (Nat × RegVal × (Tag → Bool)) := [(1, c.getS d, Tag.isGeometry), (2, c.getS a, Tag.isInt)]
  match c.addressCheck (if par then ops ++ [(3, c.getS b, Tag.isInt)] else ops) with
  | some e => .trap e
  | none => match AccGeo.ofBits (c.getS d).bits (accBytes c.blk c.record) with
    | none => .trap (c.fail .bounds c.active 3)
    | some g =>
      let dst := (c.getS a).toAddress
      let pa := if par then (c.getS b).toAddress.toNat else 0
      let e := ofmtBytes f.toNat
      let row := g.cols * (1 + u.toNat) * e
      let plen := if par then 16 + 4 * g.cols * (q.toNat + y.toNat) else 0
      if dst.toNat % e ≠ 0 || g.pitch % e ≠ 0 || pa % 16 ≠ 0 then .trap (c.fail .align c.active 4 0 dst)
      else if g.pitch < row || c.blk.spadSize < pa + plen then .trap (c.fail .bounds c.active 5 0 dst)
      else match s.spanAt c p.toNat dst ((g.rows - 1) * g.pitch + row) true with
        | .error k => .trap (c.uniformFail k 4 (if p == 1 then 6 else 5) 6 dst)
        | .ok sp => .done (s.enqueueTile c (.accst g sp dst pa t.toNat f.toNat (u == 1) sc bi (x == 1)))

/-! ### LDT and STT (R266) -/

/-- The checks of LDT and STT, and the view's record with the translated range and the pitch. -/
def State.tileMove (s : State) (c : Ctx) (t : BitVec 4) (a b : BitVec 5) (p : BitVec 2) (write : Bool) : Except TrapInfo (DWord × Span × Nat) :=
  match c.addressCheck [(2, c.getS a, Tag.isInt), (3, c.getS b, Tag.isInt)] with
  | some e => .error e
  | none => match c.side.view c.record.tileBytes t.toNat with
    | none => .error (c.fail .bounds c.active 4)
    | some r =>
      let h := Shape.ofBits r
      let e := fmtBytes h.fmt
      let x := (c.getS a).toAddress
      let pitch := (c.getS b).toInteger
      if x.toNat % e ≠ 0 || pitch % (e : Int) ≠ 0 then .error (c.fail .align c.active 5 0 x)
      else if pitch < ((h.cols * e : Nat) : Int) then .error (c.fail .bounds c.active 6 0 x)
      else match s.spanAt c p.toNat x ((h.rows - 1) * pitch.toNat + h.cols * e) write with
        | .error k => .error (c.uniformFail k 5 6 7 x)
        | .ok sp => .ok (r, sp, pitch.toNat)

/-- LDT (R266, R267). -/
def bodyLdt (t : BitVec 4) (a b : BitVec 5) (p : BitVec 2) (c : Ctx) (s : State) : WordResult :=
  match s.tileMove c t a b p false with
  | .error e => .trap e
  | .ok (r, sp, pitch) => .done (s.enqueueTile c (.ldt r sp pitch))

/-- STT (R266, R267). -/
def bodyStt (t : BitVec 4) (a b : BitVec 5) (p : BitVec 2) (c : Ctx) (s : State) : WordResult :=
  match s.tileMove c t a b p true with
  | .error e => .trap e
  | .ok (r, sp, pitch) => .done (s.enqueueTile c (.stt r sp pitch))

end Sys2Proof.Machine
end

