-- ==== Sys2Proof/Machine/TileRun.lean ====
section
/-! DEFINITION. The running of tile operations: start, twin engagement, rows, completion (R175, R182, R183, R189-R192, R196, R199-R203, R267). -/

namespace Sys2Proof.Machine

/-- The tile operation at the head of a side's queue. -/
def State.tileHead (s : State) (bid side : Nat) : Option TileEnt := ((tget s.blocks bid).map fun b => (b.side side).queue).bind List.head?

/-- The head of a side's queue changed. -/
def State.modTileHead (s : State) (bid side : Nat) (f : TileEnt → TileEnt) : State :=
  s.modSide bid side fun sd => { sd with queue := sd.queue.modifyHead f }

/-! ### MMA (R182, R199) -/

/-- What an MMA uses on one side: A's records and side, B's records and side, and its numbers. -/
structure MmaRun where
  base : Nat
  nl : Nat
  neg : Bool
  acd : Bool
  sdA : Side
  ha : Shape
  sa : Option Shape
  hb : Shape
  sb : Option Shape

/-- The accumulator format of the run. -/
def MmaRun.acc (r : MmaRun) : AccFmt := mmaAcc r.ha.fmt

/-- The columns of A that the run reads. -/
def MmaRun.K (r : MmaRun) : Nat := mmaK r.ha.fmt r.hb.fmt

/-- The elements of row i of A with their scales. -/
def MmaRun.rowA (r : MmaRun) (i : Nat) : List Num := (List.range r.K).map fun k => r.sdA.scaled r.ha r.sa i k i (k / 32)

/-- The elements of column j of B with their scales. -/
def MmaRun.colB (r : MmaRun) (sd : Side) (j : Nat) : List Num := (List.range r.K).map fun k => sd.scaled r.hb r.sb k j (k / 32) j

/-- The number of scales of K elements: one for each 32 (R180). -/
def MmaRun.scales (r : MmaRun) : Nat := (r.K + 31) / 32

/-- Whether row i of the result is formed from poisoned data: of the elements that the run reads (R182, R203). -/
def MmaRun.poisoned (r : MmaRun) (sd : Side) (i : Nat) : Bool :=
  let sc (h : Option Shape) (d : Side) (k n : Nat) : Bool := match h with
    | none => false
    | some h => d.rowPoisoned h k n
  r.sdA.rowPoisoned r.ha i r.K || sc r.sa r.sdA i r.scales
    || ((List.range r.K).any fun k => sd.rowPoisoned r.hb k r.nl)
    || ((List.range r.scales).any fun k => sc r.sb sd k r.nl)
    || (!r.acd && sd.accPoisoned r.base r.nl r.acc i)

/-- The new pattern of element (i, j), with the leading exponent of each group (R103, R105). -/
def MmaRun.elem (r : MmaRun) (sd : Side) (as : List Num) (i j : Nat) : Nat × List (Option Int) :=
  let ps := as.zip (r.colB sd j)
  let old := if r.acd then 0 else sd.accElem r.base r.nl r.acc i j
  let g := mmaGroup r.ha.fmt r.hb.fmt
  match r.acc with
  | .i32 => (accInt r.neg ps old, [])
  | f => accGroups f g.1 g.2 r.neg ps old (r.K / g.1)

/-- The row sums r(k) of B over the columns of one side, exact for integers (R199). -/
def MmaRun.sumsB (r : MmaRun) (sd : Side) : List (List Num) :=
  (List.range r.K).map fun k => (List.range r.nl).map fun j => sd.scaled r.hb r.sb k j (k / 32) j

/-- The group updates of CS and CM, one group of G terms after another; each group's own sums are formed first, in a free order (R199, log 20). -/
def checkGroups (G : Nat) : List Nat → List (List Nat) → Nat × Nat → Nat × Nat
  | _, [], x => x
  | ts, bs :: rest, x => checkGroups G (ts.drop G) rest (f64Add x.1 (f64Sum (ts.take G)), f64Add x.2 (f64Sum bs))

/-- The check entry of row i after the MMA, from the leading exponents of each element's groups (R199). Each product is rounded to binary64 before it is
added, which the spec leaves open (log 53). -/
def MmaRun.check (r : MmaRun) (sd : Side) (as : List Num) (leads : List (List (Option Int))) (i : Nat) : CheckEnt :=
  let old := (sd.checkEnt r.base i).getD {}
  let e : CheckEnt :=
    if r.acd then { nc := r.nl, af := r.acc, v := true }
    else { old with v := old.v && old.nc == r.nl && old.af == r.acc }
  match r.acc with
  | .i32 =>
    let t : Int := (as.zip (r.sumsB sd)).foldl (fun t p => t + p.1.toInt 0 * (p.2.foldl (fun u x => u + x.toInt 0) 0)) 0
    { e with cs := BitVec.ofNat 64 (wrapTo 32 ((e.cs.toNat : Int) + if r.neg then -t else t)) }
  | _ =>
    let terms := (as.zip (r.sumsB sd)).map fun p =>
      f64Mul (toF64 (if r.neg then p.1.negate else p.1)) (f64Sum (p.2.map toF64))
    let G := (mmaGroup r.ha.fmt r.hb.fmt).1
    let bound (l : Option Int) : Nat := match l with
      | none => 0
      | some x => toF64 (.fin false 1 (x + 1))
    let bounds := (List.range (r.K / G)).map fun g => leads.map fun ls => bound (ls.getD g none)
    let sums := checkGroups G terms bounds (e.cs.toNat, e.cm.toNat)
    { e with cs := BitVec.ofNat 64 sums.1, cm := BitVec.ofNat 64 sums.2 }

/-- One row of an MMA on one side. -/
def MmaRun.row (r : MmaRun) (sd : Side) (i : Nat) : Side :=
  let as := r.rowA i
  let xs := (List.range r.nl).map fun j => r.elem sd as i j
  let chk := r.check sd as (xs.map (·.2)) i
  let bad := r.poisoned sd i
  (sd.writeAcc r.base r.nl r.acc i (xs.map (·.1)) bad).setCheckEnt r.base i chk

/-- An MMA's half on one side (R182, R198, R199). -/
def MmaRun.run (r : MmaRun) (mv : Nat) (sd : Side) : Side :=
  let sd := (sd.takeSlot r.base).spoilOthers r.base (r.base * 16384) (mv * r.nl * r.acc.bytes)
  (List.range mv).foldl r.row sd

/-! ### Rows of the other operations (R202) -/

/-- The rows of an operation that may stop at a row boundary; MMA, TCVT and MCHK act as a whole (R202). -/
def TileOp.rowCount (S : Nat) : TileOp → Nat
  | .accz g => g.rows
  | .accld g _ => g.rows
  | .accst g _ _ _ _ _ _ _ _ _ => g.rows
  | .tzero r => let p := (Shape.ofBits r).pitch; (S + p - 1) / p
  | .ldt r _ _ => (Shape.ofBits r).rows
  | .stt r _ _ => (Shape.ofBits r).rows
  | .mma _ _ _ _ _ _ _ _ _ _ _ _ => 1
  | .mchk _ => 1
  | .tcvt _ _ _ _ _ => 1

/-- Whether an operation goes row by row. -/
def TileOp.byRows : TileOp → Bool
  | .mma _ _ _ _ _ _ _ _ _ _ _ _ => false
  | .mchk _ => false
  | .tcvt _ _ _ _ _ => false
  | _ => true

/-- The epilogue parameters, read when the ACCST runs (R196). -/
def State.epilogue (s : State) (b : Block) (side param cols : Nat) (clamp sc bi : Bool) : Epilogue :=
  let f (off : Nat) : Nat := natOfBytes (s.spadBytes b side (param + off) 4)
  let col (off : Nat) : List Nat := (List.range cols).map fun j => f (off + 4 * j)
  { lo := if clamp then f 0 else 0, hi := if clamp then f 4 else 0
    scale := if sc then some (col 16) else none
    bias := if bi then some (col (if sc then 16 + 4 * cols else 16)) else none }

/-- Saturating counts of the matrix check status (R192). -/
def MchkStatus.drain (m : MchkStatus) (base row : Nat) : Option Bool → MchkStatus
  | none => { m with skip := min (m.skip + 1) 0xFFFF }
  | some false => m
  | some true => { m with fail := min (m.fail + 1) 0xFFFF, fbase := base, frow := row }

/-- Row i of an ACCST: the check, the outputs, the sector checks (R196, R200, R201, R203). R203 does not speak of a poisoned granule of the parameter block: the row is then delivered
poisoned, its check made all the same, and the block counts from offset 0 whether or not it clamps, a DESIGN CHOICE (log 20). -/
def State.accstRow (s : State) (b : Block) (side : Nat) (g : AccGeo) (dst : Span) (param act ofmt : Nat) (os sc bi sat : Bool) (i : Nat) : State :=
  let sd := b.side side
  let xs := (List.range g.cols).map fun j => sd.accElem g.base g.cols g.fmt i j
  let p := s.epilogue b side param g.cols (act == 2) sc bi
  let par := sc || bi || act == 2
  let plen := 16 + 4 * g.cols * ((if sc then 1 else 0) + if bi then 1 else 0)
  let bad := sd.accPoisoned g.base g.cols g.fmt i
  let poison := bad || (par && s.spadPoisoned b side param plen)
  let e := ofmtBytes ofmt
  let step := if os then 2 * e else e
  let place (x : Nat) : Place := s.spanByte b.id side sd.core dst true x
  let ws := (xs.zipIdx.flatMap fun (a, j) =>
    (bytesOfNat e (p.run g.fmt act ofmt sat j a)).zipIdx.map fun (y, k) => (place (i * g.pitch + j * step + k), [y]))
  let r := if bad then none else drainCheck (sd.checkEnt g.base i) g.fmt xs
  let s := s.modSide b.id side fun sd => { sd.takeSlot g.base with mchk := sd.mchk.drain g.base i r }
  let s := if r == some true then s.modTileHead b.id side fun t => { t with failed := some i } else s
  let r := s.spanGives b sd.core ws
  (r.2.writePlaces b.id side r.1 poison).setPlaceChecks b.id side (r.1.map (·.1))

/-- Errors in a range of tile storage, or of accumulator memory, that an operation reads are detected (R203, R460). -/
def State.detectStorage (s : State) (b : Block) (side : Nat) (tile : Option Nat) (a n : Nat) : State :=
  let core := (b.side side).core
  (granulesOf a n).foldl (fun s g =>
    let sd := ((tget s.blocks b.id).map fun b : Block => b.side side).getD (b.side side)
    let st := match tile with
      | some t => sd.storage t
      | none => sd.acc
    if !st.uncorr.contains g && !st.corr.contains g then s
    else
      (s.modSide b.id side fun sd => match tile with
        | some t => { sd with tiles := tput sd.tiles t (st.detectBytes g) }
        | none => { sd with acc := st.detectBytes g }).reportGranule core (s.pidOf b.launch) b.launch st g (if tile.isSome then 5 else 6) none) s

/-- The same for the first rows and columns of a view. -/
def State.detectView (s : State) (b : Block) (side : Nat) (r : DWord) (rows cols : Nat) : State :=
  let h := Shape.ofBits r
  ((List.range rows).flatMap fun i => h.rowBytes i cols).foldl (fun s x => s.detectStorage b side (some h.stor) x.1 x.2) s

/-- The same for a range of memory. -/
def State.detectSpan (s : State) (b : Block) (side : Nat) (sp : Span) (x n : Nat) : State :=
  let core := (b.side side).core
  ((List.range n).map fun i => s.spanByte b.id side core sp false (x + i)).foldl
    (fun s p => if s.spanClosed b core p then s else s.detect core (s.pidOf b.launch) b.launch p 1) s

/-- The errors that row i of an operation reads. -/
def State.detectRow (s : State) (b : Block) (side : Nat) (e : TileEnt) (i : Nat) : State :=
  match e.op with
  | .accld g src => s.detectSpan b side src (i * g.pitch) (g.cols * g.fmt.bytes)
  | .accst g _ _ param act _ _ sc bi _ =>
    let s := s.detectStorage b side none (accRow g.base g.cols g.fmt i) (g.cols * g.fmt.bytes)
    if sc || bi || act == 2 then
      s.detect (b.side side).core (s.pidOf b.launch) b.launch (.spad b.id side param) (16 + 4 * g.cols * ((if sc then 1 else 0) + if bi then 1 else 0))
    else s
  | .ldt r src pitch =>
    let h := Shape.ofBits r
    s.detectSpan b side src (i * pitch) (h.cols * fmtBytes h.fmt)
  | .stt r _ _ =>
    let h := Shape.ofBits r
    (h.rowBytes i h.cols).foldl (fun s x => s.detectStorage b side (some h.stor) x.1 x.2) s
  | _ => s

/-- The errors that an operation that acts as a whole reads. -/
def State.detectWhole (s : State) (b : Block) (side : Nat) (e : TileEnt) : State :=
  match e.op with
  | .mma base ta tb sa sb ftb fsb nl mv _ acd tw =>
    let bytes := (mmaAcc (Shape.ofBits ta).fmt).bytes
    let acc (s : State) (k : Nat) : State := if acd then s else s.detectStorage b k none (base * 16384) (mv * nl * bytes)
    let K := mmaK (Shape.ofBits ta).fmt (Shape.ofBits tb).fmt
    let n := (K + 31) / 32
    let view (s : State) (k rows cols : Nat) (r : Option DWord) : State := match r with
      | none => s
      | some r => s.detectView b k r rows cols
    let s := view (view (view (view (acc s side) side mv K (some ta)) side K nl (some tb)) side mv n sa) side n nl sb
    if tw then view (view (acc s 1) 1 K nl ftb) 1 n nl fsb else s
  | .tcvt old _ _ _ _ =>
    let h := Shape.ofBits old
    s.detectView b side old h.rows h.cols
  | _ => s

/-- Row i of the operation at the head of a side's queue. -/
def State.tileRow (s : State) (b : Block) (side : Nat) (e : TileEnt) (S i : Nat) : State :=
  let s := s.detectRow b side e i
  let sd := b.side side
  match e.op with
  | .accz g => s.modSide b.id side fun sd =>
      let sd := (sd.takeSlot g.base).spoilOthers g.base (accRow g.base g.cols g.fmt i) (g.cols * g.fmt.bytes)
      (sd.writeAcc g.base g.cols g.fmt i (List.replicate g.cols 0) false).setCheckEnt g.base i { nc := g.cols, af := g.fmt, v := true }
  | .accld g src =>
    let w := g.fmt.bytes
    let r := s.spanTake b side sd.core src (i * g.pitch) (g.cols * w)
    let xs := (List.range g.cols).map fun j => leAt r.1.1 (j * w) w
    r.2.modSide b.id side fun sd =>
      let sd := (sd.takeSlot g.base).spoilOthers g.base (accRow g.base g.cols g.fmt i) (g.cols * w)
      (sd.writeAcc g.base g.cols g.fmt i xs r.1.2).setCheckEnt g.base i (checkOfRow g.fmt xs)
  | .accst g dst _ param act ofmt os sc bi sat => s.accstRow b side g dst param act ofmt os sc bi sat i
  | .tzero r =>
    let h := Shape.ofBits r
    let a := i * h.pitch
    s.modSide b.id side fun sd => { sd with
      tiles := tput sd.tiles h.stor ((sd.storage h.stor).writeElems [(a, List.replicate (min h.pitch (S - a)) 0)] false) }
  | .ldt r src pitch =>
    let h := Shape.ofBits r
    let n := fmtBytes h.fmt
    let x := s.spanTake b side sd.core src (i * pitch) (h.cols * n)
    x.2.modSide b.id side fun sd => sd.writeRow h i ((List.range h.cols).map fun j => leAt x.1.1 (j * n) n) x.1.2
  | .stt r dst pitch =>
    let h := Shape.ofBits r
    let n := fmtBytes h.fmt
    let bs := (List.range h.cols).flatMap fun j => bytesOfNat n (sd.elem h i j)
    let ws := bs.zipIdx.map fun (y, k) => (s.spanByte b.id side sd.core dst true (i * pitch + k), [y])
    let r := s.spanGives b sd.core ws
    r.2.writePlaces b.id side r.1 (sd.rowPoisoned h i h.cols)
  | .mma _ _ _ _ _ _ _ _ _ _ _ _ => s
  | .mchk _ => s
  | .tcvt _ _ _ _ _ => s

/-- TCVT: every element read through the old record, then written through the new one (R190, R203). -/
def Side.convertTile (sd : Side) (old new : DWord) (rm : Nat) (odd sat : Bool) : Side :=
  let h := Shape.ofBits old
  let k := Shape.ofBits new
  let mode := if odd then RMode.odd else RMode.ofRM (BitVec.ofNat 2 rm)
  let rows := (List.range h.rows).map fun i =>
    ((List.range h.cols).map fun j => (convert (fmtElem h.fmt) (fmtElem k.fmt) mode sat false (sd.elem h i j)).1, sd.rowPoisoned h i h.cols)
  rows.zipIdx.foldl (fun sd r => sd.writeRow k r.2 r.1.1 r.1.2) sd

/-- An operation that acts as a whole (R182, R190, R192). -/
def State.tileWhole (s : State) (b : Block) (side : Nat) (e : TileEnt) : State :=
  let s := s.detectWhole b side e
  match e.op with
  | .mma base ta tb sa sb ftb fsb nl mv neg acd tw =>
    let run (hb : DWord) (sbr : Option DWord) : MmaRun := {
      base := base, nl := nl, neg := neg, acd := acd, sdA := b.side side, ha := Shape.ofBits ta
      sa := sa.map Shape.ofBits, hb := Shape.ofBits hb, sb := sbr.map Shape.ofBits }
    let s := s.modSide b.id side ((run tb sb).run mv)
    if tw then s.modSide b.id 1 ((run (ftb.getD 0) fsb).run mv) else s
  | .tcvt old new rm odd sat => s.modSide b.id side fun sd => sd.convertTile old new rm odd sat
  | .mchk _ =>
    let m := (b.side side).mchk
    let v := mkVal .n64 (m.fail + m.skip * 2 ^ 16 + m.fbase * 2 ^ 32 + m.frow * 2 ^ 38)
    let s := s.modSide b.id side fun sd => { sd with mchk := {} }
    let s := s.modBoth e.crew fun w => (w.deliverS e.seq v).settle e.seq
    match tget s.crews e.crew with
    | none => s
    | some c => s.fillLv c e.seq 0 v {}
  | _ => s

/-! ### The steps of a tile queue -/

/-- Whether what an operation waits for in the issuing crew has not performed: the earlier stores (R193, R196, R267), and for every operation that accesses
memory the earlier acquiring accesses (R251). -/
def State.tileStoresDue (s : State) (e : TileEnt) : Bool :=
  let waits : Bool × Bool := match e.op with
    | .accld _ _ => (true, true)
    | .accst _ _ _ _ _ _ _ _ _ _ => (true, true)
    | .ldt _ _ _ => (true, true)
    | .stt _ _ _ => (false, true)
    | _ => (false, false)
  match tget s.crews e.crew with
  | none => false
  | some c => (waits.1 && c.storeQ.any fun x => x.id < e.seq) || (waits.2 && s.acquireDue c e.seq)

/-- Whether stores of the core are still on their way to vault bytes that an operation writes. -/
def State.tileVaultDue (s : State) (b : Block) (side : Nat) (e : TileEnt) : Bool :=
  let core := (b.side side).core
  let due (sp : Span) (n : Nat) : Bool :=
    (List.range n).any fun x => match s.spanByte b.id side core sp true x with
      | .vault pa => (s.vaultView core).any fun v => v.meets pa 1
      | .spad _ _ _ => false
  !(s.vaultView core).isEmpty && match e.op with
    | .accst g dst _ _ _ ofmt os _ _ _ => due dst ((g.rows - 1) * g.pitch + g.cols * (if os then 2 else 1) * ofmtBytes ofmt)
    | .stt r dst pitch =>
      let h := Shape.ofBits r
      due dst ((h.rows - 1) * pitch + h.cols * fmtBytes h.fmt)
    | _ => false

/-- Whether the manifest of an entry's crew still holds the entry: it has not been issued again (R394). -/
def State.tileReplays (s : State) (e : TileEnt) : Bool :=
  match tget s.crews e.crew with
  | none => false
  | some c => c.replay.any fun m => match m.op with
    | .tile id => id == e.id
    | _ => false

/-- Whether a block lets tile operations begin. -/
def Block.tilesRun (b : Block) : Bool := b.state == .running

/-- The head of a queue begins (R175); a twin MMA once its entry in the follower's queue is the head there too (R183). -/
def State.tileStart (s : State) (bid side : Nat) : Option State :=
  match tget s.blocks bid, s.tileHead bid side with
  | some b, some e =>
    if e.started || e.guest || !b.tilesRun || s.tileReplays e || s.tileStoresDue e then none
    else match e.op with
    | .mma _ _ _ _ _ _ _ _ _ _ _ true =>
      match s.tileHead bid 1 with
      | some f =>
        if e.engaged && f.guest && f.id == e.id then
          some ((s.modTileHead bid side fun t => { t with started := true }).modTileHead bid 1 fun t => { t with started := true })
        else none
      | none => none
    | _ => some (s.modTileHead bid side fun t => { t with started := true })
  | _, _ => none

/-- A twin MMA at the head of the leader's queue enters the follower's queue, and begins when nothing is ahead of it there (R183). -/
def State.mmaEngage (s : State) (bid : Nat) : Option State :=
  match tget s.blocks bid, s.tileHead bid 0 with
  | some b, some e =>
    match e.op with
    | .mma _ _ _ _ _ _ _ _ _ _ _ true =>
      if e.engaged || !b.tilesRun || s.tileReplays e then none
      else
        let now := (b.side 1).queue.isEmpty
        let s := s.modTileHead bid 0 fun t => { t with engaged := true, started := now }
        some (s.modSide bid 1 fun sd => { sd with queue := sd.queue ++ [({ e with guest := true, started := now } : TileEnt)] })
    | _ => none
  | _, _ => none

/-- One row of the operation at the head of a queue. -/
def State.tileStep (s : State) (bid side : Nat) : Option State :=
  match tget s.blocks bid, s.tileHead bid side with
  | some b, some e =>
    let S := (s.recordOf b.launch).tileBytes
    if !e.started || !b.tilesRun || !e.op.byRows || e.op.rowCount S ≤ e.rows || s.tileVaultDue b side e then none
    else some ((s.tileRow b side e S e.rows).modTileHead bid side fun t => { t with rows := t.rows + 1 })
  | _, _ => none

/-- The remaining rows of the head, each on the state that the one before it left. -/
def State.tileRows (s : State) (bid side S : Nat) : Nat → State
  | 0 => s
  | n + 1 =>
    match tget s.blocks bid, s.tileHead bid side with
    | some b, some e =>
      ((s.tileRow b side e S e.rows).modTileHead bid side fun t => { t with rows := t.rows + 1 }).tileRows bid side S n
    | _, _ => s

/-- The head leaves its queue, and the follower's with it; TILEOPS falls (R175, R183). -/
def State.tileLeave (s : State) (bid side : Nat) (e : TileEnt) : State :=
  let drop (s : State) (k : Nat) : State := s.modSide bid k fun sd => { sd with queue := sd.queue.drop 1 }
  let s := drop s side
  let s := if e.engaged then drop s 1 else s
  s.count e.crew fun n => { n with tileops := n.tileops - 1 }

/-- The record of a failing ACCST, and under the trap policy the MCHECK owed to its crew (R200, R468). -/
def State.accstReport (s : State) (b : Block) (side : Nat) (e : TileEnt) : State :=
  match e.failed, e.op with
  | some row, .accst g dst addr _ _ _ _ _ _ _ =>
    let space : RecAddr := match dst with
      | .vault _ _ => .guest
      | _ => .plain
    let l := tget s.launches b.launch
    let trap := (s.recordOf b.launch).mcheck
    let core := (b.side side).core
    let s := s.report [s.pidOf b.launch] {
      type := 0x04, aval := true, slice := core / 32, core := core % 32, ctx := (l.map (·.ctx)).getD 0, launch := (l.map (·.lid)).getD 0
      addr := addr, info := BitVec.ofNat 64 (row + g.base * 2 ^ 8 + if trap then 2 ^ 16 else 0) } space
    if trap then s.owe e.crew { cause := .mcheck, addr := some addr, info := trapDetail e.word row g.base, guest := space == .guest } else s
  | _, _ => s

/-- The head of a queue completes (R175). -/
def State.tileComplete (s : State) (bid side : Nat) : Option State :=
  match tget s.blocks bid, s.tileHead bid side with
  | some b, some e =>
    let S := (s.recordOf b.launch).tileBytes
    if !e.started || e.guest || (e.op.byRows && !b.tilesRun) || s.tileVaultDue b side e then none
    else
      let s := if e.op.byRows then s.tileRows bid side S (e.op.rowCount S - e.rows) else s.tileWhole b side e
      let e' := (s.tileHead bid side).getD e
      some ((s.tileLeave bid side e').accstReport b side e')
  | _, _ => none

end Sys2Proof.Machine
end

