-- ==== Sys2Proof/Machine/Engine.lean ====
section
/-! DEFINITION. The meanings of the engine words: FCOPY, FGATH, FSCAT, FATOM, FPUT, FPUTS, FGET, COLL, NMC, FPREF and FCANCEL (R281-R315). A word checks its descriptor and enters its command in a Ferry slot; Machine/Ferry.lean runs it. -/

namespace Sys2Proof.Machine

/-! ### Descriptors -/

/-- One used dimension of a copy: count, source stride, destination stride. -/
structure CopyDim where
  count : Nat
  src : Int
  dst : Int
  deriving DecidableEq, Repr

/-- The fields of an FCOPY descriptor (R293), its four dimensions with unused counts read as 1. -/
structure CopyDesc where
  src : Nat
  dst : Nat
  esize : Nat
  berth : Bool
  verify : Bool
  declass : Bool
  srcSpad : Bool
  dstSpad : Bool
  dims : List CopyDim
  deriving DecidableEq, Repr

/-- A signed 32-bit field. -/
def s32At (b : List Byte) (off : Nat) : Int := signedOf 32 (leAt b off 4)

/-- The element size of a copy: 2^ESIZE bytes. -/
def CopyDesc.bytes (d : CopyDesc) : Nat := 2 ^ d.esize

/-- The fields of the 64 bytes (R293). -/
def copyDesc (b : List Byte) : CopyDesc :=
  let flags := leAt b 17 1
  let n := flags % 4 + 1
  let cnt (k : Nat) : Nat := if k = 0 then leAt b 20 4 else leAt b (22 + 2 * k) 2
  { src := leAt b 0 8, dst := leAt b 8 8, esize := leAt b 16 1 % 16, berth := flags / 4 % 2 == 1, verify := flags / 8 % 2 == 1
    declass := flags / 16 % 2 == 1, srcSpad := leAt b 18 1 % 2 == 1, dstSpad := leAt b 18 1 / 2 % 2 == 1
    dims := (List.range n).map fun k => { count := cnt k, src := s32At b (32 + 4 * k), dst := s32At b (48 + 4 * k) } }

/-- The number of elements. -/
def CopyDesc.elems (d : CopyDesc) : Nat := d.dims.foldl (fun n x => n * x.count) 1

/-- The offset of element n along strides: the digits of n in the counts (R295). -/
def digitOffset : List (Nat × Int) → Nat → Int
  | [], _ => 0
  | (c, st) :: rest, n => ((n % c : Nat) : Int) * st + digitOffset rest (n / c)

/-- The source axes of a copy. -/
def CopyDesc.srcAxes (d : CopyDesc) : List (Nat × Int) := d.dims.map fun x => (x.count, x.src)

/-- The destination axes of a copy. -/
def CopyDesc.dstAxes (d : CopyDesc) : List (Nat × Int) := d.dims.map fun x => (x.count, x.dst)

/-- Whether the reserved fields, counts and sizes of an FCOPY descriptor are valid (R294). -/
def copyValid (b : List Byte) : Bool :=
  let d := copyDesc b
  let n := d.dims.length
  let unusedZero := (List.range 4).all fun k => k < n
    || ((if k = 0 then leAt b 20 4 else leAt b (22 + 2 * k) 2) == 0 && leAt b (32 + 4 * k) 4 == 0 && leAt b (48 + 4 * k) 4 == 0)
  leAt b 16 1 ≤ 8 && leAt b 17 1 < 32 && leAt b 18 1 < 64 && leAt b 18 1 / 4 % 4 == 0 && leAt b 19 1 == 0 && leAt b 30 2 == 0
    && unusedZero && d.dims.all (fun x => 1 ≤ x.count) && d.bytes * d.elems ≤ 2 ^ 40 && !(d.berth && d.dstSpad)

/-- The fields of an FGATH or FSCAT descriptor (R297). -/
structure GathDesc where
  table : Nat
  list : Nat
  esize : Nat
  wide : Bool
  berth : Bool
  verify : Bool
  declass : Bool
  tableSpad : Bool
  listSpad : Bool
  count : Nat
  idx : Nat
  iscale : Nat
  deriving DecidableEq, Repr

/-- The fields of the 64 bytes (R297). -/
def gathDesc (b : List Byte) : GathDesc :=
  let flags := leAt b 17 1
  { table := leAt b 0 8, list := leAt b 8 8, esize := leAt b 16 1 % 16, wide := flags % 2 == 1, berth := flags / 2 % 2 == 1
    verify := flags / 4 % 2 == 1, declass := flags / 8 % 2 == 1, tableSpad := leAt b 18 1 % 2 == 1, listSpad := leAt b 18 1 / 2 % 2 == 1
    count := leAt b 20 4, idx := leAt b 24 8, iscale := leAt b 32 4 }

/-- The element size. -/
def GathDesc.bytes (d : GathDesc) : Nat := 2 ^ d.esize

/-- The width of an index. -/
def GathDesc.idxBytes (d : GathDesc) : Nat := if d.wide then 8 else 4

/-- Whether the reserved fields and counts of an FGATH or FSCAT descriptor are valid (R297). -/
def gathValid (b : List Byte) (scat : Bool) : Bool :=
  let d := gathDesc b
  leAt b 16 1 ≤ 8 && leAt b 17 1 < 16 && leAt b 18 1 < 64 && leAt b 18 1 / 4 % 4 == 0 && leAt b 19 1 == 0 && (b.drop 36).all (· == 0)
    && 1 ≤ d.count && d.count ≤ 2 ^ 24 && !(d.berth && (scat || d.listSpad))

/-- The fields of an FATOM descriptor (R299). -/
structure FatomDesc where
  addr : Nat
  opnd : Nat
  cmp : Nat
  res : Option Nat
  op : AtomOp
  tag : Tag
  size : Nat
  ord : Nat
  deriving DecidableEq, Repr

/-- The fields of the 32 bytes (R299). -/
def fatomDesc (b : List Byte) : FatomDesc :=
  { addr := leAt b 0 8, opnd := leAt b 8 8, cmp := leAt b 16 8, res := if leAt b 24 4 = 0xFFFFFFFF then none else some (leAt b 24 4)
    op := AtomOp.ofCode (leAt b 28 1 % 16), tag := Tag.ofCode (leAt b 29 1 % 16), size := if leAt b 29 1 / 16 % 2 = 1 then 8 else 4
    ord := leAt b 30 1 % 4 }

/-- Whether the codes and reserved fields of an FATOM descriptor are valid (R299). -/
def fatomValid (b : List Byte) : Bool :=
  leAt b 28 1 ≤ 10 && leAt b 29 1 < 32 && leAt b 30 1 < 3 && leAt b 31 1 == 0 && (leAt b 28 1 == 10 || leAt b 16 8 == 0)

/-- The fields of an FPUT, FPUTS or FGET descriptor (R303). -/
structure PutDesc where
  loc : Nat
  remote : Nat
  bytes : Nat
  rank : Nat
  spad : Bool
  rl : Bool
  declass : Bool
  rland : Nat
  deriving DecidableEq, Repr

/-- The fields of the 64 bytes (R303). -/
def putDesc (b : List Byte) : PutDesc :=
  let flags := leAt b 22 1
  { loc := leAt b 0 8, remote := leAt b 8 8, bytes := leAt b 16 4, rank := leAt b 20 2, spad := flags % 2 == 1, rl := flags / 2 % 2 == 1
    declass := flags / 4 % 2 == 1, rland := leAt b 24 8 }

/-- Whether the fields of a put or get descriptor are valid (R303). -/
def putValid (b : List Byte) (sum : Bool) : Bool :=
  let d := putDesc b
  leAt b 22 1 < 32 && leAt b 23 1 == 0 && (b.drop 32).all (· == 0) && d.bytes % 16 == 0 && 16 ≤ d.bytes && d.bytes ≤ 2 ^ 31
    && (d.rl || !sum) && (!d.rl || d.rland % 2 == 1)

/-- The fields of a COLL descriptor (R305). -/
structure CollDesc where
  send : Nat
  recv : Nat
  count : Nat
  etype : Nat
  sendSpad : Bool
  recvSpad : Bool
  declass : Bool
  root : Nat
  first : Nat
  members : Nat
  stride : Nat
  deriving DecidableEq, Repr

/-- The fields of the 64 bytes (R305). -/
def collDesc (b : List Byte) : CollDesc :=
  let flags := leAt b 21 1
  { send := leAt b 0 8, recv := leAt b 8 8, count := leAt b 16 4, etype := leAt b 20 1 % 8, sendSpad := flags % 2 == 1
    recvSpad := flags / 2 % 2 == 1, declass := flags / 4 % 2 == 1, root := leAt b 22 2, first := leAt b 24 2, members := leAt b 26 2
    stride := leAt b 28 2 }

/-- The element size of a collective's element type (R305). -/
def collBytes (etype : Nat) : Nat :=
  match etype with
  | 1 => 8 | 2 => 2 | 3 => 2 | 6 => 8 | 7 => 8 | _ => 4

/-- The member ranks of a collective (R305). -/
def CollDesc.ranks (d : CollDesc) : List Nat := (List.range d.members).map fun m => d.first + m * d.stride

/-- The bytes that a member sends and those that it receives (R307): in a BCAST only the root sends. -/
def collSizes (op : EngOp) (d : CollDesc) (own : Nat) : Nat × Nat :=
  let n := d.count * collBytes d.etype
  match op with
  | .collAllred => (n, n)
  | .collAllgath => (n, d.members * n)
  | .collRedscat => (d.members * n, n)
  | .collBcast => (if own = d.root then n else 0, n)
  | _ => (0, 0)

/-- Whether the fields of a COLL descriptor are valid (R305). -/
def collValid (b : List Byte) (op : EngOp) : Bool :=
  let d := collDesc b
  let bare := op == .collCbar
  leAt b 20 1 < 8 && leAt b 21 1 < 32 && (b.drop 30).all (· == 0) && 1 ≤ d.members && d.members ≤ 1024 && 1 ≤ d.stride && d.stride ≤ 1023
    && (op == .collBcast || d.root == 0)
    && (if bare then d.send == 0 && d.recv == 0 && d.count == 0 && d.etype == 0 else 1 ≤ d.count && d.count ≤ 2 ^ 28)

/-- The fields of an NMC descriptor (R309). -/
structure NmcDesc where
  dst : Nat
  s1 : Nat
  s2 : Nat
  count : Nat
  op : Nat
  bf16 : Bool
  lp : Bool
  land : Nat
  alpha : Nat
  beta : Nat
  deriving DecidableEq, Repr

/-- The fields of the 32 bytes (R309). -/
def nmcDesc (b : List Byte) : NmcDesc :=
  { dst := leAt b 0 8, s1 := leAt b 8 2, s2 := leAt b 10 2, count := leAt b 12 2, op := leAt b 14 1 % 8, bf16 := leAt b 15 1 % 4 == 1
    lp := leAt b 15 1 / 128 == 1, land := leAt b 16 8, alpha := leAt b 24 4, beta := leAt b 28 4 }

/-- The element size of an NMC. -/
def NmcDesc.bytes (d : NmcDesc) : Nat := if d.bf16 then 2 else 4

/-- Whether the operation reads source 1, and source 2 (R311). -/
def NmcDesc.reads (d : NmcDesc) : Bool × Bool :=
  match d.op with
  | 0 => (true, true)
  | 1 => (true, true)
  | 3 => (false, false)
  | _ => (true, false)

/-- The interleave granule that contains DST (R309). -/
def NmcDesc.granule (d : NmcDesc) : Nat := d.dst / 65536 * 65536

/-- The bytes that the operation writes: SUM writes one element (R310). -/
def NmcDesc.outBytes (d : NmcDesc) : Nat := if d.op = 2 then d.bytes else d.count * d.bytes

/-- Whether the fields of an NMC descriptor are valid (R310). -/
def nmcValid (b : List Byte) : Bool :=
  let d := nmcDesc b
  let n := d.count * d.bytes
  leAt b 14 1 < 6 && leAt b 15 1 % 128 < 2 && 1 ≤ d.count && d.count ≤ 16384 && (d.lp || d.land == 0)
    && d.dst % 65536 + d.outBytes ≤ 65536 && (!d.reads.1 || d.s1 + n ≤ 65536) && (!d.reads.2 || d.s2 + n ≤ 65536)

/-! ### Issue (R282-R285) -/

/-- What an engine word finds before it looks at its descriptor's fields: the descriptor's address and bytes, none when it is outside the scratchpad, and S[SB]. -/
structure EngHead where
  addr : DWord
  desc : Option (List Byte)
  sb : RegVal

/-- The checks of orders 2 to 4 on the registers, and the descriptor as the crew reads it (R282, R285). -/
def State.engHead (s : State) (c : Ctx) (a : BitVec 5) (b : Option (BitVec 5)) (size : Nat) (landing : Bool) : Except TrapInfo EngHead :=
  let ra := c.getS a
  let isRef (t : Tag) : Bool := t == .i64 || t == .n64
  let ops : List (Nat × RegVal × (Tag → Bool)) := (2, ra, Tag.isInt) :: (b.map fun b => (3, c.getS b, if landing then isRef else Tag.isInt)).toList
  match c.addressCheck ops with
  | some t => .error t
  | none =>
    let x := ra.toAddress
    let rb := (b.map c.getS).getD (mkVal .n64 0)
    let pl := Place.spad c.blk.id c.crew.side x.toNat
    if x.toNat % size ≠ 0 then .error (c.fail .align c.active 4 0 x)
    else if landing && rb.bits.toNat / 2 % 8 ≠ 0 then .error (c.fail .align c.active 4 0 (BitVec.ofNat 64 (rb.bits.toNat / 16 * 16)))
    else if c.blk.spadSize < x.toNat + size then .ok { addr := x, desc := none, sb := rb }
    else if s.crewPoisoned c.crew c.crew.nextOp pl size then .error (c.fail .poison c.active 2 0 x)
    else .ok { addr := x, desc := some (s.crewBytes c.crew c.crew.nextOp pl size), sb := rb }

/-- A landing that a command names: the home of one in scratchpad, or the virtual address of one in vault, which is translated while the command runs (R288). -/
structure CmdLand where
  home : Option LandHome := none
  va : Option DWord := none

/-- The landing of a reference for a crew (R242). -/
def landOf (c : Ctx) (ref : Nat) : CmdLand :=
  let a := ref / 16 * 16
  if ref % 2 = 1 then { va := some (BitVec.ofNat 64 a) } else { home := some (.spad c.blk.id c.crew.side a) }

/-- BOUNDS at order 5 (R282). -/
def Ctx.engBounds (c : Ctx) (a : Nat) : TrapInfo := c.fail .bounds c.active 5 0 (BitVec.ofNat 64 a)

/-- A landing outside the block's scratchpad (R282 order 5), or in the segment after FREEZE 1 (order 6, R231). -/
def Ctx.landTrap (c : Ctx) (l : CmdLand) (order6 : Bool) : Option TrapInfo :=
  match l.home with
  | some (.spad _ _ a) =>
    if order6 then (if c.blk.inSegment a then some (c.fail .prot c.active 6 2 (BitVec.ofNat 64 a)) else none)
    else if c.blk.spadSize < a + 16 then some (c.engBounds a)
    else none
  | _ => none

/-- A scratchpad range of a command outside the block's scratchpad (R282 order 5). -/
def Ctx.spadTrap (c : Ctx) (spad : Bool) (lo hi : Int) : Option TrapInfo :=
  if spad && !(decide (0 ≤ lo) && decide (hi ≤ (c.blk.spadSize : Int))) then some (c.fail .bounds c.active 5 0 (BitVec.ofInt 64 lo)) else none

/-- A scratchpad destination in the segment after FREEZE 1 (R231). -/
def Ctx.segTrap (c : Ctx) (spad : Bool) (lo : Int) : Option TrapInfo :=
  if spad && c.blk.inSegment lo.toNat then some (c.fail .prot c.active 6 2 (BitVec.ofInt 64 lo)) else none

/-- An alignment rule of a command (R282 order 4). -/
def Ctx.engAlign (c : Ctx) (bad : Bool) (a : Nat) : Option TrapInfo :=
  if bad then some (c.fail .align c.active 4 0 (BitVec.ofNat 64 a)) else none

/-- The hidden side of a berth fixed at issue, with the range in it (R258, R294): in vault (true) or scratchpad, its address there. -/
def State.berthHidden (s : State) (c : Ctx) (lo hi : Int) : Option (Bool × DWord) :=
  let x : Nat := (BitVec.ofInt 64 lo).toNat
  match tget (s.core c.crew.core).berths (x / 2 ^ 60) with
  | none => none
  | some b =>
    let off : Nat := x % 2 ^ 60
    if b.block ≠ c.blk.id || (b.size : Int) < (off : Int) + (hi - lo) then none
    else
      let base := if b.visible then b.base0 else b.base1
      some (b.vault, base + BitVec.ofNat 64 off)

/-- Whether a write of a protected world to a virtual range leaves the world's windows and its declassified cargo (R415). -/
def State.leavesWorld (s : State) (c : Ctx) (a n : Nat) : Bool :=
  match tget s.launches c.crew.launch with
  | none => false
  | some l =>
    s.worldLeft l (declassGlobal l.cargo c.blk.beta ++ declassVault l.cargo c.blk.beta) a n

/-- Whether a write of a protected world goes outside its global windows, which no cargo entry can allow (R415: FATOM, NMC). -/
def State.leavesGlobal (s : State) (c : Ctx) (a n : Nat) : Bool :=
  match tget s.launches c.crew.launch with
  | none => false
  | some l => l.record.key ≠ 0 && !inWindows (((s.handle? l.record.key).map (·.gwin)).getD []) a n

/-- PROT for a protected world (R415). -/
def Ctx.worldTrap (c : Ctx) (bad : Bool) (a : Nat) : Option TrapInfo :=
  if bad then some (c.fail .prot c.active 6 3 (BitVec.ofNat 64 a)) else none

/-- Whether p holds of every address that strides reach from a. -/
def boxAll (p : Int → Bool) : List (Nat × Int) → Int → Bool
  | [], a => p a
  | (n, st) :: rest, a => (List.range n).all fun i => boxAll p rest (a + i * st)

/-- The number of Ferry slots of a core (R283). -/
def ferrySlots : Nat := 512

/-- The handle that a slot gives at its next use (R283). -/
def Core.handleOf (r : Core) (slot : Nat) : DWord := BitVec.ofNat 64 (slot + (tget r.useCount slot).getD 0 % 2 ^ 23 * 512)

/-- The first free slot whose next handle no command of the crew holds (R283). -/
def Core.freeSlot (r : Core) (cid : Nat) : Option Nat :=
  (List.range ferrySlots).find? fun k => (tget r.ferry k).isNone && !(r.ferry.any fun x => x.2.crew == cid && x.2.handle == r.handleOf k)

/-- A command takes a slot, its handle goes to SD, and it counts in COPIES (R283, R284); a ticketed one takes a ticket (R385, R386). -/
def State.engIssue (s : State) (c : Ctx) (d : BitVec 5) (land : CmdLand) (ticketed : Bool) (cmd : FerryCmd) : WordResult :=
  let r := s.core c.crew.core
  if ticketed && c.crew.horizonFull then .wait .horizon
  else match r.freeSlot c.cid with
    | none => .wait .ferrySlot
    | some slot =>
      let h := r.handleOf slot
      let cmd := { cmd with
        crew := c.cid, block := c.blk.id, side := c.crew.side, handle := h, landing := land.home, landVa := land.va, sd := d.toNat
        word := c.word, seq := c.crew.nextOp, ticket := if ticketed then some (s.ticketOf c.crew c.crew.seq) else none
        hor := c.crew.horizon, gen := c.crew.gen, lane := c.active.headD 0 }
      let s := s.modCore c.crew.core fun r => { r with
        ferry := tput r.ferry slot cmd, useCount := tput r.useCount slot ((tget r.useCount slot).getD 0 + 1) }
      let s := s.modCrew c.cid fun w => (if ticketed then w.takeTicket else w).takeOp
      let s := s.count c.cid fun n => { n with copies := n.copies + 1 }
      .done ((s.writeS c d (mkVal .n64 h.toNat)).recordS c (mkVal .n64 h.toNat))

/-- The landing register of a word with L set. -/
def landField (b : BitVec 5) (l : BitVec 1) : Option (BitVec 5) := if l == 1 then some b else none

/-- The landing that a word with L set names. -/
def landFor (c : Ctx) (l : BitVec 1) (h : EngHead) : CmdLand := if l == 1 then landOf c h.sb.bits.toNat else {}

/-! ### FCOPY, FGATH, FSCAT (R293-R298) -/

/-- The bounds of the addresses that strides reach, with an element's bytes. -/
def boxRange (base : Nat) (axes : List (Nat × Int)) (e : Nat) : Int × Int :=
  let r := boxBounds axes
  ((base : Int) + r.1, (base : Int) + r.2 + e)

/-- FCOPY (R293-R295). -/
def bodyFcopy (d a b : BitVec 5) (l : BitVec 1) (c : Ctx) (s : State) : WordResult :=
  match s.engHead c a (landField b l) 64 true with
  | .error t => .trap t
  | .ok h => match h.desc with
    | none => .trap (c.engBounds h.addr.toNat)
    | some ds =>
      let x := copyDesc ds
      let al := min (2 ^ min x.esize 8) 16
      let land := landFor c l h
      let sr := boxRange x.src x.srcAxes x.bytes
      let dr := boxRange x.dst x.dstAxes x.bytes
      let hid : Option (Bool × DWord) := if x.berth then s.berthHidden c dr.1 dr.2 else none
      let base : Option (Bool × DWord) := hid.map fun h => (h.1, h.2 + BitVec.ofInt 64 ((x.dst : Int) - dr.1))
      let virt := !x.dstSpad && !(x.berth && (hid.map fun h : Bool × DWord => h.1) != some true)
      let shift : Int := if x.berth then ((base.map fun h : Bool × DWord => h.2).getD 0).toInt - x.dst else 0
      let leaves := !x.declass && virt && s.leavesWorld c (BitVec.ofInt 64 (dr.1 + shift)).toNat (dr.2 - dr.1).toNat
        && !boxAll (fun y => !s.leavesWorld c (BitVec.ofInt 64 (y + shift)).toNat x.bytes) x.dstAxes x.dst
      match firstTrap [
          c.engAlign (x.src % al != 0 || x.dst % al != 0
            || x.dims.any fun y => y.src % (al : Int) != 0 || y.dst % (al : Int) != 0) x.src,
          if copyValid ds then none else some (c.engBounds h.addr.toNat),
          c.spadTrap x.srcSpad sr.1 sr.2, c.spadTrap x.dstSpad dr.1 dr.2,
          if x.berth && hid.isNone then some (c.fail .bounds c.active 5 0 (BitVec.ofInt 64 dr.1)) else none,
          c.landTrap land false,
          c.segTrap x.dstSpad dr.1, c.landTrap land true, c.worldTrap leaves x.dst] with
      | some t => .trap t
      | none => s.engIssue c d land false {
          op := .fcopy, crew := 0, block := 0, handle := 0, desc := ds, berthBase := base, total := x.bytes * x.elems }

/-- FGATH and FSCAT (R297, R298); whether an element of an indexed side leaves the world is decided when its index is read. -/
def engGather (scat : Bool) (d a b : BitVec 5) (l : BitVec 1) (c : Ctx) (s : State) : WordResult :=
  match s.engHead c a (landField b l) 64 true with
  | .error t => .trap t
  | .ok h => match h.desc with
    | none => .trap (c.engBounds h.addr.toNat)
    | some ds =>
      let x := gathDesc ds
      let al := min (2 ^ min x.esize 8) 16
      let land := landFor c l h
      let n := x.count * x.bytes
      let hid : Option (Bool × DWord) := if x.berth then s.berthHidden c x.list (x.list + n) else none
      let virt := !x.listSpad && !(x.berth && (hid.map fun h : Bool × DWord => h.1) != some true)
      let dst := if x.berth then ((hid.map fun h : Bool × DWord => h.2).getD 0).toNat else x.list
      let idx := s.crewBytes c.crew c.crew.nextOp (.spad c.blk.id c.crew.side x.idx) (x.count * x.idxBytes)
      let target (k : Nat) : Int :=
        let v := leAt idx (k * x.idxBytes) x.idxBytes
        (x.table : Int) + (if x.wide then signedOf 64 v else (v : Int)) * x.iscale
      let leaves := !x.declass && (
        if scat then !x.tableSpad && (List.range x.count).any fun k => s.leavesWorld c (BitVec.ofInt 64 (target k)).toNat x.bytes
        else virt && s.leavesWorld c dst n)
      match firstTrap [
          c.engAlign (x.table % al != 0 || x.list % al != 0 || x.iscale % al != 0 || x.idx % x.idxBytes != 0) x.table,
          if gathValid ds scat then none else some (c.engBounds h.addr.toNat),
          c.spadTrap true x.idx (x.idx + x.count * x.idxBytes), c.spadTrap x.listSpad x.list (x.list + n),
          if x.berth && hid.isNone then some (c.engBounds x.list) else none,
          c.landTrap land false,
          c.segTrap (x.listSpad && !scat) x.list,
          (List.range (if scat && x.tableSpad then x.count else 0)).findSome? fun k => c.segTrap (0 ≤ target k) (target k),
          c.landTrap land true, c.worldTrap leaves dst] with
      | some t => .trap t
      | none => s.engIssue c d land false {
          op := if scat then .fscat else .fgath, crew := 0, block := 0, handle := 0, desc := ds, berthBase := hid, total := n }

/-- FGATH (R297). -/
def bodyFgath (d a b : BitVec 5) (l : BitVec 1) (c : Ctx) (s : State) : WordResult := engGather false d a b l c s

/-- FSCAT (R297). -/
def bodyFscat (d a b : BitVec 5) (l : BitVec 1) (c : Ctx) (s : State) : WordResult := engGather true d a b l c s

/-! ### FATOM (R299) -/

/-- FATOM (R299). -/
def bodyFatom (d a b : BitVec 5) (l : BitVec 1) (c : Ctx) (s : State) : WordResult :=
  match s.engHead c a (landField b l) 32 true with
  | .error t => .trap t
  | .ok h => match h.desc with
    | none => .trap (c.engBounds h.addr.toNat)
    | some ds =>
      let x := fatomDesc ds
      let land := landFor c l h
      match firstTrap [
          c.engAlign (x.addr % x.size != 0 || (x.res.getD 0) % 8 != 0) x.addr,
          if fatomValid ds then none else some (c.engBounds h.addr.toNat),
          c.spadTrap x.res.isSome (x.res.getD 0) (x.res.getD 0 + 8),
          c.landTrap land false,
          if x.op.takes x.size x.tag then none else some (c.fail .tag c.active 5 x.tag.code),
          c.segTrap x.res.isSome (x.res.getD 0), c.landTrap land true,
          c.worldTrap (s.leavesGlobal c x.addr x.size) x.addr,
          if x.op == .fadd && c.record.strict then some (c.fail .ndet c.active) else none] with
      | some t => .trap t
      | none => s.engIssue c d land true { op := .fatom, crew := 0, block := 0, handle := 0, desc := ds, total := 8 }

/-! ### FPUT, FPUTS, FGET (R302-R304) -/

/-- The context of the word's launch. -/
def State.contextOf (s : State) (lid : Nat) : Option Context := (tget s.launches lid).bind fun l => tget s.contexts l.ctx

/-- The roster entry of a usable rank (R302). -/
def State.rankOf (s : State) (lid rank : Nat) : Option RosterEntry :=
  ((s.contextOf lid).bind fun x => x.roster[rank]?).filter (·.usable)

/-- PROT for a rank beyond the roster or unusable (R302, R416). -/
def State.rankTrap (s : State) (c : Ctx) (rank : Nat) : Option TrapInfo :=
  if (s.rankOf c.crew.launch rank).isSome then none else some (c.fail .prot c.active 6 4)

/-- Whether a write to a peer leaves a protected world: neither DECLASS nor a peer under the same tenant key (R416). -/
def State.leavesToPeer (s : State) (c : Ctx) (rank : Nat) (declass : Bool) : Bool :=
  c.record.key ≠ 0 && !declass && !(((s.rankOf c.crew.launch rank).map (·.sameKey)).getD false)

/-- FPUT, FPUTS and FGET (R303). -/
def engPut (op : EngOp) (d a b : BitVec 5) (l : BitVec 1) (c : Ctx) (s : State) : WordResult :=
  match s.engHead c a (landField b l) 64 true with
  | .error t => .trap t
  | .ok h => match h.desc with
    | none => .trap (c.engBounds h.addr.toNat)
    | some ds =>
      let x := putDesc ds
      let get := op == .fget
      let land := landFor c l h
      let leaves := if get then !x.spad && !x.declass && s.leavesWorld c x.loc x.bytes else s.leavesToPeer c x.rank x.declass
      match firstTrap [
          c.engAlign (x.loc % 16 != 0 || x.remote % 16 != 0 || (x.rl && x.rland / 2 % 8 != 0)) x.loc,
          if putValid ds (op == .fputs) then none else some (c.engBounds h.addr.toNat),
          c.spadTrap x.spad x.loc (x.loc + x.bytes),
          c.landTrap land false,
          c.segTrap (x.spad && get) x.loc, c.landTrap land true, s.rankTrap c x.rank,
          c.worldTrap leaves (if get then x.loc else x.remote)] with
      | some t => .trap t
      | none => s.engIssue c d land (!get) { op := op, crew := 0, block := 0, handle := 0, desc := ds, total := x.bytes }

/-- FPUT (R303, R304). -/
def bodyFput (d a b : BitVec 5) (l : BitVec 1) (c : Ctx) (s : State) : WordResult := engPut .fput d a b l c s

/-- FPUTS (R303, R304). -/
def bodyFputs (d a b : BitVec 5) (l : BitVec 1) (c : Ctx) (s : State) : WordResult := engPut .fputs d a b l c s

/-- FGET (R303, R304). -/
def bodyFget (d a b : BitVec 5) (l : BitVec 1) (c : Ctx) (s : State) : WordResult := engPut .fget d a b l c s

/-! ### COLL (R305) -/

/-- The number that the context's next collective on a group takes (R306). -/
def State.collNumber (s : State) (ctx first count stride : Nat) : Nat :=
  ((s.collCount.find? fun x => x.1 == ctx && x.2.1 == first && x.2.2.1 == count && x.2.2.2.1 == stride).map (·.2.2.2.2)).getD 0

/-- One collective more of a context on a group (R306). -/
def State.collNext (s : State) (ctx first count stride : Nat) : State :=
  let n := s.collNumber ctx first count stride
  { s with collCount := (s.collCount.filter fun x => !(x.1 == ctx && x.2.1 == first && x.2.2.1 == count && x.2.2.2.1 == stride))
      ++ [(ctx, first, count, stride, n + 1)] }

/-- COLL (R305); the command's place in the order of its group is the number it takes here (R306). -/
def engColl (op : EngOp) (d a b : BitVec 5) (l : BitVec 1) (c : Ctx) (s : State) : WordResult :=
  match s.engHead c a (landField b l) 64 true with
  | .error t => .trap t
  | .ok h => match h.desc with
    | none => .trap (c.engBounds h.addr.toNat)
    | some ds =>
      let x := collDesc ds
      let e := collBytes x.etype
      let land := landFor c l h
      let ctx := s.contextOf c.crew.launch
      let roster := (ctx.map fun k => k.roster.length).getD 0
      let own := (ctx.map (·.own)).getD 0
      let z := collSizes op x own
      let inRoster := x.ranks.all (· < roster) && x.ranks.contains own && (op != .collBcast || x.ranks.contains x.root)
      let leaves := op != .collCbar && (
        (!x.recvSpad && !x.declass && (tget s.launches c.crew.launch).any fun l => s.worldLeft l [] x.recv z.2)
        || x.ranks.any fun r => r != own && s.leavesToPeer c r x.declass)
      let cid := (ctx.map (·.ctx)).getD 0
      match firstTrap [
          c.engAlign (op != .collCbar && (x.send % e != 0 || x.recv % e != 0)) x.send,
          if collValid ds op then none else some (c.engBounds h.addr.toNat),
          c.spadTrap (x.sendSpad && z.1 != 0) x.send (x.send + z.1), c.spadTrap (x.recvSpad && op != .collCbar) x.recv (x.recv + z.2),
          if inRoster then none else some (c.engBounds h.addr.toNat),
          c.landTrap land false,
          c.segTrap (x.recvSpad && op != .collCbar) x.recv, c.landTrap land true,
          (x.ranks.find? fun r => (s.rankOf c.crew.launch r).isNone).bind (s.rankTrap c), c.worldTrap leaves x.recv] with
      | some t => .trap t
      | none =>
        let r := s.engIssue c d land true {
          op := op, crew := 0, block := 0, handle := 0, desc := ds, total := z.2
          recordOff := s.collNumber cid x.first x.members x.stride }
        match r with
        | .done s => .done (s.collNext cid x.first x.members x.stride)
        | r => r

/-- COLL.ALLRED (R305, R307). -/
def bodyCollAllred (d a b : BitVec 5) (l : BitVec 1) (c : Ctx) (s : State) : WordResult := engColl .collAllred d a b l c s

/-- COLL.ALLGATH (R305, R307). -/
def bodyCollAllgath (d a b : BitVec 5) (l : BitVec 1) (c : Ctx) (s : State) : WordResult := engColl .collAllgath d a b l c s

/-- COLL.REDSCAT (R305, R307). -/
def bodyCollRedscat (d a b : BitVec 5) (l : BitVec 1) (c : Ctx) (s : State) : WordResult := engColl .collRedscat d a b l c s

/-- COLL.BCAST (R305, R307). -/
def bodyCollBcast (d a b : BitVec 5) (l : BitVec 1) (c : Ctx) (s : State) : WordResult := engColl .collBcast d a b l c s

/-- COLL.CBAR (R305, R308). -/
def bodyCollCbar (d a b : BitVec 5) (l : BitVec 1) (c : Ctx) (s : State) : WordResult := engColl .collCbar d a b l c s

/-! ### NMC, FPREF, FCANCEL (R309, R310, R314, R315) -/

/-- NMC (R309, R310). -/
def bodyNmc (d a b : BitVec 5) (c : Ctx) (s : State) : WordResult :=
  match s.engHead c a (some b) 32 false with
  | .error t => .trap t
  | .ok h => match h.desc with
    | none => .trap (c.engBounds h.addr.toNat)
    | some ds =>
      let x := nmcDesc ds
      let e := x.bytes
      let rec' := h.sb.toAddress.toNat
      let land : CmdLand := if x.lp then landOf c x.land else {}
      match firstTrap [
          c.engAlign (x.dst % e != 0 || (x.reads.1 && x.s1 % e != 0) || (x.reads.2 && x.s2 % e != 0)) x.dst,
          c.engAlign (rec' % 16 != 0) rec',
          c.engAlign (x.lp && x.land / 2 % 8 != 0) (x.land / 16 * 16),
          if nmcValid ds then none else some (c.engBounds h.addr.toNat),
          c.spadTrap true rec' (rec' + 16),
          c.landTrap land false,
          c.segTrap true rec', c.landTrap land true,
          c.worldTrap (s.leavesGlobal c x.granule 65536) x.dst] with
      | some t => .trap t
      | none => s.engIssue c d land true { op := .nmc, crew := 0, block := 0, handle := 0, desc := ds, recordOff := rec' }

/-- The sectors that the protected ways of a slice hold at most: 3 MB a way (R274, R418). -/
def State.wayRoom (s : State) (slice : Nat) : Nat := (s.slice slice).pways * 12288

/-- The sectors of a range that lie in a launch's own global windows and are mapped, in the order of the windows and pages. -/
def State.ownSectors (s : State) (lid va n room : Nat) : List Nat :=
  let wins := ((s.handle? (s.recordOf lid).key).map fun k : KeyHandle => k.gwin).getD []
  let pages := (((tget s.partitions (s.pidOf lid)).map fun p : Partition => p.pages).getD []).filter fun g => !g.vault
  (wins.flatMap fun w => pages.flatMap fun g =>
    let lo := max va (max w.1 g.va)
    let hi := min (va + n) (min (w.1 + w.2) (g.va + g.size))
    if lo < hi then (List.range (min room ((hi - 1) / 256 - lo / 256 + 1))).map (lo / 256 + ·) else []).take room

/-- A global range brought into the slice L2 for a launch: of the lines there the model holds those in protected ways, so sectors of the launch's own windows are
filled, as many as the ways hold (R314, R419). What does not translate is skipped. -/
def State.prefetch (s : State) (core lid va n : Nat) : State :=
  (s.ownSectors lid va n (s.wayRoom (core / 32))).foldl (fun s k =>
    match s.xlate (s.pidOf lid) (256 * k) false with
    | .ok (false, pa) => s.fillProtected (core / 32) (s.pidOf lid) (pa / 256) (s.ownSeal lid (256 * k) 256)
    | _ => s) s

/-- FPREF: a hint to the L2, which changes no value (R272-R274, R314). -/
def bodyFpref (a b : BitVec 5) (_ : BitVec 2) (c : Ctx) (s : State) : WordResult :=
  match c.addressCheck [(2, c.getS a, Tag.isInt), (3, c.getS b, Tag.isInt)] with
  | some t => .trap t
  | none => .done (s.prefetch c.crew.core c.crew.launch (c.getS a).toAddress.toNat (c.getS b).bits.toNat)

end Sys2Proof.Machine
end

