-- ==== Sys2Proof/Machine/Ferry.lean ====
section
/-! DEFINITION. The running of engine commands on this device: what an engine reads and writes with its checks and marks (R288-R292, R419-R422), parts of a transfer (R295-R298), the end of a command (R284, R288, R289), FATOM (R300, R301), NMC (R311-R313), FCANCEL (R315) and the fault queue (R408, R409). -/

namespace Sys2Proof.Machine

/-! ### Places of engine accesses -/

/-- An address that an engine command uses: virtual in a partition's space, the issuer's or that of a peer's context (R303), or a scratchpad offset of the issuing block's side. -/
inductive EngAddr where
  | virt (peer : Option Nat) (pid : Nat) (a : DWord)
  | spad (a : Int)
  deriving DecidableEq, Repr

/-- Why a command cannot go on at an address: it pauses there, or the fault is unresolvable (R288, R298, R422), or a slice's firewall refuses it (R430). -/
inductive EngStop where
  | pause (a : DWord) (write peer : Bool)
  | dead (a : DWord)
  | refused (a : DWord) (target : Nat)
  deriving DecidableEq, Repr

/-- Where an engine access falls: global memory of a partition, with the seal of the world whose window it lies in, or on chip. -/
inductive EngPlace where
  | glob (pid pa : Nat) (opens : Option Seal)
  | chip (pl : Place)
  deriving DecidableEq, Repr

/-- The windows of live handles that a range of a partition meets, and whether the launch is inside: none when the range meets a foreign
window (R422); else the seal that opens the range. A window of the peer's own context is open to a command whose launch runs under the same tenant key (R416). -/
def State.worldAt (s : State) (lid pid : Nat) (peer : Option Nat) (a n : Nat) : Option (Option Seal) :=
  let h := (s.recordOf lid).key
  let met := s.harbour.handles.filter fun p => p.2.live && p.2.pid == pid && (meetsWindows p.2.gwin a n || meetsWindows p.2.vwin a n)
  let mine (p : Nat × KeyHandle) : Bool := match peer with
    | none => handleWord p.1 p.2 == h && h != 0
    | some ctx => p.2.ctx == ctx % 2 ^ 32 && ((s.handle? h).map fun k : KeyHandle => k.key) == some p.2.key
  if met.all mine then
    some ((met.find? fun p => inWindows p.2.gwin a n).map fun p => sealOf p.1 p.2)
  else none

/-- The core on whose Ferry a command runs. -/
def State.cmdCore (s : State) (c : FerryCmd) : Nat := ((tget s.blocks c.block).map fun b : Block => (b.side c.side).core).getD 0

/-- The slice that an engine access enters: a vault's own, or the home of a granule (R432). -/
def State.enteredSlice (s : State) (pid : Nat) : Bool × Nat → Nat
  | (true, pa) => vaultSlice pa
  | (false, pa) => s.homeSlice pid pa

/-- The place of an engine access of n bytes (R288, R298, R422, R430): the access carries the partition of the command. -/
def State.engPlace (s : State) (c : FerryCmd) (lid : Nat) (x : EngAddr) (n : Nat) (write : Bool) : Except EngStop EngPlace :=
  match x with
  | .spad a =>
    match tget s.blocks c.block with
    | none => .error (.dead (BitVec.ofInt 64 a))
    | some b =>
      if 0 ≤ a && a + n ≤ (b.spadSize : Int) && !(write && b.inSegment a.toNat) then .ok (.chip (.spad b.id c.side a.toNat))
      else .error (.dead (BitVec.ofInt 64 a))
  | .virt peer pid a =>
    match s.worldAt lid pid peer a.toNat n with
    | none => .error (.dead a)
    | some opens => match s.xlate pid a.toNat write with
      | .error _ => .error (.pause a write peer.isSome)
      | .ok q =>
        let target := s.enteredSlice pid q
        if s.firewallOk (s.cmdCore c / 32) target (s.pidOf lid) then
          .ok (if q.1 then .chip (.vault q.2) else .glob pid q.2 opens)
        else .error (.refused a target)

/-! ### Reads with their checks (R290, R421, R460) -/

/-- What one read finds wrong: the record's TYPE and INFO (R456). -/
abbrev EngBad := Nat × DWord

/-- The INFO of a sector check mismatch: the check found and the check expected (R456). -/
def mismatchInfo (found expected : Word) : DWord := BitVec.ofNat 64 (found.toNat + expected.toNat * 2 ^ 32)

/-- What the read of a sector finds wrong (R290, R292, R421). -/
def GlobalMem.badAt (g : GlobalMem) (k : Nat) (opens : Option Seal) : Option EngBad :=
  if g.uncorr.contains k || g.poison.contains k then some (1, BitVec.ofNat 64 (g.errCode k))
  else
    let tagFails := match tget g.sealed k, opens with
      | some _, some o => !g.verifies k o
      | _, _ => false
    if tagFails then some (3, 0)
    else match tget g.badCheck k with
      | none => none
      | some c => some (2, mismatchInfo (crc32c (readBytes g.mem (256 * k) 256)) c)

/-- What an engine read delivers: bytes, whether they are poisoned, and what was found wrong. -/
structure EngRead where
  bytes : List Byte
  poison : Bool := false
  bad : Option EngBad := none

/-- The TYPE of a bad check on chip with what it holds (R201, R290). -/
def Store.badAt (st : Store) (a n : Nat) : Option EngBad :=
  (sectorsOf a n).findSome? fun k => match tget st.checks k with
    | none => none
    | some c =>
      let f := crc32c (st.bytes (256 * k) 256)
      if c == f then none else some (2, mismatchInfo f c)

/-! Agents: a core number below 512 stands for that core's Ferry and Pilot, 512 + slice for the slice's fabric port (log 39), 528 + slice for the slice's
near-memory engines. -/

/-- The agent that a slice's port is. -/
def portCore (slice : Nat) : Nat := 512 + slice

/-- The agent that a slice's near-memory engines are. -/
def nearAgent (slice : Nat) : Nat := 528 + slice

/-- The slice of an agent. -/
def agentSlice (agent : Nat) : Nat := if agent < 512 then agent / 32 else (agent - 512) % 16

/-- Whether an agent belongs to the partition scope: the others see what an L2 holds changed only when it has reached the memory-side cache (R316, R331, R334). -/
def agentInside (agent : Nat) : Bool := agent < 512

/-- One engine read by an agent within one sector. A near-memory engine opens a world's sector in its own base die (R421). -/
def State.engRead (s : State) (agent : Nat) (pl : EngPlace) (n : Nat) : EngRead × State :=
  match pl with
  | .glob pid pa opens =>
    let k := pa / 256
    match tget s.partitions pid with
    | none => ({ bytes := List.replicate n 0 }, s)
    | some p =>
      let bad := p.gm.badAt k opens
      let s := (s.modPartition pid fun p => { p with gm := p.gm.detect k }).correctSector pid k
      let g := if agentInside agent then p.gm else p.gm.outer k
      ({ bytes := ((g.view k opens).drop (pa % 256)).take n, poison := bad.isSome, bad := bad },
        if agent < 528 then s.fillProtected (agentSlice agent) pid k opens else s)
  | .chip (.vault pa) =>
    let bad := s.vault.badAt pa n
    if agentInside agent then ({ bytes := s.vaultBytes agent pa n, poison := bad.isSome || s.corePoisoned agent (.vault pa) n, bad := bad }, s)
    else ({ bytes := s.vault.bytes pa n, poison := bad.isSome || s.vault.poisoned pa n, bad := bad }, s)
  | .chip (.spad b side off) =>
    match tget s.blocks b with
    | none => ({ bytes := List.replicate n 0 }, s)
    | some bl =>
      let bad := (s.spadStore bl side off).badAt off n
      ({ bytes := s.spadBytes bl side off n, poison := bad.isSome || s.spadPoisoned bl side off n, bad := bad }, s)

/-! ### Writes with their marks (R291, R292, R420) -/

/-- Bytes that a near-memory engine writes into the memory-side cache: what an L2 holds changed of their granules has not reached it yet (R334, log 56). -/
def GlobalMem.nearBehind (g : GlobalMem) (a : Nat) (bs : List Byte) : GlobalMem :=
  { g with behind := g.behind.map fun x => (x.1, overlayAt (32 * x.1) x.2 (a, bs)) }

/-- One engine write by an agent: a core's engine writes into the L2, the others into the memory-side cache (R331, R334); a write into vault follows the stores
that its core's crews see before it (R318, R329). -/
def State.engWrite (s : State) (agent : Nat) (pl : EngPlace) (bs : List Byte) (poison : Bool) : State :=
  match pl with
  | .glob pid pa opens =>
    let s := s.modPartition pid fun p =>
      let g := if agentInside agent then p.gm.keepBehind pa bs.length else if agent < 528 then p.gm.settleBehind pa bs.length else p.gm.nearBehind pa bs
      { p with gm := g.engWrite pa bs opens poison }
    if agent < 528 then s.fillProtected (agentSlice agent) pid (pa / 256) opens else s
  | .chip pl =>
    let s := match pl with
      | .vault pa => if agentInside agent then s.flushVault agent pa bs.length else s
      | .spad _ _ _ => s
    let s := s.placeWrite pl bs
    if !poison then s
    else match pl with
      | .vault pa => { s with vault := s.vault.markPoison (granulesOf pa bs.length) }
      | .spad b side off => s.modSpad b side off fun st => st.markPoison (granulesOf off bs.length)

/-- The offset of a place in its memory. -/
def EngPlace.start : EngPlace → Nat
  | .glob _ a _ => a
  | .chip x => x.start

/-- The place n bytes on. -/
def EngPlace.plus (p : EngPlace) (n : Nat) : EngPlace :=
  match p with
  | .glob pid a o => .glob pid (a + n) o
  | .chip x => .chip (x.moved (x.start + n))

/-- A range written at a place. -/
def EngPlace.written (p : EngPlace) (n : Nat) : Written :=
  match p with
  | .glob pid a _ => { kind := 0, owner := pid, side := 0, start := a, len := n }
  | .chip (.vault a) => { kind := 1, owner := 0, side := 0, start := a, len := n }
  | .chip (.spad b side a) => { kind := 2, owner := b, side := side, start := a, len := n }

/-- Whether two ranges lie in one memory. -/
def Written.same (w v : Written) : Bool := w.kind == v.kind && w.owner == v.owner && w.side == v.side

/-- A range put before others: it goes on the last one where it follows it. -/
def joinRange (ws : List Written) (v : Written) : List Written :=
  match ws with
  | w :: rest => if w.same v && w.bad == v.bad && w.start + w.len == v.start then { w with len := w.len + v.len } :: rest else v :: w :: rest
  | [] => [v]

/-- The part of a memory that a write from poisoned data marks: its sectors in global memory, its granules on chip (R290, R292). -/
def Written.marked (v : Written) : Nat × Nat :=
  let u := if v.kind = 0 then 256 else 16
  (v.start / u * u, (v.start + v.len + u - 1) / u * u - v.start / u * u)

/-- Ranges without what a later write from poisoned data has marked. -/
def cutMarked (ws : List Written) (v : Written) : List Written :=
  if !v.bad then ws
  else ws.flatMap fun w =>
    if w.bad || !w.same v then [w] else (rangesCut [(w.start, w.len)] v.marked.1 v.marked.2).map fun r => { w with start := r.1, len := r.2 }

/-- Ranges written, with one more; one from poisoned data takes what it marks out of those written clean. -/
def addRange (ws : List Written) (p : EngPlace) (n : Nat) (bad : Bool := false) : List Written :=
  let v := { p.written n with bad := bad }
  joinRange (cutMarked ws v) v

/-- Whether the ranges cover unit k of u bytes of the memory of w. -/
def coveredBy (ws : List Written) (w : Written) (u k : Nat) : Bool :=
  let ws := ws.filter w.same
  (List.range u).all fun i => ws.any fun v => v.start ≤ u * k + i && u * k + i < v.start + v.len

/-- The units of u bytes that a range covers whole, alone or at its ends with the other ranges. -/
def Written.units (w : Written) (ws : List Written) (u : Nat) : List Nat :=
  let whole (k : Nat) : Bool := w.start ≤ u * k && u * k + u ≤ w.start + w.len
  let ends := [w.start / u, (w.start + w.len - 1) / u].eraseDups.filter fun k => !whole k && coveredBy ws w u k
  ((List.range (w.len / u + 1)).map (· + w.start / u)).filter whole ++ ends

/-- What a range written leaves where it and the other ranges of its transfer cover sectors whole: on chip their checks are valid, and the marks of what was written
from clean data are gone (R291, R292). -/
def State.sealRange (s : State) (ws : List Written) (w : Written) : State :=
  let clean (u : Nat) : List Nat := if w.bad then [] else w.units (ws.filter fun v => !v.bad) u
  let ks := clean 256
  let fresh (st : Store) : Store :=
    (w.units ws 256).foldl Store.setCheck (st.fresh (clean 16).contains)
  match w.kind with
  | 0 => s.modPartition w.owner fun p => { p with gm := { p.gm with
      poison := ndrop p.gm.poison ks.contains, uncorr := ndrop p.gm.uncorr ks.contains
      broken := p.gm.broken.filter fun x => !ks.contains x.1, corr := ndrop p.gm.corr ks.contains } }
  | 1 => { s with vault := fresh s.vault }
  | _ => s.modSpad w.owner w.side w.start fresh

/-- What is left of a range for sectors that its transfer has not yet covered whole. -/
def Written.rest (w : Written) (ws : List Written) : List Written :=
  let ks := [w.start / 256, (w.start + w.len - 1) / 256].eraseDups.filter fun k => !coveredBy ws w 256 k
  ks.map fun k =>
    let a := max w.start (256 * k)
    { w with start := a, len := min (w.start + w.len) (256 * k + 256) - a }

/-- The ranges of one part and what earlier parts of the same transfer left: sectors now whole are sealed, and the other ranges stay (R291, R292). -/
def State.sealAll (s : State) (before now : List Written) : State × List Written :=
  let ws := now.reverse ++ now.foldl cutMarked before
  (now.foldl (fun s w => s.sealRange ws w) s, ws.flatMap fun w => w.rest ws)

/-! ### Addresses of the chunks of a transfer (R295, R298, R304) -/

/-- The launch of a command's crew. -/
def State.launchOf (s : State) (cid : Nat) : Nat := ((tget s.crews cid).map fun w : Crew => w.launch).getD 0

/-- The context of a launch id. -/
def State.ctxOfLaunch (s : State) (lid : Nat) : Nat := ((tget s.launches lid).map fun l : Launch => l.ctx).getD 0

/-- An address of a command in its own space: scratchpad or virtual. -/
def ownAddr (spad : Bool) (pid : Nat) (a : Int) : EngAddr := if spad then .spad a else .virt none pid (BitVec.ofInt 64 a)

/-- The greatest number of bytes that a command moves as one: the smaller of an element and 16. -/
def FerryCmd.unit (c : FerryCmd) : Nat :=
  match c.op with
  | .fcopy => min (copyDesc c.desc).bytes 16
  | .fgath => min (gathDesc c.desc).bytes 16
  | .fscat => min (gathDesc c.desc).bytes 16
  | _ => 16

/-- Where a destination address of a command with a berth destination falls: the hidden side that was fixed at issue (R258). -/
def FerryCmd.berthAddr (c : FerryCmd) (pid : Nat) (off : Int) : EngAddr :=
  match c.berthBase with
  | some (vault, base) => if vault then .virt none pid (base + BitVec.ofInt 64 off) else .spad (base.toNat + off)
  | none => .spad (-1)

/-- Index n of a gather or scatter, as it is read now (R298). -/
def State.indexOf (s : State) (c : FerryCmd) (n : Nat) : Int :=
  let d := gathDesc c.desc
  let v := natOfBytes (s.homeBytes (.spad c.block c.side (d.idx + n * d.idxBytes)) d.idxBytes)
  if d.wide then signedOf 64 v else v

/-- The address of a chunk on the indexed side and on the contiguous side (R298). -/
def State.gathAddrs (s : State) (c : FerryCmd) (pid u : Nat) : EngAddr × EngAddr :=
  let d := gathDesc c.desc
  let per := d.bytes / c.unit
  let n := u / per
  let off := u % per * c.unit
  let table := ownAddr d.tableSpad pid ((d.table : Int) + s.indexOf c n * d.iscale + off)
  let l : Int := n * d.bytes + off
  (table, if d.berth then c.berthAddr pid l else ownAddr d.listSpad pid (d.list + l))

/-- The context that a rank of a command's launch names (R302). -/
def State.peerOf (s : State) (lid rank : Nat) : Option RosterEntry := (s.contextOf lid).bind fun x => x.roster[rank]?

/-- The partition of a peer context on this device. -/
def State.peerPid (s : State) (e : RosterEntry) : Option Nat :=
  if e.node = s.node then (tget s.contexts e.ctx).map fun x : Context => x.pid else none

/-- The place of chunk u of a put's or get's local side. -/
def FerryCmd.localAddr (c : FerryCmd) (pid u : Nat) : EngAddr := ownAddr (putDesc c.desc).spad pid (((putDesc c.desc).loc : Int) + 16 * u)

/-- The source and destination of chunk u of a command; none where the peer's context has ended or is on another device. -/
def State.chunkAddrs (s : State) (c : FerryCmd) (lid pid u : Nat) : Option (EngAddr × EngAddr) :=
  match c.op with
  | .fcopy =>
    let d := copyDesc c.desc
    let per := d.bytes / c.unit
    let n := u / per
    let off : Int := (u % per * c.unit : Nat)
    let dst := digitOffset d.dstAxes n + off
    some (ownAddr d.srcSpad pid (d.src + digitOffset d.srcAxes n + off),
      if d.berth then c.berthAddr pid dst else ownAddr d.dstSpad pid (d.dst + dst))
  | .fgath => some (s.gathAddrs c pid u)
  | .fscat => some ((s.gathAddrs c pid u).2, (s.gathAddrs c pid u).1)
  | _ =>
    let d := putDesc c.desc
    let loc := c.localAddr pid u
    match (s.peerOf lid d.rank).bind fun e => (s.peerPid e).map fun p => (e, p) with
    | none => none
    | some (e, p) =>
      let rem : EngAddr := .virt (some e.ctx) p (BitVec.ofNat 64 (d.remote + 16 * u))
      some (if c.op == .fget then (rem, loc) else (loc, rem))

/-- The destination of chunk u of a command that FCANCEL may stop; none where it cannot be named. -/
def State.chunkDst (s : State) (c : FerryCmd) (lid pid u : Nat) : Option EngAddr :=
  if c.op == .fget then some (c.localAddr pid u) else (s.chunkAddrs c lid pid u).map (·.2)

/-- Whether n bytes at one engine address meet m bytes at another. -/
def EngAddr.meets (x : EngAddr) (n : Nat) (y : EngAddr) (m : Nat) : Bool :=
  match x, y with
  | .spad a, .spad b => decide (a < b + m) && decide (b < a + n)
  | .virt _ p a, .virt _ q b => p == q && rangesMeet a.toNat n b.toNat m
  | _, _ => false

/-- The address of an engine access moved. -/
def EngAddr.plus (x : EngAddr) (d : Int) : EngAddr :=
  match x with
  | .spad a => .spad (a + d)
  | .virt f p a => .virt f p (a + BitVec.ofInt 64 d)

/-- Whether a range meets an element that strides reach from a base: the axes' boxes first, then each position of the outermost axis. -/
def boxMeets (x : EngAddr) (n e : Nat) : List (Nat × Int) → EngAddr → Bool
  | [], y => y.meets e x n
  | (k, st) :: rest, y =>
    let r := boxBounds ((k, st) :: rest)
    (y.plus r.1).meets ((r.2 - r.1).toNat + e) x n && (List.range k).any fun i => boxMeets x n e rest (y.plus (i * st))

/-- Whether the bytes that a chunk reads lie where the command writes, so that what it reads is undefined (R296; for other commands the spec states nothing, log 8). -/
def State.chunkOverlaps (s : State) (c : FerryCmd) (lid pid : Nat) (src : EngAddr) : Bool :=
  match c.op with
  | .fcopy =>
    let d := copyDesc c.desc
    boxMeets src c.unit d.bytes d.dstAxes.reverse (if d.berth then c.berthAddr pid 0 else ownAddr d.dstSpad pid d.dst)
  | .fgath => ((s.gathAddrs c pid 0).2).meets c.total src c.unit
  | .fscat => (List.range (c.total / c.unit)).any fun u => ((s.gathAddrs c pid u).1).meets c.unit src c.unit
  | _ => match s.chunkAddrs c lid pid 0 with
    | some (_, dst) => dst.meets c.total src c.unit
    | none => false

/-! ### Parts of a transfer (R288, R290, R295) -/

/-- What a part has done so far: the state, the chunks moved, the ranges written, the sectors already reported, the first bad read, and why it stopped. -/
structure EngAcc where
  st : State
  moved : Nat := 0
  clean : List Written := []
  seen : List (EngPlace × Nat) := []
  bad : Option (DWord × Bool) := none
  stop : Option EngStop := none
  /-- the granule of global memory read last: partition, granule, bytes, poisoned (R324) -/
  ahead : Option (Nat × Nat × List Byte × Bool) := none

/-- The virtual or scratchpad address of an engine access, as records and %taddr name it. -/
def EngAddr.addr : EngAddr → DWord
  | .spad a => BitVec.ofInt 64 a
  | .virt _ _ a => a

/-- That address with whether it is a guest virtual one (R455). -/
def EngAddr.named (x : EngAddr) : DWord × Bool :=
  (x.addr, match x with
    | .spad _ => false
    | .virt _ _ _ => true)

/-- The record of a bad read (R290, R456): the sector's address, its home slice or the reading core. -/
def State.reportRead (s : State) (core lid pid : Nat) (x : EngAddr) (pl : EngPlace) (b : EngBad) : State :=
  let l := tget s.launches lid
  let e : ErrRec := {
    type := b.1, aval := true, ctx := (l.map fun l : Launch => l.ctx).getD 0, launch := (l.map fun l : Launch => l.lid).getD 0
    addr := x.addr - BitVec.ofNat 64 (pl.start % 256), info := b.2, slice := core / 32 }
  match pl with
  | .glob p pa _ => s.report [p] { e with slice := s.homeSlice p pa, core := 0xFF } .guest
  | .chip (.vault pa) => s.report [pid] { e with slice := vaultSlice pa, core := pa / 2 ^ 23 % 32 } .guest
  | .chip (.spad _ _ _) => s.report [pid] { e with core := core % 32 }

/-- A read made as part of a command: its record goes out once for each sector of the part (R290). -/
def EngAcc.readNow (a : EngAcc) (core lid pid : Nat) (x : EngAddr) (pl : EngPlace) (n : Nat) : EngRead × EngAcc :=
  let hidden : Bool := match pl with
    | .glob _ _ _ => false
    | .chip q => (granulesOf q.start n).any fun g => (a.st.placeStore (q.moved (16 * g))).uncorr.contains g
  let st := match pl with
    | .glob _ _ _ => a.st
    | .chip q => a.st.detect core (a.st.pidOf lid) lid q n
  let a : EngAcc := { a with st := st, bad := if hidden then a.bad.orElse fun _ => some x.named else a.bad }
  let r := a.st.engRead core pl n
  match r.1.bad with
  | none => (r.1, { a with st := r.2 })
  | some b =>
    let key : EngPlace × Nat := (match pl with
      | .glob p _ _ => .glob p 0 none
      | .chip q => .chip (q.moved 0), pl.start / 256)
    let bad := a.bad.orElse fun _ => some x.named
    if a.seen.contains key then (r.1, { a with st := r.2, bad := bad })
    else (r.1, { a with st := r.2.reportRead core lid pid x pl b, seen := key :: a.seen, bad := bad })

/-- A read as part of a command: a granule of global memory is read whole, and what the command has of it serves its next read there (R324). -/
def EngAcc.read (a : EngAcc) (core lid pid : Nat) (x : EngAddr) (pl : EngPlace) (n : Nat) : EngRead × EngAcc :=
  match pl with
  | .chip _ => a.readNow core lid pid x pl n
  | .glob p pa o =>
    match a.ahead.filter fun h => h.1 == p && h.2.1 == pa / 32 with
    | some h => ({ bytes := (h.2.2.1.drop (pa % 32)).take n, poison := h.2.2.2 }, a)
    | none =>
      let r := a.readNow core lid pid (x.plus (-((pa % 32 : Nat) : Int))) (.glob p (pa / 32 * 32) o) 32
      ({ r.1 with bytes := (r.1.bytes.drop (pa % 32)).take n }, { r.2 with ahead := some (p, pa / 32, r.1.bytes, r.1.poison) })

/-- The read of the index that names element u of a gather or scatter, with its checks (R290, R298); for other commands nothing is read. -/
def EngAcc.index (a : EngAcc) (core lid pid : Nat) (c : FerryCmd) (u : Nat) : Bool × EngAcc :=
  if c.op == .fgath || c.op == .fscat then
    let d := gathDesc c.desc
    let off := d.idx + u / (d.bytes / c.unit) * d.idxBytes
    let r := a.read core lid pid (.spad off) (.chip (.spad c.block c.side off)) d.idxBytes
    (r.1.poison, r.2)
  else (false, a)

/-- Whether an element of a scatter, as its index is read now, leaves the protected world of its launch (R415). -/
def State.scatterLeaves (s : State) (c : FerryCmd) (lid : Nat) (dst : EngAddr) : Bool :=
  c.op == .fscat && !(gathDesc c.desc).declass && match dst, tget s.launches lid, tget s.blocks c.block with
    | .virt _ _ a, some l, some b => s.worldLeft l (declassGlobal l.cargo b.beta ++ declassVault l.cargo b.beta) a.toNat c.unit
    | _, _, _ => false

/-- The MSC granule of global memory that a destination lies in, while it is mapped. -/
def State.farGranule (s : State) (x : EngAddr) : Option (Nat × Nat) :=
  match x with
  | .spad _ => none
  | .virt _ pid a => match s.xlate pid a.toNat true with
    | .ok (false, pa) => some (pid, pa / 32)
    | _ => none

/-- Whether a part may end before chunk u: the chunks on both sides do not write one 32-byte granule of global memory, which is seen whole (R324). -/
def State.cutBefore (s : State) (c : FerryCmd) (lid pid u : Nat) : Bool :=
  match s.chunkDst c lid pid (u - 1), s.chunkDst c lid pid u with
  | some x, some y => (s.farGranule y).isNone || s.farGranule x != s.farGranule y
  | _, _ => true

/-- A write for a peer on this device is visible at system scope when it is counted (R331). -/
def State.settlePlace (s : State) (x : EngAddr) (pl : EngPlace) (n : Nat) : State :=
  match x, pl with
  | .virt (some _) _ _, .glob pid pa _ => s.modPartition pid fun p => { p with gm := p.gm.settleBehind pa n }
  | _, _ => s

/-- One chunk moved. -/
def EngAcc.chunk (a : EngAcc) (core lid pid : Nat) (c : FerryCmd) (u : Nat) : EngAcc :=
  match a.st.chunkAddrs c lid pid u with
  | none => { a with stop := some (.dead 0) }
  | some (src, dst) =>
    match a.st.engPlace c lid src c.unit false with
    | .error e => { a with stop := some e }
    | .ok ps => match a.st.engPlace c lid dst c.unit true with
      | .error e => { a with stop := some e }
      | .ok pd =>
        if a.st.scatterLeaves c lid dst then { a with stop := some (.dead dst.addr) } else
        let ix := a.index core lid pid c u
        let r := ix.2.read core lid pid src ps c.unit
        let bad := r.1.poison || ix.1
        let free := a.st.chunkOverlaps c lid pid src
        let fb := r.2.st.freeBytes c.unit
        let bytes := if free then fb.1 else r.1.bytes
        let a := if free then { r.2 with st := fb.2 } else r.2
        { a with
          st := (a.st.engWrite core pd bytes bad).settlePlace dst pd c.unit, moved := a.moved + 1
          clean := addRange a.clean pd c.unit bad }

/-- Chunks moved in ascending order until the part is done or stops; one that stops leaves no granule of global memory written in part, and the part ends where
it could last end (R324). -/
def EngAcc.chunks (core lid pid : Nat) (c : FerryCmd) : Nat → Nat → EngAcc → EngAcc → EngAcc
  | 0, _, _, a => a
  | n + 1, u, mark, a =>
    let mark := if a.st.cutBefore c lid pid u then a else mark
    let b := a.chunk core lid pid c u
    if b.stop.isSome then { mark with stop := b.stop } else EngAcc.chunks core lid pid c n (u + 1) mark b

/-- A part of n chunks of a command from where it stands. -/
def EngAcc.part (core lid pid : Nat) (c : FerryCmd) (n : Nat) (s : State) : EngAcc :=
  let a : EngAcc := { st := s, ahead := c.ahead }
  EngAcc.chunks core lid pid c n (c.prog / c.unit) a a

/-- Whether a part of n chunks of a command may end there: with the command, or where no granule is cut (R324). -/
def State.partEnds (s : State) (c : FerryCmd) (n : Nat) : Bool :=
  let lid := s.launchOf c.crew
  c.total ≤ c.prog + n * c.unit || s.cutBefore c lid (s.pidOf lid) (c.prog / c.unit + n)

/-- All that a command has written, with the ranges of one part more (R315). -/
def FerryCmd.addWrote (c : FerryCmd) (now : List Written) : List Written := now.reverse.foldl (fun ws v => joinRange ws { v with bad := false }) c.wrote

/-- The command in a Ferry slot. -/
def State.cmd? (s : State) (core slot : Nat) : Option FerryCmd := tget (s.core core).ferry slot

/-- A command changed. -/
def State.modCmd (s : State) (core slot : Nat) (f : FerryCmd → FerryCmd) : State :=
  match s.cmd? core slot with
  | none => s
  | some c => s.modCore core fun r => { r with ferry := tput r.ferry slot (f c) }

/-- An update of a command's landing sent to its home, with the status that the same action sets (R287, R288). -/
def State.countLandSt (s : State) (core slot : Nat) (op : LandOp) (st : Option Nat) : State :=
  match s.cmd? core slot with
  | none => s
  | some c => match c.landing with
    | none => s
    | some h =>
      let u : LandUpd := { home := h, op := op, st := st, owner := some (core, slot), after := some (c.crew, c.seq), pid := s.pidOf (s.launchOf c.crew) }
      { (s.modCmd core slot fun c => { c with updates := c.updates + 1 }) with landUpds := s.landUpds ++ [u] }

/-- An update of a command's landing sent to its home (R287). -/
def State.countLand (s : State) (core slot : Nat) (op : LandOp) : State := s.countLandSt core slot op none

/-- An update of a landing at a peer or of another kind, which no command waits for. -/
def State.sendLand (s : State) (pid : Nat) (h : LandHome) (op : LandOp) : State :=
  { s with landUpds := s.landUpds ++ [({ home := h, op := op, pid := pid } : LandUpd)] }

/-- A virtual landing reference translated (R288). -/
def State.landHome (s : State) (c : FerryCmd) (lid pid : Nat) (peer : Option Nat) (va : DWord) : Except EngStop LandHome :=
  match s.engPlace c lid (.virt peer pid va) 16 true with
  | .error e => .error e
  | .ok (.chip (.vault pa)) => .ok (.vault pa)
  | .ok _ => .error (.pause va true peer.isSome)

/-- The home of a command's landing found, once (R288). -/
def State.findLanding (s : State) (core slot : Nat) (c : FerryCmd) : Except EngStop (FerryCmd × State) :=
  match c.landing, c.landVa with
  | none, some va =>
    if c.landDead then .ok (c, s)
    else
      let lid := s.launchOf c.crew
      match s.landHome c lid (s.pidOf lid) none va with
      | .error e => .error e
      | .ok h =>
        let c := { c with landing := some h }
        .ok (c, s.modCmd core slot fun _ => c)
  | _, _ => .ok (c, s)

/-- The bytes of INB or OUTB that a command has still to count down (R288, R304). -/
def FerryCmd.rest (c : FerryCmd) : LandOp × Nat :=
  match c.op with
  | .fput => (.countOut (c.total - c.acked), c.total - c.acked)
  | .fputs => (.countOut (c.total - c.acked), c.total - c.acked)
  | .collCbar => (.arrive, 1)
  | _ => (.countIn (c.total - c.prog), c.total - c.prog)

/-- The records of a command's refusal by a firewall (R430). -/
def State.refusedCmd (s : State) (core slot : Nat) (a : DWord) (target : Nat) : State :=
  match s.cmd? core slot with
  | none => s
  | some c => s.firewallRecord (core / 32) target (s.pidOf (s.launchOf c.crew)) a .guest

/-- The last update of a command that has ended: the rest of its count, but for status aborted, and the status, as one action; then it is done (R288, R315, R454).
While its landing is not translated it pauses there, and where that fault is unresolvable there is no landing to update. -/
def State.finishCmd (s : State) (core slot : Nat) : State :=
  match s.cmd? core slot with
  | none => s
  | some c => match c.ending with
    | none => s
    | some st =>
      let close (s : State) : State := s.modCmd core slot fun c => { c with paused := none, ftag := none, ending := none, done := true }
      match s.findLanding core slot c with
      | .error (.pause a w p) => s.modCmd core slot fun c => { c with paused := some (a, w, p), ftag := none }
      | .error (.refused a t) => close (s.refusedCmd core slot a t)
      | .error (.dead _) => close s
      | .ok (c, s) =>
        let op : LandOp := if st = 1 || c.rest.2 = 0 then .status st else c.rest.1
        close (if st = 0 && c.rest.2 = 0 then s else s.countLandSt core slot op (if st = 0 then none else some st))

/-- A command that ends under R288: no further transfer, the rest of its count and fault status in its landing. -/
def State.endCmd (s : State) (core slot : Nat) (addr : DWord) : State :=
  match s.cmd? core slot with
  | none => s
  | some c =>
    if c.done || c.ending.isSome then s
    else (s.modCmd core slot fun c => { c with paused := none, ftag := none, fault := some addr, ending := some 2 }).finishCmd core slot

/-- A command that stops at an address: it pauses, or ends (R288). -/
def State.stopCmd (s : State) (core slot : Nat) : Option EngStop → State
  | none => s
  | some (.dead a) => s.endCmd core slot a
  | some (.refused a t) => (s.refusedCmd core slot a t).endCmd core slot a
  | some (.pause a w p) => s.modCmd core slot fun c => { c with paused := some (a, w, p) }

/-- Whether earlier FATOMs of the crew with order hold a command back (R301). -/
def State.atomAhead (s : State) (core : Nat) (c : FerryCmd) : Bool :=
  (s.core core).ferry.any fun x => x.2.crew == c.crew && x.2.seq < c.seq && x.2.op == .fatom
    && !x.2.done && x.2.prog == 0 && (fatomDesc x.2.desc).ord != 0

/-- Whether stores of the crew issued before the command have not performed (R286). -/
def State.storesAhead (s : State) (c : FerryCmd) : Bool :=
  match tget s.crews c.crew with
  | none => false
  | some w => w.storeQ.any fun e => e.id < c.seq

/-- Whether a command reads scratchpad (R286). -/
def FerryCmd.readsSpad (c : FerryCmd) : Bool :=
  match c.op with
  | .fcopy => (copyDesc c.desc).srcSpad
  | .fgath => true
  | .fscat => true
  | .fput => (putDesc c.desc).spad
  | .fputs => (putDesc c.desc).spad
  | .collCbar => false
  | .fatom => false
  | .fget => false
  | .nmc => false
  | _ => (collDesc c.desc).sendSpad

/-- Whether an earlier acquiring access of the command's crew has not returned (R251, R325). -/
def State.acquireAhead (s : State) (c : FerryCmd) : Bool := ((tget s.crews c.crew).map fun w : Crew => s.acquireDue w c.seq).getD false

/-- Whether a command may act now. -/
def State.cmdRuns (s : State) (core : Nat) (c : FerryCmd) : Bool :=
  !c.done && c.ending.isNone && c.paused.isNone && !s.atomAhead core c && !s.acquireAhead c && !(c.readsSpad && s.storesAhead c)

/-- Whether a command's descriptor has VERIFY set (R290). -/
def FerryCmd.verify (c : FerryCmd) : Bool :=
  match c.op with
  | .fcopy => (copyDesc c.desc).verify
  | .fgath => (gathDesc c.desc).verify
  | .fscat => (gathDesc c.desc).verify
  | _ => false

/-- A part of n chunks of an FCOPY, FGATH or FSCAT (R295, R298). -/
def State.copyPart (s : State) (core slot n : Nat) : Option State :=
  match s.cmd? core slot with
  | none => none
  | some c =>
    if !s.cmdRuns core c || n = 0 || c.total < c.prog + n * c.unit || !s.partEnds c n then none
    else match s.findLanding core slot c with
      | .error e => some (s.stopCmd core slot (some e))
      | .ok (c, s) =>
        let lid := s.launchOf c.crew
        let pid := s.pidOf lid
        let a := EngAcc.part core lid pid c n s
        let sealed := a.st.sealAll c.written a.clean
        let s := sealed.1
        let b := a.moved * c.unit
        let s := s.modCmd core slot fun c => { c with
          written := sealed.2, wrote := c.addWrote a.clean, ahead := a.ahead, prog := c.prog + b, done := c.total ≤ c.prog + b, badRead := if c.verify then c.badRead.orElse fun _ => a.bad else none }
        let s := if b = 0 then s else s.countLand core slot (.countIn b)
        some (s.stopCmd core slot a.stop)

/-! ### Completion (R284, R289, R290) -/

/-- Whether a command names a landing. -/
def FerryCmd.lands (c : FerryCmd) : Bool := c.landing.isSome || c.landVa.isSome

/-- The deferred trap of a command that has no landing and ended with a fault (R289). -/
def FerryCmd.landTrap (c : FerryCmd) (addr : DWord) (guest : Bool) : Deferred :=
  { cause := .landing, addr := some addr, guest := guest, info := BitVec.ofNat 64 (c.handle.toNat % 2 ^ 32 + 2 ^ 32) }

/-- A command completes: its slot is free, COPIES falls, its ticket ends; VERIFY sets ST to fault; without a landing a fault is a deferred LANDING trap (R283, R284, R289, R290, R386). -/
def State.commandComplete (s : State) (core slot : Nat) : Option State :=
  match s.cmd? core slot with
  | none => none
  | some c =>
    if !c.done || c.updates != 0 then none
    else
      let s := s.modCore core fun r => { r with ferry := tdel r.ferry slot }
      let stale := ((tget s.crews c.crew).map fun w : Crew => w.gen) != some c.gen
      if stale then some s
      else
        let s := s.count c.crew fun n => { n with copies := n.copies - 1 }
        let s := s.modCrew c.crew fun w => w.endTicket c.ticket
        if c.lands && c.landing.isNone then some s
        else match c.landing, c.fault, c.badRead with
        | some h, _, some _ => some { s with landUpds := s.landUpds ++
            [({ home := h, op := .status 2, after := some (c.crew, c.seq), pid := s.pidOf (s.launchOf c.crew) } : LandUpd)] }
        | none, some a, _ => some (if c.op == .nmc then s else s.owe c.crew (c.landTrap a true))
        | none, none, some a => some (s.owe c.crew (c.landTrap a.1 a.2))
        | _, _, _ => some s

/-! ### The fault queue (R408, R409) -/

/-- The partition and slice whose fault queue takes a paused command's record: the peer's for a peer address, else the command's own (R303, R408). -/
def State.faultQueueOf (s : State) (core : Nat) (c : FerryCmd) : Nat × Nat :=
  let lid := s.launchOf c.crew
  let own := s.pidOf lid
  match c.paused with
  | some (_, _, true) =>
    let p := ((s.peerOf lid (putDesc c.desc).rank).bind s.peerPid).getD own
    if p = own then (own, core / 32) else (p, (((tget s.partitions p).map fun x : Partition => x.itab).getD []).foldl min 16)
  | _ => (own, core / 32)

/-- The 32 bytes of a fault record (R408). -/
def faultRecord (addr : DWord) (ctx core ftag : Nat) (write peer : Bool) (handle : DWord) : List Byte :=
  bytesOfNat 8 addr.toNat ++ bytesOfNat 4 ctx ++ bytesOfNat 1 ((if write then 1 else 0) + if peer then 2 else 0)
    ++ bytesOfNat 1 (core % 32) ++ bytesOfNat 2 ftag ++ bytesOfNat 8 (if peer then 0 else handle.toNat) ++ List.replicate 8 0

/-- A paused command writes its record when the ring has room (R408, R409). -/
def State.faultRecordWrite (s : State) (core slot : Nat) : Option State :=
  match s.cmd? core slot with
  | none => none
  | some c => match c.paused, c.ftag with
    | some (a, w, p), none =>
      let q := s.faultQueueOf core c
      let sl := s.slice q.2
      if 2 ^ (sl.fqLog2n + 4) ≤ (sl.fqProd - sl.fqCons).toNat then none
      else
        let ctx := ((s.contextOf (s.launchOf c.crew)).map fun x : Context => x.ctx).getD 0
        let ftag := sl.nextFtag % 65536
        let at' := sl.fqBase.toNat + 32 * (sl.fqProd.toNat % 2 ^ (sl.fqLog2n + 4))
        let s := s.writeGlobal q.1 at' (faultRecord a ctx core ftag w p c.handle)
        let s := s.modSlice q.2 fun x => { x with
          fqProd := x.fqProd + 1, nextFtag := x.nextFtag + 1, paused := x.paused ++ [({ ftag := ftag, core := core, slot := slot } : PausedRef)] }
        let s := s.modCmd core slot fun c => { c with ftag := some ftag }
        some (s.raiseSource q.1 q.2 0)
    | _, _ => none

/-- The paused command that a tag names is taken from the slice's list. -/
def State.takePaused (s : State) (slice ftag : Nat) : Option (Nat × Nat × State) :=
  match (s.slice slice).paused.find? fun p => p.ftag == ftag with
  | none => none
  | some p => some (p.core, p.slot, s.modSlice slice fun x => { x with paused := x.paused.filter fun q => q.ftag != ftag })

/-- A resume verdict: the command translates again (R409); one that names no paused command is ignored. -/
def State.resolveResume (s : State) (slice ftag : Nat) : State :=
  match s.takePaused slice ftag with
  | none => s
  | some (core, slot, s) => s.modCmd core slot fun c => if c.ftag = some ftag then { c with paused := none, ftag := none } else c

/-! ### FATOM (R300, R301) -/

/-- Whether an FATOM's order lets it perform: with order it is a release at partition scope, so the writes of the crew's earlier commands are done, and its
earlier loads, stores, atomics and landing updates have performed there (R301, R325, R328). -/
def State.fatomReady (s : State) (core : Nat) (c : FerryCmd) : Bool :=
  (fatomDesc c.desc).ord == 0 || (
    !((s.core core).ferry.any fun x => x.2.crew == c.crew && x.2.seq < c.seq && !x.2.done)
    && match tget s.crews c.crew with
      | none => true
      | some w => (w.loads.all fun l => c.seq < l.id) && (w.storeQ.all fun e => c.seq < e.id) && (w.replies.all fun r => c.seq < r.id) && !s.vaultDue w 4)

/-- An atomic at a place of global memory, with its old value; bad data is not changed and its result is poisoned (R252, R290, R300). -/
def State.fatomAt (s : State) (core lid pid : Nat) (x : FatomDesc) (pl : EngPlace) : (Nat × Bool) × State :=
  let a := (({ st := s } : EngAcc).readNow core lid pid (.virt none pid (BitVec.ofNat 64 x.addr)) pl x.size)
  let m := natOfBytes a.1.bytes
  if a.1.poison then ((m, true), a.2.st)
  else
    let w := 8 * x.size
    let new := if x.op == .cas then x.op.apply w m (x.cmp % 2 ^ w) (x.opnd % 2 ^ w) else x.op.apply w m (x.opnd % 2 ^ w) 0
    ((m, false), a.2.st.engWrite core pl (bytesOfNat x.size new) false)

/-- FATOM performs at the L2 that holds the sector, once for its ticket, writes its old value at RES and counts INB down by 8 (R300, R387). -/
def State.fatomPerform (s : State) (core slot : Nat) : Option State :=
  match s.cmd? core slot with
  | none => none
  | some c =>
    if c.op != .fatom || !s.cmdRuns core c || !s.fatomReady core c || c.prog != 0 then none
    else
      let x := fatomDesc c.desc
      let lid := s.launchOf c.crew
      let pid := s.pidOf lid
      match s.findLanding core slot c with
      | .error e => some (s.stopCmd core slot (some e))
      | .ok (_, s) => match s.engPlace c lid (.virt none pid (BitVec.ofNat 64 x.addr)) x.size true with
        | .error e => some (s.stopCmd core slot (some e))
        | .ok (.chip _) => some (s.endCmd core slot (BitVec.ofNat 64 x.addr))
        | .ok (.glob p pa o) =>
          let home := s.homeSlice p pa
          let ticket := s.ticketKey lid c.ticket
          let s := s.filterRetire home .l2 ticket c.hor
          let known := s.filterGet home .l2 ticket 0
          if known.isNone && s.filterFull home .l2 1 then none
          else
            let r : (Nat × Bool) × State := match known with
              | some (v :: _) => ((v.bits.toNat, v.tag == .poison), s)
              | _ =>
                let r := s.fatomAt core lid pid x (.glob p pa o)
                let v : RegVal := { bits := BitVec.ofNat 64 r.1.1, tag := if r.1.2 then .poison else .n64 }
                (r.1, r.2.filterPut home .l2 ticket 0 [v])
            let s := match x.res with
              | none => r.2
              | some off => r.2.engWrite core (.chip (.spad c.block c.side off)) (bytesOfNat 8 r.1.1) r.1.2
            let s := s.modCmd core slot fun c => { c with prog := 8, done := true }
            some (s.countLand core slot (.countIn 8))

/-! ### NMC (R311-R313) -/

/-- An element as the near-memory engine reads it: BF16 widened to F32. -/
def NmcDesc.widen (x : NmcDesc) (bits : Nat) : Nat := if x.bf16 then (convert (.float .bf16) (.float .f32) .rne false false bits).1 else bits

/-- An F32 result as it is stored: rounded to BF16 where the elements are BF16, a NaN canonical. -/
def NmcDesc.narrow (x : NmcDesc) (bits : Nat) : Nat :=
  if x.bf16 then (convert (.float .f32) (.float .bf16) .rne false false bits).1 else (FloatFmt.f32.ofNum .rne false false (FloatFmt.f32.read bits)).1

/-- The result of one element (R311). -/
def NmcDesc.elem (x : NmcDesc) (a b : Nat) : Nat :=
  let mul (p q : Nat) : Nat := (fMul .f32 .rne false p q).1
  let fma (np : Bool) (p q r : Nat) : Nat := (fFma .f32 .rne false np false p q r).1
  match x.op with
  | 0 => fma false x.alpha a (mul x.beta b)
  | 1 =>
    let t := mul x.alpha x.beta
    fma true x.alpha b (fma true t a a)
  | 3 => x.alpha
  | 4 => a
  | _ => mul x.alpha a

/-- The byte ranges of an NMC, from the start of its granule: those it writes, and those it reads (R310). -/
def NmcDesc.ranges (x : NmcDesc) : List (Nat × Nat) :=
  let n := x.count * x.bytes
  (x.dst % 65536, x.outBytes) :: (if x.reads.1 then [(x.s1, n)] else []) ++ if x.reads.2 then [(x.s2, n)] else []

/-- Every L2 copy of the ranges of an NMC is gone from the slices of its partition; what a protected way held of them is sealed (R312, R421). -/
def State.backInvalidate (s : State) (pid : Nat) (x : NmcDesc) (base : Nat) : State :=
  let ks := x.ranges.flatMap fun r => sectorsOf (base + r.1) r.2
  { s with slices := s.slices.map fun p => (p.1, if p.2.fwPid = pid then { p.2 with plines := p.2.plines.filter fun l => !ks.contains l.1 } else p.2) }

/-- The near-memory engines of the stack that is home to a place. -/
def State.nearOf (s : State) (pl : EngPlace) : Nat :=
  match pl with
  | .glob p pa _ => nearAgent (s.homeSlice p pa)
  | .chip _ => nearAgent 0

/-- What an NMC run has come to: the state, the elements done, the running sum, and the status with the failing address. -/
structure NmcAcc where
  st : State
  done : Nat := 0
  sum : Nat := 0
  fail : Option (Nat × DWord) := none
  stop : Option EngStop := none
  clean : List Written := []

/-- The check of one source sector before its elements are read: status and records (R313). -/
def NmcAcc.check (a : NmcAcc) (core lid pid : Nat) (va : DWord) (pl : EngPlace) : NmcAcc :=
  match pl with
  | .chip _ => { a with stop := some (.dead va) }
  | .glob p pa o =>
    match tget a.st.partitions p with
    | none => a
    | some part =>
      let k := pa / 256
      match part.gm.badAt k o with
      | none => { a with st := a.st.correctSector p k }
      | some b =>
        let status := if part.gm.poison.contains k then 2 else 1
        let s := a.st.modPartition p fun q => { q with gm := { (q.gm.detect k) with poison := ninsert (q.gm.detect k).poison k } }
        let s := if b.1 = 2 then s.reportRead core lid pid (.virt none pid va) pl (1, 0) else s
        { a with
          st := s.reportRead core lid pid (.virt none pid va) pl b
          fail := some (status, va - BitVec.ofNat 64 (pa % 256)) }

/-- One write of an NMC: where its writes now cover the sector whole, its marks are gone before anything is read after it (R312, R313). -/
def NmcAcc.put (a : NmcAcc) (pd : EngPlace) (bs : List Byte) : NmcAcc :=
  let s := a.st.engWrite (a.st.nearOf pd) pd bs false
  let ws := addRange a.clean pd bs.length
  let w : Written := { pd.written 256 with start := pd.start / 256 * 256 }
  { a with st := if coveredBy ws w 256 (pd.start / 256) then s.sealRange ws w else s, clean := ws }

/-- One element of an NMC, once the sectors that hold its sources are checked; a check is made when an element is the first of its sector. -/
def NmcAcc.elem (a : NmcAcc) (core lid pid : Nat) (c : FerryCmd) (x : NmcDesc) (n : Nat) : NmcAcc :=
  let e := x.bytes
  let srcs : List Nat := (if x.reads.1 then [x.granule + x.s1 + n * e] else []) ++ if x.reads.2 then [x.granule + x.s2 + n * e] else []
  let dst := x.dst + if x.op = 2 then 0 else n * e
  let place (va : Nat) (w : Bool) : Except EngStop EngPlace := a.st.engPlace c lid (.virt none pid (BitVec.ofNat 64 va)) e w
  let step (a : NmcAcc) (va : Nat) : NmcAcc :=
    if a.stop.isSome || a.fail.isSome then a
    else match a.st.engPlace c lid (.virt none pid (BitVec.ofNat 64 va)) e false with
      | .error s => { a with stop := some s }
      | .ok pl => a.check core lid pid (BitVec.ofNat 64 va) pl
  let a := srcs.foldl step a
  if a.stop.isSome || a.fail.isSome then a
  else match place dst true with
    | .error s => { a with stop := some s }
    | .ok (.chip _) => { a with stop := some (.dead (BitVec.ofNat 64 dst)) }
    | .ok pd =>
      let val (k : Nat) : Nat := match srcs[k]? with
        | none => 0
        | some va => match place va false with
          | .ok pl => x.widen (natOfBytes (a.st.engRead (a.st.nearOf pl) pl e).1.bytes)
          | .error _ => 0
      if x.op = 2 then
        { a with sum := (fAdd .f32 .rne false a.sum (val 0)).1, done := a.done + 1 }
      else
        { a.put pd (bytesOfNat e (x.narrow (x.elem (val 0) (val 1)))) with done := a.done + 1 }

/-- The elements in ascending order, from element n on. -/
def NmcAcc.elems (core lid pid : Nat) (c : FerryCmd) (x : NmcDesc) : Nat → Nat → NmcAcc → NmcAcc
  | 0, _, a => a
  | k + 1, n, a =>
    let a := a.elem core lid pid c x n
    if a.stop.isSome || a.fail.isSome then a else NmcAcc.elems core lid pid c x k (n + 1) a

/-- The destination of a SUM written when every element has been folded (R311). -/
def NmcAcc.finish (a : NmcAcc) (lid pid : Nat) (c : FerryCmd) (x : NmcDesc) : NmcAcc :=
  if x.op ≠ 2 || a.stop.isSome || a.fail.isSome then a
  else match a.st.engPlace c lid (.virt none pid (BitVec.ofNat 64 x.dst)) x.bytes true with
    | .error s => { a with stop := some s }
    | .ok pd => a.put pd (bytesOfNat x.bytes (x.narrow a.sum))

/-- An NMC ends: its completion record, the TYPE 0x06 record of a failure, ARR of its landing, and completion (R313). That record's SLICE and CORE name the core that issued
the command, which R455 leaves open: a DESIGN CHOICE (log 39). -/
def State.endNmc (s : State) (core slot : Nat) (done status : Nat) (fsect : DWord) : State :=
  match s.cmd? core slot with
  | none => s
  | some c =>
    let lid := s.launchOf c.crew
    let l := tget s.launches lid
    let rec' := bytesOfNat 4 done ++ bytesOfNat 4 status ++ bytesOfNat 8 fsect.toNat
    let s := s.engWrite core (.chip (.spad c.block c.side c.recordOff)) rec' false
    let s := if status = 0 then s else s.report [s.pidOf lid] {
      type := 6, aval := true, slice := core / 32, core := core % 32, ctx := (l.map fun l : Launch => l.ctx).getD 0
      launch := (l.map fun l : Launch => l.lid).getD 0, addr := fsect, info := BitVec.ofNat 64 (status + done * 2 ^ 32) } .guest
    let s := s.countLand core slot .arrive
    s.modCmd core slot fun c => { c with done := true, paused := none, ftag := none }

/-- A near-memory engine runs an NMC in ascending order, once for its ticket (R312, R313, R387). -/
def State.nmcRun (s : State) (core slot : Nat) : Option State :=
  match s.cmd? core slot with
  | none => none
  | some c =>
    if c.op != .nmc || !s.cmdRuns core c then none
    else
      let x := nmcDesc c.desc
      let lid := s.launchOf c.crew
      let pid := s.pidOf lid
      let fsect (s : State) (e : EngStop) : State := match e with
        | .pause a w p => s.modCmd core slot fun c => { c with paused := some (a, w, p) }
        | .dead a => s.endNmc core slot 0 3 (a - BitVec.ofNat 64 (a.toNat % 256))
        | .refused a t => (s.refusedCmd core slot a t).endNmc core slot 0 3 (a - BitVec.ofNat 64 (a.toNat % 256))
      match s.findLanding core slot c with
      | .error e => some (fsect s e)
      | .ok (_, s) =>
        match s.engPlace c lid (.virt none pid (BitVec.ofNat 64 x.dst)) x.bytes true with
        | .error e => some (fsect s e)
        | .ok (.chip _) => some (s.endNmc core slot 0 3 (BitVec.ofNat 64 (x.dst / 256 * 256)))
        | .ok (.glob p pa _) =>
          let home := s.homeSlice p pa
          let ticket := s.ticketKey lid c.ticket
          let s := s.filterRetire home .msc ticket c.hor
          match s.filterGet home .msc ticket 0 with
          | some [d, f] => some (s.endNmc core slot (d.bits.toNat % 2 ^ 32) (d.bits.toNat / 2 ^ 32) f.bits)
          | _ =>
            if s.filterFull home .msc 1 then none
            else
              let s := s.backInvalidate p x (pa - x.dst % 65536)
              let a := (NmcAcc.elems core lid pid c x (x.count - c.prog) c.prog { st := s, done := c.prog, sum := c.total, clean := c.written }).finish lid pid c x
              let s := a.st.modCmd core slot fun c => { c with written := a.clean.flatMap fun w => w.rest a.clean }
              let close (s : State) (status : Nat) (f : DWord) : State :=
                let r : List RegVal := [{ bits := BitVec.ofNat 64 (a.done + status * 2 ^ 32) }, { bits := f }]
                (s.filterPut home .msc ticket 0 r).endNmc core slot a.done status f
              match a.stop, a.fail with
              | some (.pause va w p), _ => some (s.modCmd core slot fun c => { c with prog := a.done, total := a.sum, paused := some (va, w, p) })
              | some (.dead va), _ => some (close s 3 (va - BitVec.ofNat 64 (va.toNat % 256)))
              | some (.refused va t), _ => some (close (s.refusedCmd core slot va t) 3 (va - BitVec.ofNat 64 (va.toNat % 256)))
              | none, some f => some (close s f.1 f.2)
              | none, none => some (close s 0 0)

/-- Whether a command waits at the translation of its own landing. -/
def FerryCmd.landPaused (c : FerryCmd) : Bool := c.landing.isNone && (c.paused.map fun p => (some p.1, p.2.1)) == some (c.landVa, true)

/-- An unresolvable verdict: the command ends under R288, an NMC with STATUS 3 (R288, R313); one that names no paused command is ignored. A landing whose own
translation is unresolvable takes no update. -/
def State.resolveDead (s : State) (slice ftag : Nat) : State :=
  match s.takePaused slice ftag with
  | none => s
  | some (core, slot, s) => match s.cmd? core slot with
    | none => s
    | some c =>
      let a := (c.paused.map fun p => p.1).getD 0
      if c.ftag ≠ some ftag then s
      else
        let s := if c.landPaused then s.modCmd core slot fun c => { c with landDead := true } else s
        if c.op == .nmc then s.endNmc core slot c.prog 3 (a - BitVec.ofNat 64 (a.toNat % 256))
        else if c.ending.isSome then s.finishCmd core slot
        else s.endCmd core slot a

/-! ### FCANCEL (R315) -/

/-- Bytes of a chunk of a cancelled command that it had not written become undefined, one after another or, where it had written none of them, as one write. An open
point of the spec is settled here: marks and checks follow R252 and R291 as after a clean write of those bytes (log 59). -/
def State.undefineBytes (s : State) (core : Nat) (c : FerryCmd) (pd : EngPlace) (n : Nat) : State :=
  let fb := s.freeBytes n
  let had (i : Nat) : Bool := c.wrote.any fun w => w.same (pd.written n) && w.start ≤ pd.start + i && pd.start + i < w.start + w.len
  if (List.range n).any had then
    fb.1.zipIdx.foldl (fun s x => if had x.2 then s else s.engWrite core (pd.plus x.2) [x.1] false) fb.2
  else fb.2.engWrite core pd fb.1 false

/-- The destination bytes that a cancelled command had not written become undefined (R315). What becomes of the poison marks and sector checks of their granules the spec leaves
open; they go as after a clean write: a DESIGN CHOICE (log 59). -/
def State.undefineRest (s : State) (core : Nat) (c : FerryCmd) (lid pid : Nat) : Nat → Nat → State
  | 0, _ => s
  | n + 1, u =>
    let s := match s.chunkDst c lid pid u with
      | none => s
      | some dst => match s.engPlace c lid dst c.unit true with
        | .error _ => s
        | .ok pd => s.undefineBytes core c pd c.unit
    s.undefineRest core c lid pid n (u + 1)

/-- Whether a command is of the kinds that FCANCEL stops (R315). -/
def EngOp.cancels : EngOp → Bool
  | .fcopy => true
  | .fgath => true
  | .fscat => true
  | .fget => true
  | _ => false

/-- FCANCEL (R315). -/
def bodyFcancel (d a : BitVec 5) (c : Ctx) (s : State) : WordResult :=
  match c.scalarCheck [(2, c.getS a, fun t => t == .n64)] with
  | some t => .trap t
  | none =>
    let h := (c.getS a).bits
    let core := c.crew.core
    let give (s : State) (n : Nat) : WordResult :=
      .done ((s.writeS c d (mkVal .n64 n)).recordS c (mkVal .n64 n))
    match (s.core core).ferry.find? fun x => x.2.crew == c.cid && x.2.handle == h && !x.2.done && x.2.ending.isNone && x.2.op.cancels with
    | none => give s 0
    | some (slot, f) =>
      let rest := f.total - f.prog
      let s := s.undefineRest core f c.crew.launch c.pid (rest / f.unit) (f.prog / f.unit)
      let s := match f.ftag with
        | none => s
        | some t => s.modSlice (core / 32) fun x => { x with paused := x.paused.filter fun q => q.ftag != t }
      let s := s.modCmd core slot fun f => { f with ending := some 0, cancelled := true, paused := none, ftag := none }
      give (s.finishCmd core slot) rest

end Sys2Proof.Machine
end

