-- ==== Sys2Proof/Machine/Sys.lean ====
section
/-! DEFINITION. The meanings of the SYS, CSR and LAUNCH words (R68-R75, R345-R347, R373-R380). -/

namespace Sys2Proof.Machine

/-! ### SYS (R373-R376) -/

/-- TRAP and BRK: their own cause in every active lane; ILLOP in handler mode (R374). -/
def sysTrap (k : Cause) (n : BitVec 12) (c : Ctx) (_ : State) : WordResult :=
  if c.handler then .trap (c.fail .illop c.active 5)
  else .trap { c.fail k c.active with info := trapDetail c.word (n.toNat % 256) (n.toNat / 256) }

/-- TRAP #n (R374). -/
def bodyTrap (n : BitVec 12) (c : Ctx) (s : State) : WordResult := sysTrap .trap n c s

/-- BRK #n (R374). -/
def bodyBrk (n : BitVec 12) (c : Ctx) (s : State) : WordResult := sysTrap .brk n c s

/-- A return from the handler, decided here and made at the end of its run; ILLOP outside handler mode (R375). -/
def sysRte (form : RteForm) (c : Ctx) (s : State) : WordResult :=
  if c.active.isEmpty then .done s
  else if !c.handler then .trap (c.fail .illop c.active 5)
  else .done (s.transfer c (.rte form))

/-- RTE.RETRY (R375). -/
def bodyRteRetry (c : Ctx) (s : State) : WordResult := sysRte .retry c s

/-- RTE.COMMIT (R375). -/
def bodyRteCommit (c : Ctx) (s : State) : WordResult := sysRte .commit c s

/-- RTE.SKIP (R375). -/
def bodyRteSkip (c : Ctx) (s : State) : WordResult := sysRte .skip c s

/-! ### CSR (R377-R380) -/

/-- The item index of a lane in a block: %ix, %iy, %iz, zero in template crews (R70). -/
def Ctx.itemIndex (c : Ctx) (l : Nat) : Nat × Nat × Nat :=
  if c.crew.role != .normal then (0, 0, 0)
  else
    let g := c.crew.geo
    let i := c.crew.idx * c.crew.width + l
    (i % g.nix, i / g.nix % g.niy, i / (g.nix * g.niy))

/-- %cnt (R72). -/
def Counts.bits (n : Counts) : Nat := n.loads % 65536 + n.stores % 65536 * 2 ^ 16 + n.copies % 65536 * 2 ^ 32 + n.tileops % 65536 * 2 ^ 48

/-- The value of a control register as the word reads it (R69-R75, R380); per item, the lowest active lane's. -/
def State.csrRead (s : State) (c : Ctx) (num : Nat) : Nat :=
  let l := c.active.headD 0
  let g := c.crew.geo
  let r := c.regs
  let core := c.crew.core
  match num with
  | 0x000 => l
  | 0x001 => c.crew.idx
  | 0x002 => c.crew.width
  | 0x004 => (c.itemIndex l).1
  | 0x005 => (c.itemIndex l).2.1
  | 0x006 => (c.itemIndex l).2.2
  | 0x008 => g.bxPos
  | 0x009 => g.byPos
  | 0x00A => g.bzPos
  | 0x00C => g.stage
  | 0x010 => g.nbx
  | 0x011 => g.nby
  | 0x012 => g.nbz
  | 0x014 => g.nix
  | 0x015 => g.niy
  | 0x016 => g.niz
  | 0x020 => core % 32
  | 0x021 => core % 32 / 2
  | 0x022 => core / 32
  | 0x024 => (s.core core).clk % 2 ^ 64
  | 0x028 => r.cowcnt.toNat
  | 0x030 => g.launchId.toNat
  | 0x100 => r.fpmode.toNat
  | 0x101 => r.fpflags.toNat
  | 0x102 => r.fptrap.toNat
  | 0x104 => r.tile.toNat
  | 0x108 => r.cnt.bits
  | 0x10C => r.restart.toNat
  | 0x400 => r.treg.tcause.toNat
  | 0x401 => r.treg.tpc.toNat
  | 0x402 => r.treg.tmask.toNat
  | 0x403 => r.treg.taddr.toNat
  | 0x404 => r.treg.tskid.toNat
  | 0x405 => r.treg.tinfo.toNat
  | 0x406 => r.treg.tframe.toNat
  | 0x800 => (if c.crew.inSupervisor c.grp then 1 else 0) + if c.handler then 2 else 0
  | 0x801 => r.shandler.toNat
  | 0x802 => (s.core core).ctxgen.toNat
  | _ => 0

/-- A write of a control register: read-only registers and reserved bits are ignored (R3, R4, R72, R75); the supervisor's action is the lead's alone (R464); %tile is the register's value, which groups take at their next run (R73, R74). -/
def State.csrPut (s : State) (c : Ctx) (num : Nat) (v : DWord) : State :=
  match num with
  | 0x100 => s.modRegs c.cid fun r => { r with fpmode := v &&& 7 }
  | 0x101 => s.modRegs c.cid fun r => { r with fpflags := v &&& 31 }
  | 0x102 => s.modRegs c.cid fun r => { r with fptrap := v &&& 31 }
  | 0x104 => s.modRegs c.cid fun r => { r with tile := v.extractLsb' 0 3 }
  | 0x801 => s.modRegs c.cid fun r => { r with shandler := v &&& 0x00FFFFFFFFFFFFFF }
  | 0x803 => if c.crew.isShadow then s else s.modCrew c.cid fun w => { w with sact := v.toNat % 4 % 3 }
  | _ => s

/-- PROT for a register that the crew may not reach here: 0x400-0x406 outside handler mode, 0x800-0xFFF outside the supervisor handler (R68, R378). -/
def Ctx.csrProt (c : Ctx) (num : Nat) : Option TrapInfo :=
  let bad := if 0x800 ≤ num then !c.crew.inSupervisor c.grp else 0x400 ≤ num && num ≤ 0x406 && !c.handler
  if bad then some (c.fail .prot c.active 2 1) else none

/-- CSRR (R377-R379). -/
def bodyCsrr (d : BitVec 5) (r : BitVec 12) (c : Ctx) (s : State) : WordResult :=
  let num := r.toNat
  match c.csrProt num with
  | some t => .trap t
  | none =>
    if num = 0x024 && c.record.strict then .trap (c.fail .ndet c.active)
    else
      let v : RegVal := mkVal (if num = 0x402 then .m64 else .n64) (s.csrRead c num)
      .done ((s.writeS c d v).recordS c v)

/-- The width that a %tile code selects (R72). -/
def tileCodeWidth (k cwidth : Nat) : Nat := if k = 0 then cwidth else 2 ^ k

/-- CSRW, CSRS and CSRC, with the function of the old value (R377-R379). -/
def csrWrite (a : BitVec 5) (r : BitVec 12) (f : DWord → DWord → DWord) (c : Ctx) (s : State) : WordResult :=
  let num := r.toNat
  let x := c.getS a
  match firstTrap [c.csrProt num, c.scalarCheck [(2, x, fun t => t.isInt || t == .m64)]] with
  | some t => .trap t
  | none =>
    let v := f (BitVec.ofNat 64 (s.csrRead c num)) x.bits
    let k := v.toNat % 8
    if num = 0x104 && (5 < k || c.crew.width < tileCodeWidth k c.crew.width) then .trap (c.fail .illop c.active 2)
    else .done (s.csrPut c num v)

/-- CSRW (R377, R379). -/
def bodyCsrw (a : BitVec 5) (r : BitVec 12) (c : Ctx) (s : State) : WordResult := csrWrite a r (fun _ x => x) c s

/-- CSRS (R377, R379). -/
def bodyCsrs (a : BitVec 5) (r : BitVec 12) (c : Ctx) (s : State) : WordResult := csrWrite a r (fun o x => o ||| x) c s

/-- CSRC (R377, R379). -/
def bodyCsrc (a : BitVec 5) (r : BitVec 12) (c : Ctx) (s : State) : WordResult := csrWrite a r (fun o x => o &&& ~~~x) c s

/-! ### LAUNCH (R345-R347) -/

/-- The registered queue of a partition with a number (R340); a stopped one is registered no longer (R342). -/
def State.queue? (s : State) (pid q : Nat) : Option Queue := s.queues.find? fun x => x.pid == pid && x.qnum == q && !x.stopped

/-- A queue changed, and its HEAD and TAIL written into its descriptor (R340). -/
def State.modQueue (s : State) (uid : Nat) (f : Queue → Queue) : State :=
  let s : State := { s with queues := s.queues.map fun x => if x.uid == uid then f x else x }
  match s.queues.find? fun x => x.uid == uid with
  | none => s
  | some q => s.writeGlobal q.pid (q.desc.toNat + 32) (bytesOfNat 4 q.head.toNat ++ bytesOfNat 4 q.tail.toNat)

/-- The launch id of record k of a queue (R341). -/
def launchIdOf (qnum : Nat) (k : Nat) : Word := BitVec.ofNat 32 ((qnum + 1) * 2 ^ 20 + k % 2 ^ 20)

/-- The address of the slot of record k, counted from 1 (R341). -/
def Queue.slotAddr (q : Queue) (k : Nat) : Nat := q.ring.toNat + 128 * ((k + 2 ^ 32 - 1) % 2 ^ q.log2n)

/-- Whether the queue's ring is full (R347). -/
def Queue.full (q : Queue) : Bool := 2 ^ q.log2n ≤ (q.tail - q.head).toNat

/-- LAUNCH (R345-R347). -/
def bodyLaunch (d a b : BitVec 5) (c : Ctx) (s : State) : WordResult :=
  let ra := c.getS a
  let rb := c.getS b
  match c.addressCheck [(2, ra, Tag.isInt), (3, rb, Tag.isInt)] with
  | some t => .trap t
  | none =>
    let x := ra.toAddress
    let pl := Place.spad c.blk.id c.crew.side x.toNat
    let qn := rb.toAddress.toNat
    if x.toNat % 128 ≠ 0 then .trap (c.fail .align c.active 4 0 x)
    else if c.blk.spadSize < x.toNat + 128 then .trap (c.fail .bounds c.active 5 0 x)
    else match s.queue? c.pid qn with
      | none => .trap (c.fail .prot c.active 6 6)
      | some q =>
        let ctx := ((tget s.launches c.crew.launch).map fun l : Launch => l.ctx).getD 0
        let bytes := s.crewBytes c.crew c.crew.nextOp pl 128
        if !q.launchMode || q.ctx ≠ ctx then .trap (c.fail .prot c.active 6 6)
        else if s.crewPoisoned c.crew c.crew.nextOp pl 128 then .trap (c.fail .poison c.active 2 0 x)
        else if c.record.key ≠ 0 && leAt bytes 36 4 ≠ c.record.key.toNat then .trap (c.fail .prot c.active 6 3 x)
        else if !c.ready && !s.fenced c.crew 5 then .wait .fence
        else if q.full then .wait .ring
        else
          let k := (q.tail + 1).toNat
          let s := (s.writeVirtual c.pid (q.slotAddr k) bytes).getD s
          let s := s.modQueue q.uid fun q => { q with tail := q.tail + 1 }
          let v : RegVal := mkVal .n64 (launchIdOf q.qnum k).toNat
          .done ((s.writeS c d v).recordS c v)

end Sys2Proof.Machine
end

