-- ==== Sys2Proof/Machine/Words.lean ====
section
/-! DEFINITION. What each word does when it issues (wordBody), and around it the checks and waits that every word shares: illegal fields, crew-uniform words, readiness, operand-queue pops, shadow mode (R14, R25, R35, R111, R271, R464). -/

namespace Sys2Proof.Machine

/-- The effect of each instruction word in the context in which it issues. An event is not a word and never reaches this. -/
def wordBody : Instr → Ctx → State → WordResult
  | .nop _ => bodyNop
  | .trl _ x y z => bodyTrl x y z
  | .grd _ p n k => bodyGrd p n k
  | .waitc _ l s y t => bodyWaitc l s y t
  | .yield _ => bodyYield
  | .exit _ => bodyExit
  | .freeze _ l => bodyFreeze l
  | .setrl _ i => bodySetrl i
  | .elect _ p => bodyElect p
  | .br _ i => bodyBr i
  | .brc _ k a i => bodyBrc k a i
  | .brp _ p n i => bodyBrp p n i
  | .call _ i => bodyCall i
  | .jmpi _ a => bodyJmpi a
  | .ret _ => bodyRet
  | .jmpiL _ a => bodyJmpiL a
  | .sadd _ d a b => bodySadd d a b
  | .ssub _ d a b => bodySsub d a b
  | .smul _ d a b => bodySmul d a b
  | .smulh _ d a b => bodySmulh d a b
  | .smulhn _ d a b => bodySmulhn d a b
  | .sand _ d a b => bodySand d a b
  | .sor _ d a b => bodySor d a b
  | .sxor _ d a b => bodySxor d a b
  | .sshl _ d a b => bodySshl d a b
  | .sshr _ d a b => bodySshr d a b
  | .ssra _ d a b => bodySsra d a b
  | .smin _ d a b => bodySmin d a b
  | .smax _ d a b => bodySmax d a b
  | .sminn _ d a b => bodySminn d a b
  | .smaxn _ d a b => bodySmaxn d a b
  | .seq _ d a b => bodySeq d a b
  | .slt _ d a b => bodySlt d a b
  | .sltn _ d a b => bodySltn d a b
  | .smov _ d a t => bodySmov d a t
  | .saddi _ d a i => bodySaddi d a i
  | .sandi _ d a i => bodySandi d a i
  | .sori _ d a i => bodySori d a i
  | .sxori _ d a i => bodySxori d a i
  | .sshli _ d a n => bodySshli d a n
  | .sshri _ d a n => bodySshri d a n
  | .ssrai _ d a n => bodySsrai d a n
  | .slti _ d a i => bodySlti d a i
  | .sli _ d i => bodySli d i
  | .slih _ d i => bodySlih d i
  | .vadd _ d a b => bodyVadd d a b
  | .vsub _ d a b => bodyVsub d a b
  | .vmul _ d a b => bodyVmul d a b
  | .vmulh _ d a b => bodyVmulh d a b
  | .vmulhn _ d a b => bodyVmulhn d a b
  | .vand _ d a b => bodyVand d a b
  | .vor _ d a b => bodyVor d a b
  | .vxor _ d a b => bodyVxor d a b
  | .vandn _ d a b => bodyVandn d a b
  | .vshl _ d a b => bodyVshl d a b
  | .vshr _ d a b => bodyVshr d a b
  | .vsra _ d a b => bodyVsra d a b
  | .vmin _ d a b => bodyVmin d a b
  | .vmax _ d a b => bodyVmax d a b
  | .vminn _ d a b => bodyVminn d a b
  | .vmaxn _ d a b => bodyVmaxn d a b
  | .vabs _ d a _ => bodyVabs d a
  | .vneg _ d a _ => bodyVneg d a
  | .vclz _ d a _ => bodyVclz d a
  | .vpopc _ d a _ => bodyVpopc d a
  | .vadds _ d a b => bodyVadds d a b
  | .vsubs _ d a b => bodyVsubs d a b
  | .vbfe _ d a b => bodyVbfe d a b
  | .vbfi _ d a b => bodyVbfi d a b
  | .vpack _ d a b => bodyVpack d a b
  | .vunpk _ d a b => bodyVunpk d a b
  | .vadda _ d a b => bodyVadda d a b
  | .vaddi _ d a i => bodyVaddi d a i
  | .vandi _ d a i => bodyVandi d a i
  | .vori _ d a i => bodyVori d a i
  | .vxori _ d a i => bodyVxori d a i
  | .vshli _ d a n => bodyVshli d a n
  | .vshri _ d a n => bodyVshri d a n
  | .vsrai _ d a n => bodyVsrai d a n
  | .vmuli _ d a i => bodyVmuli d a i
  | .vli _ d t i => bodyVli d t i
  | .fadd _ d a b r => bodyFadd d a b r
  | .fsub _ d a b r => bodyFsub d a b r
  | .fmul _ d a b r => bodyFmul d a b r
  | .fdiv _ d a b r => bodyFdiv d a b r
  | .fsqrt _ d a _ r => bodyFsqrt d a r
  | .fmin _ d a b => bodyFmin d a b
  | .fmax _ d a b => bodyFmax d a b
  | .fabs _ d a _ => bodyFabs d a
  | .fneg _ d a _ => bodyFneg d a
  | .fcopysign _ d a b => bodyFcopysign d a b
  | .fminnum _ d a b => bodyFminnum d a b
  | .fmaxnum _ d a b => bodyFmaxnum d a b
  | .ffma _ d a b e x => bodyFfma d a b e x
  | .ffman _ d a b e x => bodyFfman d a b e x
  | .vimad _ d a b e x => bodyVimad d a b e x
  | .frcp _ d a _ => bodyFrcp d a
  | .frsq _ d a _ => bodyFrsq d a
  | .fexp2 _ d a _ => bodyFexp2 d a
  | .flog2 _ d a _ => bodyFlog2 d a
  | .fsinpi _ d a _ => bodyFsinpi d a
  | .fcospi _ d a _ => bodyFcospi d a
  | .ftanh _ d a _ => bodyFtanh d a
  | .vcvt _ d a p t m s => bodyVcvt d a p t m s
  | .vcmp _ p a b m k => bodyVcmp p a b m k
  | .vsel _ d a b p x => bodyVsel d a b p x
  | .vdot _ d a b e x => bodyVdot d a b e x
  | .pand _ d a b => bodyPand d a b
  | .por _ d a b => bodyPor d a b
  | .pxor _ d a b => bodyPxor d a b
  | .pandn _ d a b => bodyPandn d a b
  | .ptov _ d => bodyPtov d
  | .vtop _ a => bodyVtop a
  | .vtos _ s a => bodyVtos s a
  | .stov _ d s => bodyStov d s
  | .vretag _ d a t => bodyVretag d a t
  | .shfl _ d a b p m => bodyShfl d a b p m
  | .shflup _ d a b p m => bodyShflup d a b p m
  | .shfldn _ d a b p m => bodyShfldn d a b p m
  | .shflx _ d a b p m => bodyShflx d a b p m
  | .bcast _ d a b p m => bodyBcast d a b p m
  | .voteAny _ d p m => bodyVoteAny d p m
  | .voteAll _ d p m => bodyVoteAll d p m
  | .voteBal _ d p m => bodyVoteBal d p m
  | .voteEq _ d p m => bodyVoteEq d p m
  | .redadd _ d a m => bodyRedadd d a m
  | .redmin _ d a m => bodyRedmin d a m
  | .redmax _ d a m => bodyRedmax d a m
  | .redand _ d a m => bodyRedand d a m
  | .redor _ d a m => bodyRedor d a m
  | .redxor _ d a m => bodyRedxor d a m
  | .scanadd _ d a m => bodyScanadd d a m
  | .scanaddx _ d a m => bodyScanaddx d a m
  | .xmatch _ d a m => bodyXmatch d a m
  | .ld _ d a p z t o m => bodyLd d a p z t o m
  | .st _ d a p z t o m => bodySt d a p z t o m
  | .atom _ d a p z k o m => bodyAtom d a p z k o m
  | .fence _ s => bodyFence s
  | .publish _ b t => bodyPublish b t
  | .berthSet _ b a => bodyBerthSet b a
  | .berthClr _ b => bodyBerthClr b
  | .ldt _ t a b p => bodyLdt t a b p
  | .stt _ t a b p => bodyStt t a b p
  | .lndInit _ a b s => bodyLndInit a b s
  | .lndExpectIn _ a b s => bodyLndExpectIn a b s
  | .lndExpectOut _ a b s => bodyLndExpectOut a b s
  | .lndArrive _ d a s => bodyLndArrive d a s
  | .lndWait _ a b s => bodyLndWait a b s
  | .lndTest _ d a s => bodyLndTest d a s
  | .strmSet _ a q => bodyStrmSet a q
  | .strmStop _ q => bodyStrmStop q
  | .fcopy _ d a b l => bodyFcopy d a b l
  | .fgath _ d a b l => bodyFgath d a b l
  | .fscat _ d a b l => bodyFscat d a b l
  | .fatom _ d a b l => bodyFatom d a b l
  | .fput _ d a b l => bodyFput d a b l
  | .fputs _ d a b l => bodyFputs d a b l
  | .fget _ d a b l => bodyFget d a b l
  | .collAllred _ d a b l => bodyCollAllred d a b l
  | .collAllgath _ d a b l => bodyCollAllgath d a b l
  | .collRedscat _ d a b l => bodyCollRedscat d a b l
  | .collBcast _ d a b l => bodyCollBcast d a b l
  | .collCbar _ d a b l => bodyCollCbar d a b l
  | .nmc _ d a b => bodyNmc d a b
  | .fpref _ a b h => bodyFpref a b h
  | .fcancel _ d a => bodyFcancel d a
  | .mma _ b a t n m g z w => bodyMma b a t n m g z w
  | .movts _ t a => bodyMovts t a
  | .movst _ d t => bodyMovst d t
  | .accz _ a => bodyAccz a
  | .mchk _ d => bodyMchk d
  | .tcvt _ t s m f => bodyTcvt t s m f
  | .tzero _ t => bodyTzero t
  | .accst _ d a b x y q p u f t => bodyAccst d a b x y q p u f t
  | .accld _ d a p => bodyAccld d a p
  | .trap _ n => bodyTrap n
  | .rteRetry _ => bodyRteRetry
  | .rteCommit _ => bodyRteCommit
  | .rteSkip _ => bodyRteSkip
  | .brk _ n => bodyBrk n
  | .csrr _ d r => bodyCsrr d r
  | .csrw _ a r => bodyCsrw a r
  | .csrs _ a r => bodyCsrs a r
  | .csrc _ a r => bodyCsrc a r
  | .launch _ d a b => bodyLaunch d a b
  | .illegalOpcodeWord _ => fun c _ => .trap (c.fail .illegal c.active)
  | .issueOpportunity _ | .runEnd | .loadReturn _ _ | .storePerform _ | .vaultStoreHomeArrival _ _ | .atomHomeApply _ | .atomReplyReturn _ _ | .landingUpdateApply _
  | .streamElementFetch _ _ _ | .tileOpStart _ _ | .mmaTwinEngage _ | .tileOpComplete _ _ | .engineTransferPart _ _ _ | .faultQueueRecordWrite _ _
  | .fqResolveResume _ _ | .fqResolveUnresolvable _ _ | .engineCommandComplete _ _ | .fatomPerform _ _ | .nmcRun _ _ | .cbarArrival _ _ | .ticketedRequestArrival _
  | .fabricAckReceive _ _ _ | .handlerEntry _ | .deferredTrapEntry _ | .rendezvousTimeout _ _ | .templateCrewCreate _ _ | .imageTake _ | .doorbellWrite _ _ _ _
  | .recordAdmission _ _ | .blockAssign _ | .blockDispatch _ | .cargoStaging _ | .blockWriteback _ | .blockRetirement _ | .launchCompletion _
  | .schedQdesc _ _ | .schedQstop _ _ | .balanceExchange _ | .quantumExpiry _ | .candidateReserve _ _ | .freezeSignal _ | .capture _ | .contextSave _
  | .restore _ _ | .manifestReplayStep _ | .watchdog _ | .shadowCompare _ | .shadowTimeout _ | .sactKillBlock _ | .sactKillContext _ | .pwaysWrite _ _
  | .pwaysChangeComplete _ | .registerWrite _ _ _ | .resizeMove _ | .interruptSourceEnable _ _ | .hostMemoryAccess _ | .pcieInboundWrite _ _ | .ideIntegrityFailure _
  | .migrationCut _ | .flitSend _ | .keyInstall _ _ _ _ _ | .flitIdleReceive _ _ | .flitDataReceive _ _ | .flitOpenReceive _ _ | .flitMarkerReceive _ _
  | .flitCutReceive _ _ | .flitAbortReceive _ _ | .linkRetrain _ | .linkLaneLoss _ _ | .dieBridgeFailure _ | .sliceTrip _ _ | .patrolRead _ _
  | .hbmtest _ _ | .logread _ _ | .powerPstate _ | .powerGate _ | .fwstage _ | .fwactivate | .bind _ _ _ _ | .release _ _ | .portmode _ _ _ | .coldReset _
  | .measurementRequest _ _ _ _ | .debugUnlock _ _ | .flitInvalidTypeReceive _ _ | .linkTrained _ _ _ | .spdmSessionEstablish _ _ _ _ | .spdmSessionEnd _
  | .tdispRequest _ _ | .debugBlockResume _ _ | .mailboxInvalidCode _ _ _ | .contextCreate _ _ _ _ | .contextDestroy _ | .rosterEstablish _ _ _
  | .ethernetFrameReceive _ _ => fun _ _ => .wait .operand

/-! ### Readiness (R14, R25) -/

/-- Whether a code names a register or queue entry that still waits for its value, in a lane (R25). -/
def Ctx.pendingCode (c : Ctx) (l : Nat) (k : BitVec 6) : Bool :=
  match c.srcVal l (Src.ofCode k) with
  | some v => v.pend.isSome
  | none => false

/-- Whether a word reads a register whose value has not come (R14, R25). -/
def Ctx.unready (c : Ctx) (i : Instr) : Bool :=
  let n := needs i
  (c.active.any fun l => n.vec.any (c.pendingCode l) || n.own.any fun k => ((c.regs.lane l).readDst k).pend.isSome)
  || (match n.dst with
      | none => false
      | some d => (c.crew.groupLanes c.grp).any fun l => !c.active.contains l && ((c.regs.lane l).readDst (Dst.ofCode d)).pend.isSome)
  || n.scal.any fun f => (c.getS f).pend.isSome

/-- The operand queues that a word pops (R28). -/
def popsOf (i : Instr) : List Nat := (needs i).vec.filterMap fun k => match Src.ofCode k with
  | .pop q => some q
  | _ => none

/-- Whether a pop waits for its element (R251, R271). -/
def Ctx.elementHeld (c : Ctx) (s : State) (i : Instr) : Bool :=
  !c.active.isEmpty && (popsOf i).any fun q => match tget c.crew.streams q with
    | none => false
    | some st => s.elementsHeld c.crew st

/-! ### Shadow mode (R463, R464, log 12) -/

/-- The size of a load-value queue (R464). -/
def lvqSize : Nat := 256

/-- How many entries a word of a lead puts into the load-value queue: one per pop, and one for its own result (R464). -/
def lvCount (i : Instr) : Nat :=
  (popsOf i).length + match shadowRole i with
    | .own => 0
    | .skip => 0
    | _ => 1

/-- How many entries the words of a chain group put into the load-value queue; a crew-uniform word with no active lane puts none (R111). -/
def chainLv (words : List (Instr × Ctx)) : Nat :=
  words.foldl (fun n x => if uniform x.1 && x.2.active.isEmpty then n else n + lvCount x.1) 0

/-- The first byte behind the part of a block's scratchpad that no other block shares: the stage channel begins there (R209, R210). -/
def Block.ownEnd (b : Block) : Nat := b.ts + b.p

/-- Whether an engine command writes outside its block's own scratchpad (R466). -/
def FerryCmd.writesOut (f : FerryCmd) (b : Block) : Bool :=
  let out (spad : Bool) (a : Nat) : Bool := !spad || b.ownEnd ≤ a
  let land : Bool := f.landVa.isSome || match f.landing with
    | some (.vault _) => true
    | some (.spad _ _ off) => b.ownEnd ≤ off
    | none => false
  let hidden (n : Nat) : Bool := match f.berthBase with
    | some (vault, a) => out (!vault) (a.toNat + n - 1)
    | none => true
  land || match f.op with
    | .fcopy => if (copyDesc f.desc).berth then hidden f.total else out (copyDesc f.desc).dstSpad (copyDesc f.desc).dst
    | .fgath => if (gathDesc f.desc).berth then hidden f.total else out (gathDesc f.desc).listSpad (gathDesc f.desc).list
    | .fscat => out (gathDesc f.desc).tableSpad (gathDesc f.desc).table
    | .fget => out (putDesc f.desc).spad (putDesc f.desc).loc
    | _ => true

/-- Whether a span lies outside the block's own scratchpad. -/
def Span.out (b : Block) : Span → Bool
  | .spad a => b.ownEnd ≤ a
  | .vault _ _ => true
  | .berth _ v b0 b1 off _ _ => v || b.ownEnd ≤ b0.toNat + off || b.ownEnd ≤ b1.toNat + off

/-- Whether a word has released a ticketed operation, a LAUNCH, or a write outside the block's own scratchpad, tiles and accumulators (R466). -/
def wentOut (i : Instr) (c : Ctx) (s t : State) : Bool :=
  let crew (x : State) : Crew := (tget x.crews c.cid).getD c.crew
  let isLaunch : Bool := match i with
    | .launch _ _ _ _ => true
    | _ => false
  let out (l : Loc) : Bool := match l with
    | .spad off => c.blk.ownEnd ≤ off
    | .vault _ => true
    | .berth _ v a b _ => v || c.blk.ownEnd ≤ a || c.blk.ownEnd ≤ b
  isLaunch || (crew t).seq != (crew s).seq
    || ((crew t).storeQ.drop (crew s).storeQ.length).any (fun e => match e.op with
      | .st ls => ls.any fun x => out x.2.1
      | .atom _ _ _ ls => ls.any fun x => out x.loc
      | .lnd _ l _ => out l)
    || ((t.core c.crew.core).ferry.any fun f => f.2.crew == c.cid && f.2.seq == c.crew.nextOp && f.2.writesOut c.blk)
    || (((((tget t.blocks c.blk.id).getD c.blk).side c.crew.side).queue.drop (c.blk.side c.crew.side).queue.length).any fun e => match e.op with
      | .accst _ d _ _ _ _ _ _ _ _ => d.out c.blk
      | .stt _ d _ => d.out c.blk
      | _ => false)

/-- The word of a lead: a releasing word that can issue waits until its shadow's has been compared (R464). -/
def leadWord (i : Instr) (p : ShadowPart) (c : Ctx) (s : State) : WordResult :=
  if c.ready then (match wordBody i c s with
    | .done t => .done (if wentOut i c s t then t.modBlock c.blk.id fun b => { b with released := true } else t)
    | r => r)
  else if !releasing i || p.granted then wordBody i c s
  else match wordBody i c s with
    | .done _ => .wait .shadow
    | r => r

/-- The word of a shadow: it runs on the shadow's own registers, or its effect is the lead's and what the lead received is taken from the load-value queue, first
what the word pops (R464). A trap is the lead's to take. -/
def shadowWord (i : Instr) (c : Ctx) (s : State) : WordResult :=
  let e : LvEnt := ((s.lvq c.crew)[(popsOf i).length]?).getD {}
  let take (n : Nat) : State := s.modLvq c.crew fun q => q.drop ((popsOf i).length + n)
  match shadowRole i with
  | .own => (match wordBody i c s with
    | .trap _ => .wait .follow
    | r => r)
  | .skip => .done (take 0)
  | .takeNone => .done (take 1)
  | .takeS d => .done ((take 1).writeS c d ((e.vals.head?.map fun x : Nat × RegVal × RegVal => x.2.1).getD {}))
  | .takeV d z =>
    let s := (take 1).pushWrite c d (e.vals.map fun x : Nat × RegVal × RegVal => (x.1, x.2.1))
    .done (if z == 4 then s.writeV c (d.toNat - 15) (e.vals.map fun x : Nat × RegVal × RegVal => (x.1, x.2.2)) else s)

/-- What a word's issue comes to (R14, R35, R36, R111). -/
def wordResult (i : Instr) (c : Ctx) (s : State) : WordResult :=
  if !i.wellFormed then .trap (c.fail .illegal c.active)
  else if uniform i && c.active.isEmpty then .done s
  else if !c.ready && c.unready i then .wait .operand
  else if !c.ready && c.elementHeld s i && !c.crew.isShadow then .wait .element
  else match c.crew.shadow with
    | none => wordBody i c s
    | some p => if p.isShadow then shadowWord i c s else leadWord i p c s

end Sys2Proof.Machine
end

