-- ==== Sys2Proof/Machine/Outstanding.lean ====
section
/-! DEFINITION. What a core has outstanding, as its manifests would record it (R391, R392, R399). -/

namespace Sys2Proof.Machine

/-- The KIND of an engine command's entry (R392). -/
def EngOp.entryKind : EngOp → Nat
  | .fatom => 3
  | .fput => 3
  | .fputs => 3
  | .nmc => 4
  | .collAllred => 5
  | .collAllgath => 5
  | .collRedscat => 5
  | .collBcast => 5
  | .collCbar => 5
  | .fcopy => 7
  | .fgath => 7
  | .fscat => 7
  | .fget => 7

/-- The lanes that a store-queue entry's payload lists. -/
def StoreEnt.payloadLanes (e : StoreEnt) : Nat :=
  match e.op with
  | .st ls => ls.length
  | .atom _ _ _ ls => ls.length
  | .lnd _ _ _ => 1

/-- LEN of an entry: its payload in units of 16 bytes (R391, R392). A flit is recorded in 15 units: its header and its payload. -/
def ManifestOp.len : ManifestOp → Nat
  | .storeQ e => 2 * e.payloadLanes
  | .engine c => if c.op.entryKind = 4 then 3 else if c.op.entryKind = 5 then 4 else 5
  | .reply r => 2 * r.ent.payloadLanes
  | .load l => l.lanes.length
  | .stream _ st => (40 + 4 * st.pos.length + 15) / 16
  | .tile _ => 5
  | .flits _ ps => 15 * ps.length

/-- Whether a manifest entry stands for an operation that is held nowhere else: streams and tile operations stay in their crew and queue. -/
def ManifestOp.alone : ManifestOp → Bool
  | .stream _ _ => false
  | .tile _ => false
  | _ => true

/-- The operations of a crew that a capture would record. -/
def State.outstandingOf (s : State) (c : Crew) : List ManifestOp :=
  (c.replay.map (·.op)).filter ManifestOp.alone ++ c.storeQ.map .storeQ ++ c.replies.map .reply ++ c.loads.map .load ++ c.streams.map (fun x => .stream x.1 x.2)
    ++ ((s.core c.core).ferry.filter fun f => f.2.crew == c.id).map (fun f => .engine f.2)
    ++ (((tget s.blocks c.block).map fun b : Block => ((b.side c.side).queue.filter fun e => e.crew == c.id && !e.guest).map fun e => ManifestOp.tile e.id).getD [])

/-- The bytes of the manifests of a core's crews. -/
def State.manifestBytes (s : State) (core : Nat) : Nat :=
  s.crews.foldl (fun n p => if p.2.core = core then (s.outstandingOf p.2).foldl (fun n o => n + 32 + 16 * o.len) n else n) 0

/-- The bytes of a manifest section (R398, R399). -/
def manifestSection : Nat := 2 ^ 19

/-- Whether the words of a chain group, each as it would act on the state as it stands, would leave more outstanding on their core than a manifest section can record
(R399, log 57). Three words add less than 8192 bytes, so nothing is tried while that much room is left. -/
def State.manifestFull (s : State) (core : Nat) (words : List (Instr × Ctx)) : Bool :=
  let now := s.manifestBytes core
  manifestSection < now + 8192 && manifestSection < words.foldl (fun n x => match wordResult x.1 { x.2 with ready := true } s with
    | .done t => n + (t.manifestBytes core - now)
    | _ => n) now

end Sys2Proof.Machine
end

