-- ==== Sys2Proof/Machine/Issue.lean ====
section
/-! DEFINITION. The issue streams: chain groups and how a word issues (R13-R16, R22, R217), the run check (R17-R20, R38), the choice among groups (R214, R215, R218), the end of a run (R21, R119), and the entries of handlers (R361, R366, R368). -/

namespace Sys2Proof.Machine

/-! ### Words in memory -/

/-- The instruction that a word is (R34, R35). -/
def instrOf (w : Word) : Instr :=
  match decode w with
  | .ok i => i
  | .error _ => .illegalOpcodeWord w

/-- The major opcode of a word. -/
def majorOf (w : Word) : Nat := (field w 25 6).toNat

/-- The word at which a group stands. -/
def State.groupWord (s : State) (c : Crew) (g : Group) : Option Word := (s.packetOf c.launch g).bind fun ws => ws[g.word]?

/-! ### Chain groups (R13, R14, R20) -/

/-- The word that follows in a group's chain group: the same packet's next, when the word chains to it and it is not of the opcodes that end a chain group (R13, R20). -/
def Ctx.chainNext (c : Ctx) : Option Word :=
  if c.word.getLsbD 31 && c.grp.word < 2 then
    match c.code[c.grp.word + 1]? with
    | some w => if 0x30 ≤ majorOf w then none else some w
    | none => none
  else none

/-- The group past a word of its chain group, with the guard that a GRD among them sets. -/
def Ctx.passed (c : Ctx) (i : Instr) : Group :=
  match i with
  | .grd _ p n k =>
    ({ c.grp with guards := c.grp.guards ++ [({ allow := guardAdmit c.regs c.crew.width p n, left := k.toNat + 2 } : Guard)] }).pass
  | _ => c.grp.pass

/-- The words of a chain group from a word on, each with the context in which it will issue (R14). -/
def Ctx.chainWords : Ctx → Nat → Instr → List (Instr × Ctx)
  | c, 0, i => [(i, c)]
  | c, n + 1, i => (i, c) :: match c.chainNext with
    | none => []
    | some w =>
      let g := c.passed i
      chainWords { c with grp := g, word := w, active := c.crew.activeLanes g } n (instrOf w)

/-- Whether a group is in the midst of issuing: between the words of a chain group, its own or one that issues jointly (R16, R164). -/
def Group.issuing (g : Group) : Bool := g.snap.isSome

/-- What holds a group back whatever its words are: its block or crew does not run, a trap of it is pending, or the halt of its block has stopped it
(R364, R380, R382, R394). A group in the midst of issuing is stopped by none of these but the end of its block (R16). -/
def State.canIssue (s : State) (b : Block) (c : Crew) (g : Group) : Bool :=
  g.trap.isNone && if g.issuing then b.state == .running
    else b.state == .running && !c.frozen && c.replay.isEmpty && c.sact == 0
      && (!g.halted || (g.skid < 16 && !s.blockInHandler b.id))

/-- Whether a word is a cross-lane word. -/
def isCross (w : Word) : Bool := majorOf w == 0x17 || majorOf w == 0x18

/-- Whether a chain group that waits at the context's cross-lane word may not issue yet: it is stopped, or another word of it waits (R14, R164). -/
def State.partnerWaits (s : State) (x : Ctx) (g : Group) : Bool :=
  !s.canIssue x.blk x.crew g || match s.groupWord x.crew g, s.arrived x g with
    | some w, some y =>
      (({ y with grp := g, word := w, active := x.crew.activeLanes g, code := (s.packetOf x.crew.launch g).getD [] } : Ctx).chainWords 2 (instrOf w)).any fun z =>
        !isCross z.2.word && match wordResult z.1 { z.2 with ready := false } s with
          | .wait v => v != .shadow
          | _ => false
    | _, _ => true

/-- Whether one of the chain groups that issue jointly with these words is not ready (R164). -/
def State.partnersWait (s : State) (words : List (Instr × Ctx)) : Bool :=
  match words.find? fun x => isCross x.2.word with
  | none => false
  | some (i, x) =>
    if x.handler || x.grp.joined.isSome || x.active.isEmpty || !i.wellFormed then false
    else
      let width := x.crew.width
      (((x.closure (tileWidth width x.grp.tileCode) (x.memberMask (field x.word 0 3)) width [x.grp]).drop 1).any (s.partnerWaits x))

/-- Whether a chain group of a pair waits for the other crew: a lead for room in the load-value queue, a shadow for its turn, or for what the lead receives (R464). -/
def State.pairWaits (s : State) (c : Ctx) (words : List (Instr × Ctx)) : Bool :=
  match c.crew.shadow with
  | none => false
  | some p =>
    let q := s.lvq c.crew
    let n := chainLv words
    if p.isShadow then !s.onTrail c.crew c.grp || q.length < n || (q.take n).any fun e : LvEnt => !e.left.isEmpty
    else lvqSize < q.length + n

/-- Why a chain group does not issue yet: the first wait among its words, all read as they stand before it (R14); or a chain group that would issue
jointly with it is not ready (R164); or its core's manifests have no room for what it would leave outstanding (R399); or the other crew of a shadow pair holds it
back, last of all by the comparison (R464). -/
def State.chainWait (s : State) (c : Ctx) (i : Instr) : Option Wait :=
  let words := c.chainWords 2 i
  let waits := words.filterMap fun x => match wordResult x.1 { x.2 with ready := false } s with
    | .wait w => some w
    | _ => none
  match waits.find? fun w => w != .shadow with
  | some w => some w
  | none =>
    if s.partnersWait words then some .rendezvous
    else if s.manifestFull c.crew.core words then some .manifest
    else if s.pairWaits c words then some .follow
    else waits.head?

/-! ### What a lead and its shadow compare (R464) -/

/-- The scalar that names what a word itself reads on chip, a descriptor or a landing, with its size. -/
def readAtIssue : Instr → Option (BitVec 5 × Nat)
  | .fcopy _ _ a _ _ | .fgath _ _ a _ _ | .fscat _ _ a _ _ => some (a, 64)
  | .fatom _ _ a _ _ | .nmc _ _ a _ | .berthSet _ _ a | .strmSet _ a _ => some (a, 32)
  | .fput _ _ a _ _ | .fputs _ _ a _ _ | .fget _ _ a _ _ => some (a, 64)
  | .collAllred _ _ a _ _ | .collAllgath _ _ a _ _ | .collRedscat _ _ a _ _ | .collBcast _ _ a _ _ | .collCbar _ _ a _ _ => some (a, 64)
  | .launch _ _ a _ => some (a, 128)
  | .lndWait _ a _ _ => some (a, 16)
  | .lndTest _ _ a _ => some (a, 16)
  | _ => none

/-- The lane addresses of a memory word. -/
def heldAddrs (i : Instr) (vals : List (Nat × List RegVal)) : List (Nat × DWord) :=
  match i with
  | .st _ _ _ _ z _ _ m => vals.map fun v => (v.1, laneAddr (opnd v.2 0) m (memSize z) v.1)
  | .atom _ _ _ _ z _ _ m => vals.map fun v => (v.1, laneAddr (opnd v.2 0) m (memSize z) v.1)
  | _ => []

/-- The operands of a word's active lanes as they are compared; a shadow's pops give what the lead's gave (R464). -/
def Ctx.heldVals (c : Ctx) (s : State) (codes : List (BitVec 6)) (lead : List (Nat × List RegVal)) : List (Nat × List RegVal) :=
  if c.crew.isShadow then
    let srcs := codes.map Src.ofCode
    let pops (l : Nat) : List (Nat × PopVal) := (srcs.zipIdx.filter fun x => match x.1 with
      | .pop _ => true
      | _ => false).map fun x => (x.2, .elem (((tget lead l).getD []).getD x.2 {}))
    c.active.map fun l => (l, c.laneVals l srcs (pops l))
  else match c.operands s codes with
    | .ok o => o.vals
    | .error _ => []

/-- One releasing word of a chain group as it is compared; viewer is the crew whose stores a descriptor's reader sees, the lead, and lead what it popped. -/
def State.heldWord (s : State) (i : Instr) (c : Ctx) (viewer : Crew) (lead : List (Nat × List RegVal)) : HeldWord :=
  let n := needs i
  let vals := c.heldVals s n.vec lead
  let own (l : Nat) : List RegVal := n.own.map fun k => (c.regs.lane l).readDst k
  { word := c.word, packet := c.grp.packet, wpos := c.grp.word, mask := maskOf c.active
    addrs := heldAddrs i vals, data := vals.map fun v => (v.1, v.2 ++ own v.1)
    operands := n.scal.map c.getS
    descr := match readAtIssue i with
      | some (a, k) => s.crewBytes viewer viewer.nextOp (.spad c.blk.id c.crew.side (c.getS a).toAddress.toNat) k
      | none => [] }

/-- A lead's chain group that waits for the comparison is held, once (R464). -/
def State.holdChain (s : State) (c : Ctx) (i : Instr) : State :=
  let ws := ((c.chainWords 2 i).filter fun x => releasing x.1).map fun x => s.heldWord x.1 x.2 c.crew []
  s.modCrew c.cid fun w => { w with shadow := w.shadow.map fun p : ShadowPart =>
    if p.held.isSome || p.granted then p else { p with held := some { lanes := c.grp.lanes, words := ws, since := (s.core c.crew.core).clk } } }

/-! ### Parking and issuing (R22, R217) -/

/-- The waits at which a group parks and leaves its stream; at an operand it stalls in place (R22, R217). The two crews of a shadow pair leave their streams
when they wait for each other, so that two pairs of one half cannot hold both streams against their shadows (log 12). -/
def Wait.parks : Wait → Bool
  | .operand => false
  | _ => true

/-- A chain group that does not issue now: it stalls in place or parks; a rendezvous wait begins to count (R166, R217). -/
def State.park (s : State) (c : Ctx) (i : Instr) (w : Wait) : State :=
  let clk := (s.core c.crew.core).clk
  let s := s.modGrp c fun g => { g with
    wait := some w
    since := if w == .rendezvous then g.since.orElse (fun _ => some (if g.halted then 0 else clk)) else none }
  let s := if w == .shadow then s.holdChain c i else s
  if w.parks then s.dropStreams fun k g => k == c.cid && g == c.grp.id else s

/-- Whether the context's group may issue its next word. -/
def State.mayIssue (s : State) (c : Ctx) : Bool := s.canIssue c.blk c.crew c.grp && c.grp.final.isSome && !c.grp.atEnd

/-- The deferred trap that is due at the chain group a context stands at (R361). A group whose cross-lane word has issued jointly ends that chain group first (R164). -/
def Ctx.dueTrap (c : Ctx) : Option TrapInfo :=
  if c.crew.handler.isSome || c.grp.joined.isSome then none
  else c.crew.deferred.head?.map fun d => c.crew.deferredAt c.grp d

/-- A deferred trap taken at the group of a context (R361). -/
def State.takeDue (s : State) (c : Ctx) (t : TrapInfo) : State :=
  (s.modCrew c.cid fun w => { w with deferred := w.deferred.drop 1 }).raiseTrap c.cid c.grp.id t

/-- A group whose chain group begins: what its words read is kept as it stands (R14). -/
def Ctx.beginIn (c : Ctx) (g : Group) : Group :=
  { g with snap := some c.crew.regs, snapFill := g.fill, snapQueues := c.crew.streams, snapShapes := c.shapes }

/-- The chain group of a context begins: when it has more than one word, the registers are kept as they stand (R14). -/
def State.beginChain (s : State) (c : Ctx) : State :=
  if c.chainNext.isSome then s.modGrp c (Ctx.beginIn c) else s

/-- The end of a chain group: the core's clock, the skid of a halted group, what was held for comparison (R364, R464, log 6). -/
def State.endChain (s : State) (c : Ctx) : State :=
  let s := s.modGrp c fun g => { g with snap := none, skid := if g.halted then g.skid + 1 else g.skid }
  let s := if c.grp.halted then s.modCrew c.cid fun w => { w with skids := w.skids + 1 } else s
  let s := s.modCore c.crew.core fun r => { r with clk := r.clk + 1 }
  let s := if c.crew.shadow.isNone then s else (s.modCrew c.cid fun w => { w with
    shadow := w.shadow.map fun p : ShadowPart => { p with held := none, granted := false } }).trailStep c.crew c.grp
  if c.grp.halted then s.settleTraps c.blk.id else s

/-- A word has issued: the group moves past it (R15, R124), and keeps the packet until it leaves it (R11). -/
def State.passWord (s : State) (c : Ctx) (more : Bool) : State :=
  let s := s.modGrp c fun g =>
    let h := g.pass
    { h with wait := none, code := if h.packet == c.grp.packet && !c.code.isEmpty then some (h.packet, c.code) else none }
  if more then s else s.endChain c

/-- The errors that a word's own reads detect: its descriptor or landing, and the elements that it pops and that were not fetched ahead (R460). -/
def State.detectWord (s : State) (i : Instr) (c : Ctx) : State :=
  let s := match readAtIssue i with
    | none => s
    | some (a, n) =>
      let x := (c.getS a).bits
      match s.addrCheck c.env (if n = 16 && x.getLsbD 0 then 1 else 0) (BitVec.ofNat 64 (x.toNat / 16 * 16)) n false with
      | .ok loc _ => s.detect c.crew.core c.pid c.crew.launch (s.placeOf c.crew false loc) n
      | _ => s
  let s := match i with
    | .rteRetry _ | .rteCommit _ | .rteSkip _ => s.detectFrame c.crew
    | _ => s
  let pops := (((needs i).vec.map Src.ofCode).filterMap fun x => match x with
    | .pop k => some k
    | _ => none).eraseDups
  if c.crew.isShadow then s
  else pops.foldl (fun s k => match tget c.queues k with
    | none => s
    | some st => c.active.foldl (fun s l =>
        let n := st.pos.getD l 0
        if st.fetched.any fun f => f.1 == l && f.2.1 == n then s else s.detectElem c.env c.crew (streamDesc st.desc) n l) s) s

/-- The word of a context issues (R14, R15): its effect, or its trap, or a wait that a shadow still has. -/
def State.runWord (s : State) (i : Instr) (c : Ctx) : State :=
  let read := s.detectWord i c
  match wordResult i { c with ready := true } read with
  | .wait w => s.park c i w
  | .trap t => read.raiseTrap c.cid c.grp.id t
  | .done s' => s'.passWord c c.chainNext.isSome

/-- The group of a context issues a word: within a chain group at once, and at its beginning when no word of it waits; a deferred trap that is due
is then taken in its place (R14, R22, R361). -/
def State.issueAt (s : State) (i : Instr) (c : Ctx) : State :=
  if c.grp.snap.isSome then s.runWord i c
  else match s.chainWait c i with
    | some w => s.park c i w
    | none => match c.dueTrap with
      | some t => s.takeDue c t
      | none => (s.beginChain c).runWord i c

/-- The group that the focus stream carries issues a word. -/
def issueWord (i : Instr) (s : State) : Host.Outcome State Fault Refusal :=
  match s.ctx? i with
  | none => .refused .noIssue
  | some c => if s.mayIssue c then .next (s.issueAt i c) else .refused .noIssue

/-- An event's meaning from what it does, where it can take place. -/
def enabledEvent (r : Option State) : Host.Outcome State Fault Refusal :=
  match r with
  | some s => .next s
  | none => .refused .notEnabled

/-! ### The run check (R17-R20, R38) -/

/-- Whether a word is a TRL: major opcode 0x00, sub-op 1 (R37). One that R35 makes ILLEGAL by a reserved bit counts as a TRL here (log 52). -/
def isTrl (w : Word) : Bool := majorOf w == 0 && (field w 21 4).toNat == 1

/-- The packets of a run from a packet address, to the first that holds a TRL, at most n; none where one is not mapped (R17, R19). -/
def State.runPackets (s : State) (lid : Nat) (p : DWord) : Nat → Option (List (List Word))
  | 0 => some []
  | n + 1 =>
    match s.fetchPacket lid p with
    | some ws => if ws.any isTrl then some [ws] else (s.runPackets lid (p + 1) n).map fun rest => ws :: rest
    | none => none

/-- Whether a packet satisfies the chain rule; words of the opcodes 0x30-0x3F are not looked at (R13, R20). -/
def chainRule : List Word → Bool
  | [a, b, c] =>
    let joins (x y : Word) : Bool := majorOf x < 0x30 && x.getLsbD 31 && majorOf y < 0x30
    let differ (x y : Word) : Bool := pipeOf (majorOf x) != pipeOf (majorOf y)
    (!joins a b || differ a b) && (!joins b c || differ b c) && (!(joins a b && joins b c) || differ a c)
      && !(majorOf c < 0x30 && c.getLsbD 31)
  | _ => false

/-- Whether the trailer of the final packet is well formed: one TRL with C = 0, and zero words after it (R18). -/
def trailerRule (ws : List Word) : Bool :=
  (ws.filter isTrl).length == 1
    && (match ws.dropWhile fun w => !isTrl w with
        | t :: rest => !t.getLsbD 31 && rest.all (· == 0)
        | [] => false)

/-- Whether the run holds at most one control transfer, in its final packet before the TRL (R18). A word with a reserved bit set decodes to no control
transfer and does not count; one with a field value that R33 marks illegal counts (log 52). -/
def controlRule (before last : List Word) : Bool :=
  before.all (fun w => !isTransfer (instrOf w))
    && ((last.takeWhile fun w => !isTrl w).filter fun w => isTransfer (instrOf w)).length ≤ 1
    && ((last.dropWhile fun w => !isTrl w).all fun w => !isTransfer (instrOf w))

/-- Whether every GRD's range lies within the run (R38); a GRD with a reserved bit set does not count (log 52). -/
def guardRule : List Word → Bool
  | [] => true
  | w :: ws => (match instrOf w with
      | .grd _ _ _ k => k.toNat + 1 ≤ ws.length
      | _ => true) && guardRule ws

/-- What the run check finds: the number of packets, or the DETAIL of RUNLEN (R18-R20, R38, R359). -/
def runCheck (ps : List (List Word)) : Except Nat Nat :=
  let last := ps.getLastD []
  if !last.any isTrl then .error 1
  else if !trailerRule last then .error 2
  else if !ps.all chainRule then .error 3
  else if !controlRule ps.dropLast.flatten last then .error 4
  else if !guardRule ps.flatten then .error 5
  else .ok ps.length

/-! ### Selection (R214, R215, R218) -/

/-- Whether a stream carries a group. -/
def State.isCarried (s : State) (c : Crew) (gid : Nat) : Bool := (s.core c.core).streams.any fun x => x.2 == (c.id, gid)

/-- Whether the registers that the last trailer named have their values (R24). -/
def Crew.trailerReady (c : Crew) (g : Group) : Bool :=
  (c.groupLanes g).all fun l => g.trailer.all fun k => match Dst.ofCode k with
    | .v r => ((c.regs.lane l).getV r).pend.isNone
    | .h r => ((c.regs.lane l).getH r).pend.isNone
    | _ => true

/-- Whether every store of a crew has performed, as a return from the handler demands (R375). -/
def Crew.storesDone (c : Crew) : Bool := c.storeQ.isEmpty

/-- Whether a group at the end of its run may go on: a FREEZE that waits goes on by IMAGE_TAKE, a return waits for the crew's stores (R134, R375), and a shadow for
its lead. -/
def State.endReady (s : State) (c : Crew) (g : Group) : Bool :=
  s.onTrail c g && match g.transfer.map fun t : Transfer => t.kind with
  | some (.freeze _) => g.wait.isNone
  | some (.rte _) => c.storesDone
  | _ => true

/-- Whether a group that stands at a word, parked or not, may go on there (R214, R217). -/
def State.wordReady (s : State) (r : StreamRef) (c : Crew) (g : Group) : Bool :=
  match s.groupWord c g with
  | none => false
  | some w => match s.ctxOf r c.id g.id w with
    | none => false
    | some x => g.snap.isSome || g.wait.isNone || (s.chainWait x (instrOf w)).isNone

/-- Whether a group is eligible for a stream (R214). -/
def State.eligible (s : State) (r : StreamRef) (c : Crew) (g : Group) : Bool :=
  match tget s.blocks c.block with
  | none => false
  | some b =>
    c.core == r.core && c.half == r.half && s.canIssue b c g && !s.isCarried c g.id
      && if g.atEnd then s.endReady c g
         else if g.final.isNone then c.trailerReady g && s.onTrail c g && g.wait != some .follow
         else s.wordReady r c g

/-- The eligible groups of a stream's half, with their crews. -/
def State.eligibles (s : State) (r : StreamRef) : List (Crew × Group) :=
  s.crews.flatMap fun p => (p.2.groups.filter fun g => s.eligible r p.2 g).map fun g => (p.2, g)

/-- The clock of a launch's home scheduler, going on from that of a former home (R352, R486). -/
def State.homeClock (s : State) (l : Launch) : Nat := (((s.slice l.home).clk : Int) + l.clkShift).toNat

/-- The effective priority of a launch, by the clock of its home scheduler (R352). -/
def State.effPrio (s : State) (l : Launch) : Nat := min l.ceil (l.prio + (s.homeClock l - l.readyAt) / 2 ^ 22)

/-- The keys of R215 as numbers, of which the smaller is preferred, from the first key on. -/
def State.selectKeys (s : State) (r : StreamRef) (c : Crew) (g : Group) : List Nat :=
  let other := (tget (s.core r.core).streams (2 * r.half + (1 - r.stream))).bind fun x => tget s.crews x.1
  let lanes := c.groupLanes g
  [ match g.owed with
    | some k => k
    | none => s.nextId
  , if g.yielded then 1 else 0
  , 32 - ((tget s.launches c.launch).map s.effPrio).getD 0
  , 64 - lanes.length
  , if (other.map fun o : Crew => o.slot) == some c.slot then 0 else 1
  , c.idx
  , lanes.headD 0 ]

/-- Whether one list of keys stands before another. -/
def keysBefore : List Nat → List Nat → Bool
  | a :: as, b :: bs => a < b || (a == b && keysBefore as bs)
  | _, _ => false

/-- The group that a stream selects (R215). The spec names no key after the six: among groups equal in them all the one of the crew that comes first by its number is taken,
a DESIGN CHOICE (log 52). -/
def State.selected (s : State) (r : StreamRef) : Option (Crew × Group) :=
  match s.eligibles r with
  | [] => none
  | x :: xs => some (xs.foldl (fun m y => if keysBefore (s.selectKeys r y.1 y.2) (s.selectKeys r m.1 m.2) then y else m) x)

/-- The other eligible groups count an opportunity passed over; at 64 a group becomes owed (R218). -/
def State.passOver (s : State) (others : List (Crew × Group)) : State :=
  let stamp := s.nextId
  let s := others.foldl (fun s x => s.modGroup x.1.id x.2.id fun g =>
    let n := min 64 (g.passed + 1)
    { g with passed := n, owed := if n = 64 then g.owed.orElse (fun _ => some stamp) else g.owed }) s
  { s with nextId := stamp + 1 }

/-- A group goes on a stream: its counts and its marker are cleared (R215, R218). -/
def State.carry (s : State) (r : StreamRef) (cid gid : Nat) : State :=
  let s := s.modGroup cid gid fun g => { g with passed := 0, owed := none, yielded := false, wait := none }
  s.modCore r.core fun x => { x with streams := tput x.streams (2 * r.half + r.stream) (cid, gid) }

/-- The sectors of a launch's code filled as they are fetched: a world's into a protected way, its tag verified; an error found is recorded (R419, R421, R460). -/
def State.fillCode (s : State) (lid slice : Nat) (p : DWord) (n : Nat) : State :=
  let pid := s.pidOf lid
  let ends := if n = 0 then [] else [12 * p.toNat, 12 * p.toNat + 12 * n - 1]
  let ks := (ends.filterMap fun va => match s.xlate pid va false with
    | .ok (false, pa) => some (pa / 256, va)
    | _ => none)
  let ks := match ks with
    | [a, b] => if a.1 = b.1 then [a] else [a, b]
    | _ => ks
  ks.foldl (fun s x => match tget s.partitions pid with
    | none => s
    | some q =>
      let opens := s.ownSeal lid x.2 1
      let e : ErrRec := { type := 1, aval := true, slice := s.homeSlice pid (256 * x.1), addr := BitVec.ofNat 64 (x.2 / 256 * 256), info := BitVec.ofNat 64 (q.gm.errCode x.1) }
      let s := if q.gm.uncorr.contains x.1 then (s.modPartition pid fun p => { p with gm := p.gm.detect x.1 }).report [pid] e .guest
        else if opens.any (fun o => !q.gm.verifies x.1 o) && !q.gm.poison.contains x.1 then
          (s.modPartition pid fun p => { p with gm := { p.gm with poison := ninsert p.gm.poison x.1 } }).report [pid] { e with type := 3, info := 0 } .guest
        else s.correctSector pid x.1
      s.fillProtected slice pid x.1 opens) s

/-- A run begins: the check before its first word, the tile width it uses, and RUNLEN when it is not well formed (R19, R73). -/
def State.startRun (s : State) (r : StreamRef) (c : Crew) (g : Group) : Option State :=
  match s.runPackets c.launch g.packet 8 with
  | none => none
  | some ps => match runCheck ps with
    | .ok n => some ((((s.fillCode c.launch (r.core / 32) g.packet n).modGroup c.id g.id fun g => { g with
        runStart := g.packet, word := 0, final := some (g.packet + BitVec.ofNat 64 (n - 1)), fill := 0, trailer := []
        tileCode := c.regs.tile }).carry r c.id g.id).trailStep c g)
    | .error d =>
      let w := (ps.headD []).headD 0
      let m := maskOf (c.groupLanes g)
      some ((s.modGroup c.id g.id fun g => { g with passed := 0, owed := none, yielded := false }).raiseTrap c.id g.id {
        cause := .runlen, packet := g.packet, word := 0, mask := m, info := trapDetail w d 0, amask := m })

/-- An issue opportunity: a free stream selects a group, which begins a run or goes on with one (R215, R218). -/
def issueOpportunity (r : StreamRef) (s : State) : Host.Outcome State Fault Refusal :=
  if (tget (s.core r.core).streams (2 * r.half + r.stream)).isSome || 2 ≤ r.half || 2 ≤ r.stream then .refused .notEnabled
  else match s.selected r with
    | none => .refused .notEnabled
    | some (c, g) =>
      let others := (s.eligibles r).filter fun x => !(x.1.id == c.id && x.2.id == g.id)
      let s := { s.passOver others with focus := some r }
      if g.atEnd || g.final.isSome then .next (s.carry r c.id g.id)
      else match s.startRun r c g with
        | some s => .next s
        | none => .fault .fetchUnmapped

/-! ### The end of a run (R21, R119, R130, R134, R375) -/

/-- The BOUNDS trap of a transfer to packets that are not valid, taken at run end (R10, R119). -/
def State.badTarget (s : State) (c : Crew) (g : Group) (t : Transfer) (bad : List (Nat × DWord)) : TrapInfo :=
  let w := (s.groupWord c { g with packet := t.packet, word := t.word }).getD 0
  { cause := .bounds, packet := t.packet, word := t.word, mask := maskOf (bad.map (·.1)), addr := (bad.headD (0, 0)).2
    info := trapDetail w 0 0, defer := true, amask := t.active }

/-- A crew whose last lane has exited owes its deferred traps no longer to a handler: the block dies of the first of them (R362). -/
def State.endCrew (s : State) (cid : Nat) : State :=
  match tget s.crews cid with
  | none => s
  | some c =>
    if !c.groups.isEmpty then s
    else match c.deferred with
      | [] => s
      | d :: _ => (s.modCrew cid fun w => { w with deferred := [] }).owe cid d

/-- A group leaves its run, a shadow's when its lead's has. -/
def State.endRun (s : State) (c : Crew) (g : Group) : State :=
  let next := g.final.getD g.packet + 1
  let lanes := c.groupLanes g
  if !s.onTrail c g then (s.modGroup c.id g.id fun g => { g with wait := some .follow }).dropStreams fun k x => k == c.id && x == g.id
  else
  let left := s.trailStep c g
  match g.transfer with
  | none => left.leaveRun c.id g [] (lanes.map fun l => (l, next))
  | some t => match t.kind with
    | .jump take dest =>
      let goal (l : Nat) : DWord := if take.getLsbD l then (tget dest l).getD next else next
      match (lanes.filter fun l => take.getLsbD l && !validPacket (goal l)).map fun l => (l, goal l) with
      | [] => left.leaveRun c.id g [] (lanes.map fun l => (l, goal l))
      | bad => s.raiseTrap c.id g.id (s.badTarget c g t bad)
    | .exit mask =>
      (left.leaveRun c.id g (lanes.filter mask.getLsbD) ((lanes.filter fun l => !mask.getLsbD l).map fun l => (l, next))).endCrew c.id
    | .freeze _ => (s.modGroup c.id g.id fun g => { g with wait := some .freeze }).dropStreams fun k x => k == c.id && x == g.id
    | .rte form =>
      if c.storesDone then s.returnFrom c.id g.id form
      else (s.modGroup c.id g.id fun g => { g with wait := some .rte }).dropStreams fun k x => k == c.id && x == g.id

/-- The end of the run of the group that the focus stream carries. -/
def runEnd (s : State) : Option State :=
  match s.focus with
  | none => none
  | some r => match s.carried r with
    | none => none
    | some (cid, gid) => match tget s.crews cid with
      | none => none
      | some c => match c.group? gid, tget s.blocks c.block with
        | some g, some b => if g.atEnd && s.canIssue b c g then some (s.endRun c g) else none
        | _, _ => none

/-! ### Handler entry, deferred traps, rendezvous time-out (R166, R361, R366, R368) -/

/-- The next pending trap of a crew's block is entered, when it is that crew's (R366, R368). -/
def State.handlerEntry (s : State) (cid : Nat) : Option State :=
  match tget s.crews cid with
  | none => none
  | some c =>
    if s.entryHeld c.block then none
    else match s.nextTrap c.block with
      | none => none
      | some (w, g, _) => if w.id == cid && w.queueReady g then some (s.settleTraps c.block) else none

/-- A deferred trap is taken at the chain group that the crew's group on the focus stream would issue (R361). -/
def State.deferredEntry (s : State) (cid : Nat) : Option State :=
  match s.focus with
  | none => none
  | some r => match s.carried r with
    | none => none
    | some (k, gid) =>
      if k != cid then none
      else match s.ctxOf r k gid 0 with
        | none => none
        | some c =>
          match s.groupWord c.crew c.grp with
          | none => none
          | some w =>
            let c := { c with word := w }
            if !s.mayIssue c || c.grp.snap.isSome || (s.chainWait c (instrOf w)).isSome then none
            else c.dueTrap.map (s.takeDue c)

/-- The members of a waiting group's lanes, in their own tiles, that have neither exited nor come to its word (R166). -/
def State.missing (s : State) (c : Ctx) (m : BitVec 3) : List Nat :=
  let mask := c.memberMask m
  let tile := tileWidth c.crew.width c.grp.tileCode
  let own := c.crew.groupLanes c.grp
  let tiles := (own.filter fun l => mask.getLsbD l).map (· / tile)
  ((c.elsewhere tile mask own [c.grp.id]).filter fun g => (s.arrived c g).isNone).flatMap fun g =>
    (c.crew.groupLanes g).filter fun l => mask.getLsbD l && tiles.contains (l / tile)

/-- The member-mask code of a cross-lane word. -/
def maskCode (w : Word) : BitVec 3 := field w 0 3

/-- Whether a waiting group was the first to wait at its rendezvous (R166). -/
def State.firstWaiting (s : State) (c : Ctx) (m : BitVec 3) : Bool :=
  let others := (c.closure (tileWidth c.crew.width c.grp.tileCode) (c.memberMask m) c.crew.width [c.grp]).drop 1
  others.all fun g => (s.arrived c g).isNone || (g.since.all fun t => c.grp.since.all fun u => u ≤ t)

/-- A rendezvous whose first waiting group has waited 2^24 cycles traps with RVTO in that group (R166, R365). The trap names the group's chain group,
of which no word has issued (R15, R361). -/
def State.rendezvousTimeout (s : State) (cid gid : Nat) : Option State :=
  match tget s.crews cid with
  | none => none
  | some c => match c.group? gid with
    | none => none
    | some g =>
      let clk := (s.core c.core).clk
      if g.wait != some .rendezvous || g.halted || g.trap.isSome || g.joined.isSome || c.frozen || c.isShadow
        || !(g.since.map fun t => decide (t + 2 ^ 24 ≤ clk)).getD false then none
      else match s.reach c g 3 with
        | none => none
        | some h => match s.groupWord c h with
          | none => none
          | some w => match s.ctxOf { core := c.core, half := c.half, stream := 0 } cid gid w with
            | none => none
            | some x =>
              let y := { x with grp := h, active := c.activeLanes h }
              if !s.firstWaiting y (maskCode w) then none
              else some (s.raiseTrap cid gid {
                cause := .rvto, packet := g.packet, word := g.word, mask := maskOf (s.missing y (maskCode w))
                info := trapDetail w 0 0, defer := true, amask := maskOf x.active })

end Sys2Proof.Machine
end

