-- ==== Sys2Proof/Machine/Meanings.lean ====
section
/-! DEFINITION. The meaning of every instruction word: the group that the focus stream carries issues it (Machine/Issue.lean), with the effect that wordBody gives it. One definition for each constructor of Instr. -/

namespace Sys2Proof.Machine

/-- NOP (R137). -/
def execNop (c : BitVec 1) (s0 : State) : Host.Outcome State Fault Refusal := issueWord (.nop c) s0

/-- TRL (R24). -/
def execTrl (c : BitVec 1) (x : BitVec 6) (y : BitVec 6) (z : BitVec 6) (s0 : State) : Host.Outcome State Fault Refusal := issueWord (.trl c x y z) s0

/-- GRD (R124). -/
def execGrd (c : BitVec 1) (p : BitVec 3) (n : BitVec 1) (k : BitVec 3) (s0 : State) : Host.Outcome State Fault Refusal := issueWord (.grd c p n k) s0

/-- WAITC (R127). -/
def execWaitc (c : BitVec 1) (l : BitVec 4) (s : BitVec 4) (y : BitVec 6) (t : BitVec 4) (s0 : State) : Host.Outcome State Fault Refusal := issueWord (.waitc c l s y t) s0

/-- YIELD (R129). -/
def execYield (c : BitVec 1) (s0 : State) : Host.Outcome State Fault Refusal := issueWord (.yield c) s0

/-- EXIT (R130). -/
def execExit (c : BitVec 1) (s0 : State) : Host.Outcome State Fault Refusal := issueWord (.exit c) s0

/-- FREEZE (R132). -/
def execFreeze (c : BitVec 1) (l : BitVec 2) (s0 : State) : Host.Outcome State Fault Refusal := issueWord (.freeze c l) s0

/-- SETRL (R135). -/
def execSetrl (c : BitVec 1) (i : BitVec 21) (s0 : State) : Host.Outcome State Fault Refusal := issueWord (.setrl c i) s0

/-- ELECT (R136). -/
def execElect (c : BitVec 1) (p : BitVec 3) (s0 : State) : Host.Outcome State Fault Refusal := issueWord (.elect c p) s0

/-- BR (R120). -/
def execBr (c : BitVec 1) (i : BitVec 25) (s0 : State) : Host.Outcome State Fault Refusal := issueWord (.br c i) s0

/-- BRC (R121). -/
def execBrc (c : BitVec 1) (k : BitVec 3) (a : BitVec 5) (i : BitVec 17) (s0 : State) : Host.Outcome State Fault Refusal := issueWord (.brc c k a i) s0

/-- BRP (R120). -/
def execBrp (c : BitVec 1) (p : BitVec 3) (n : BitVec 1) (i : BitVec 21) (s0 : State) : Host.Outcome State Fault Refusal := issueWord (.brp c p n i) s0

/-- CALL (R122). -/
def execCall (c : BitVec 1) (i : BitVec 25) (s0 : State) : Host.Outcome State Fault Refusal := issueWord (.call c i) s0

/-- JMPI (R123). -/
def execJmpi (c : BitVec 1) (a : BitVec 6) (s0 : State) : Host.Outcome State Fault Refusal := issueWord (.jmpi c a) s0

/-- RET (R123). -/
def execRet (c : BitVec 1) (s0 : State) : Host.Outcome State Fault Refusal := issueWord (.ret c) s0

/-- JMPI_L (R123). -/
def execJmpiL (c : BitVec 1) (a : BitVec 6) (s0 : State) : Host.Outcome State Fault Refusal := issueWord (.jmpiL c a) s0

/-- SADD (R115). -/
def execSadd (c : BitVec 1) (d : BitVec 5) (a : BitVec 5) (b : BitVec 5) (s0 : State) : Host.Outcome State Fault Refusal := issueWord (.sadd c d a b) s0

/-- SSUB (R115). -/
def execSsub (c : BitVec 1) (d : BitVec 5) (a : BitVec 5) (b : BitVec 5) (s0 : State) : Host.Outcome State Fault Refusal := issueWord (.ssub c d a b) s0

/-- SMUL (R115). -/
def execSmul (c : BitVec 1) (d : BitVec 5) (a : BitVec 5) (b : BitVec 5) (s0 : State) : Host.Outcome State Fault Refusal := issueWord (.smul c d a b) s0

/-- SMULH (R115). -/
def execSmulh (c : BitVec 1) (d : BitVec 5) (a : BitVec 5) (b : BitVec 5) (s0 : State) : Host.Outcome State Fault Refusal := issueWord (.smulh c d a b) s0

/-- SMULHN (R115). -/
def execSmulhn (c : BitVec 1) (d : BitVec 5) (a : BitVec 5) (b : BitVec 5) (s0 : State) : Host.Outcome State Fault Refusal := issueWord (.smulhn c d a b) s0

/-- SAND (R115). -/
def execSand (c : BitVec 1) (d : BitVec 5) (a : BitVec 5) (b : BitVec 5) (s0 : State) : Host.Outcome State Fault Refusal := issueWord (.sand c d a b) s0

/-- SOR (R115). -/
def execSor (c : BitVec 1) (d : BitVec 5) (a : BitVec 5) (b : BitVec 5) (s0 : State) : Host.Outcome State Fault Refusal := issueWord (.sor c d a b) s0

/-- SXOR (R115). -/
def execSxor (c : BitVec 1) (d : BitVec 5) (a : BitVec 5) (b : BitVec 5) (s0 : State) : Host.Outcome State Fault Refusal := issueWord (.sxor c d a b) s0

/-- SSHL (R115). -/
def execSshl (c : BitVec 1) (d : BitVec 5) (a : BitVec 5) (b : BitVec 5) (s0 : State) : Host.Outcome State Fault Refusal := issueWord (.sshl c d a b) s0

/-- SSHR (R115). -/
def execSshr (c : BitVec 1) (d : BitVec 5) (a : BitVec 5) (b : BitVec 5) (s0 : State) : Host.Outcome State Fault Refusal := issueWord (.sshr c d a b) s0

/-- SSRA (R115). -/
def execSsra (c : BitVec 1) (d : BitVec 5) (a : BitVec 5) (b : BitVec 5) (s0 : State) : Host.Outcome State Fault Refusal := issueWord (.ssra c d a b) s0

/-- SMIN (R115). -/
def execSmin (c : BitVec 1) (d : BitVec 5) (a : BitVec 5) (b : BitVec 5) (s0 : State) : Host.Outcome State Fault Refusal := issueWord (.smin c d a b) s0

/-- SMAX (R115). -/
def execSmax (c : BitVec 1) (d : BitVec 5) (a : BitVec 5) (b : BitVec 5) (s0 : State) : Host.Outcome State Fault Refusal := issueWord (.smax c d a b) s0

/-- SMINN (R115). -/
def execSminn (c : BitVec 1) (d : BitVec 5) (a : BitVec 5) (b : BitVec 5) (s0 : State) : Host.Outcome State Fault Refusal := issueWord (.sminn c d a b) s0

/-- SMAXN (R115). -/
def execSmaxn (c : BitVec 1) (d : BitVec 5) (a : BitVec 5) (b : BitVec 5) (s0 : State) : Host.Outcome State Fault Refusal := issueWord (.smaxn c d a b) s0

/-- SEQ (R115). -/
def execSeq (c : BitVec 1) (d : BitVec 5) (a : BitVec 5) (b : BitVec 5) (s0 : State) : Host.Outcome State Fault Refusal := issueWord (.seq c d a b) s0

/-- SLT (R115). -/
def execSlt (c : BitVec 1) (d : BitVec 5) (a : BitVec 5) (b : BitVec 5) (s0 : State) : Host.Outcome State Fault Refusal := issueWord (.slt c d a b) s0

/-- SLTN (R115). -/
def execSltn (c : BitVec 1) (d : BitVec 5) (a : BitVec 5) (b : BitVec 5) (s0 : State) : Host.Outcome State Fault Refusal := issueWord (.sltn c d a b) s0

/-- SMOV (R116). -/
def execSmov (c : BitVec 1) (d : BitVec 5) (a : BitVec 5) (t : BitVec 5) (s0 : State) : Host.Outcome State Fault Refusal := issueWord (.smov c d a t) s0

/-- SADDI (R117). -/
def execSaddi (c : BitVec 1) (d : BitVec 5) (a : BitVec 5) (i : BitVec 12) (s0 : State) : Host.Outcome State Fault Refusal := issueWord (.saddi c d a i) s0

/-- SANDI (R117). -/
def execSandi (c : BitVec 1) (d : BitVec 5) (a : BitVec 5) (i : BitVec 12) (s0 : State) : Host.Outcome State Fault Refusal := issueWord (.sandi c d a i) s0

/-- SORI (R117). -/
def execSori (c : BitVec 1) (d : BitVec 5) (a : BitVec 5) (i : BitVec 12) (s0 : State) : Host.Outcome State Fault Refusal := issueWord (.sori c d a i) s0

/-- SXORI (R117). -/
def execSxori (c : BitVec 1) (d : BitVec 5) (a : BitVec 5) (i : BitVec 12) (s0 : State) : Host.Outcome State Fault Refusal := issueWord (.sxori c d a i) s0

/-- SSHLI (R117). -/
def execSshli (c : BitVec 1) (d : BitVec 5) (a : BitVec 5) (n : BitVec 6) (s0 : State) : Host.Outcome State Fault Refusal := issueWord (.sshli c d a n) s0

/-- SSHRI (R117). -/
def execSshri (c : BitVec 1) (d : BitVec 5) (a : BitVec 5) (n : BitVec 6) (s0 : State) : Host.Outcome State Fault Refusal := issueWord (.sshri c d a n) s0

/-- SSRAI (R117). -/
def execSsrai (c : BitVec 1) (d : BitVec 5) (a : BitVec 5) (n : BitVec 6) (s0 : State) : Host.Outcome State Fault Refusal := issueWord (.ssrai c d a n) s0

/-- SLTI (R117). -/
def execSlti (c : BitVec 1) (d : BitVec 5) (a : BitVec 5) (i : BitVec 12) (s0 : State) : Host.Outcome State Fault Refusal := issueWord (.slti c d a i) s0

/-- SLI (R118). -/
def execSli (c : BitVec 1) (d : BitVec 5) (i : BitVec 20) (s0 : State) : Host.Outcome State Fault Refusal := issueWord (.sli c d i) s0

/-- SLIH (R118). -/
def execSlih (c : BitVec 1) (d : BitVec 5) (i : BitVec 20) (s0 : State) : Host.Outcome State Fault Refusal := issueWord (.slih c d i) s0

/-- VADD (R145). -/
def execVadd (c : BitVec 1) (d : BitVec 6) (a : BitVec 6) (b : BitVec 6) (s0 : State) : Host.Outcome State Fault Refusal := issueWord (.vadd c d a b) s0

/-- VSUB (R145). -/
def execVsub (c : BitVec 1) (d : BitVec 6) (a : BitVec 6) (b : BitVec 6) (s0 : State) : Host.Outcome State Fault Refusal := issueWord (.vsub c d a b) s0

/-- VMUL (R145). -/
def execVmul (c : BitVec 1) (d : BitVec 6) (a : BitVec 6) (b : BitVec 6) (s0 : State) : Host.Outcome State Fault Refusal := issueWord (.vmul c d a b) s0

/-- VMULH (R145). -/
def execVmulh (c : BitVec 1) (d : BitVec 6) (a : BitVec 6) (b : BitVec 6) (s0 : State) : Host.Outcome State Fault Refusal := issueWord (.vmulh c d a b) s0

/-- VMULHN (R145). -/
def execVmulhn (c : BitVec 1) (d : BitVec 6) (a : BitVec 6) (b : BitVec 6) (s0 : State) : Host.Outcome State Fault Refusal := issueWord (.vmulhn c d a b) s0

/-- VAND (R145). -/
def execVand (c : BitVec 1) (d : BitVec 6) (a : BitVec 6) (b : BitVec 6) (s0 : State) : Host.Outcome State Fault Refusal := issueWord (.vand c d a b) s0

/-- VOR (R145). -/
def execVor (c : BitVec 1) (d : BitVec 6) (a : BitVec 6) (b : BitVec 6) (s0 : State) : Host.Outcome State Fault Refusal := issueWord (.vor c d a b) s0

/-- VXOR (R145). -/
def execVxor (c : BitVec 1) (d : BitVec 6) (a : BitVec 6) (b : BitVec 6) (s0 : State) : Host.Outcome State Fault Refusal := issueWord (.vxor c d a b) s0

/-- VANDN (R145). -/
def execVandn (c : BitVec 1) (d : BitVec 6) (a : BitVec 6) (b : BitVec 6) (s0 : State) : Host.Outcome State Fault Refusal := issueWord (.vandn c d a b) s0

/-- VSHL (R145). -/
def execVshl (c : BitVec 1) (d : BitVec 6) (a : BitVec 6) (b : BitVec 6) (s0 : State) : Host.Outcome State Fault Refusal := issueWord (.vshl c d a b) s0

/-- VSHR (R145). -/
def execVshr (c : BitVec 1) (d : BitVec 6) (a : BitVec 6) (b : BitVec 6) (s0 : State) : Host.Outcome State Fault Refusal := issueWord (.vshr c d a b) s0

/-- VSRA (R145). -/
def execVsra (c : BitVec 1) (d : BitVec 6) (a : BitVec 6) (b : BitVec 6) (s0 : State) : Host.Outcome State Fault Refusal := issueWord (.vsra c d a b) s0

/-- VMIN (R145). -/
def execVmin (c : BitVec 1) (d : BitVec 6) (a : BitVec 6) (b : BitVec 6) (s0 : State) : Host.Outcome State Fault Refusal := issueWord (.vmin c d a b) s0

/-- VMAX (R145). -/
def execVmax (c : BitVec 1) (d : BitVec 6) (a : BitVec 6) (b : BitVec 6) (s0 : State) : Host.Outcome State Fault Refusal := issueWord (.vmax c d a b) s0

/-- VMINN (R145). -/
def execVminn (c : BitVec 1) (d : BitVec 6) (a : BitVec 6) (b : BitVec 6) (s0 : State) : Host.Outcome State Fault Refusal := issueWord (.vminn c d a b) s0

/-- VMAXN (R145). -/
def execVmaxn (c : BitVec 1) (d : BitVec 6) (a : BitVec 6) (b : BitVec 6) (s0 : State) : Host.Outcome State Fault Refusal := issueWord (.vmaxn c d a b) s0

/-- VABS (R145). -/
def execVabs (c : BitVec 1) (d : BitVec 6) (a : BitVec 6) (b : BitVec 6) (s0 : State) : Host.Outcome State Fault Refusal := issueWord (.vabs c d a b) s0

/-- VNEG (R145). -/
def execVneg (c : BitVec 1) (d : BitVec 6) (a : BitVec 6) (b : BitVec 6) (s0 : State) : Host.Outcome State Fault Refusal := issueWord (.vneg c d a b) s0

/-- VCLZ (R145). -/
def execVclz (c : BitVec 1) (d : BitVec 6) (a : BitVec 6) (b : BitVec 6) (s0 : State) : Host.Outcome State Fault Refusal := issueWord (.vclz c d a b) s0

/-- VPOPC (R145). -/
def execVpopc (c : BitVec 1) (d : BitVec 6) (a : BitVec 6) (b : BitVec 6) (s0 : State) : Host.Outcome State Fault Refusal := issueWord (.vpopc c d a b) s0

/-- VADDS (R84). -/
def execVadds (c : BitVec 1) (d : BitVec 6) (a : BitVec 6) (b : BitVec 6) (s0 : State) : Host.Outcome State Fault Refusal := issueWord (.vadds c d a b) s0

/-- VSUBS (R84). -/
def execVsubs (c : BitVec 1) (d : BitVec 6) (a : BitVec 6) (b : BitVec 6) (s0 : State) : Host.Outcome State Fault Refusal := issueWord (.vsubs c d a b) s0

/-- VBFE (R146). -/
def execVbfe (c : BitVec 1) (d : BitVec 6) (a : BitVec 6) (b : BitVec 6) (s0 : State) : Host.Outcome State Fault Refusal := issueWord (.vbfe c d a b) s0

/-- VBFI (R146). -/
def execVbfi (c : BitVec 1) (d : BitVec 6) (a : BitVec 6) (b : BitVec 6) (s0 : State) : Host.Outcome State Fault Refusal := issueWord (.vbfi c d a b) s0

/-- VPACK (R147). -/
def execVpack (c : BitVec 1) (d : BitVec 6) (a : BitVec 6) (b : BitVec 6) (s0 : State) : Host.Outcome State Fault Refusal := issueWord (.vpack c d a b) s0

/-- VUNPK (R147). -/
def execVunpk (c : BitVec 1) (d : BitVec 6) (a : BitVec 6) (b : BitVec 6) (s0 : State) : Host.Outcome State Fault Refusal := issueWord (.vunpk c d a b) s0

/-- VADDA (R145). -/
def execVadda (c : BitVec 1) (d : BitVec 6) (a : BitVec 6) (b : BitVec 6) (s0 : State) : Host.Outcome State Fault Refusal := issueWord (.vadda c d a b) s0

/-- VADDI (R148). -/
def execVaddi (c : BitVec 1) (d : BitVec 6) (a : BitVec 6) (i : BitVec 10) (s0 : State) : Host.Outcome State Fault Refusal := issueWord (.vaddi c d a i) s0

/-- VANDI (R148). -/
def execVandi (c : BitVec 1) (d : BitVec 6) (a : BitVec 6) (i : BitVec 10) (s0 : State) : Host.Outcome State Fault Refusal := issueWord (.vandi c d a i) s0

/-- VORI (R148). -/
def execVori (c : BitVec 1) (d : BitVec 6) (a : BitVec 6) (i : BitVec 10) (s0 : State) : Host.Outcome State Fault Refusal := issueWord (.vori c d a i) s0

/-- VXORI (R148). -/
def execVxori (c : BitVec 1) (d : BitVec 6) (a : BitVec 6) (i : BitVec 10) (s0 : State) : Host.Outcome State Fault Refusal := issueWord (.vxori c d a i) s0

/-- VSHLI (R148). -/
def execVshli (c : BitVec 1) (d : BitVec 6) (a : BitVec 6) (n : BitVec 6) (s0 : State) : Host.Outcome State Fault Refusal := issueWord (.vshli c d a n) s0

/-- VSHRI (R148). -/
def execVshri (c : BitVec 1) (d : BitVec 6) (a : BitVec 6) (n : BitVec 6) (s0 : State) : Host.Outcome State Fault Refusal := issueWord (.vshri c d a n) s0

/-- VSRAI (R148). -/
def execVsrai (c : BitVec 1) (d : BitVec 6) (a : BitVec 6) (n : BitVec 6) (s0 : State) : Host.Outcome State Fault Refusal := issueWord (.vsrai c d a n) s0

/-- VMULI (R148). -/
def execVmuli (c : BitVec 1) (d : BitVec 6) (a : BitVec 6) (i : BitVec 10) (s0 : State) : Host.Outcome State Fault Refusal := issueWord (.vmuli c d a i) s0

/-- VLI (R149). -/
def execVli (c : BitVec 1) (d : BitVec 6) (t : BitVec 4) (i : BitVec 15) (s0 : State) : Host.Outcome State Fault Refusal := issueWord (.vli c d t i) s0

/-- FADD (R150). -/
def execFadd (c : BitVec 1) (d : BitVec 6) (a : BitVec 6) (b : BitVec 6) (r : BitVec 2) (s0 : State) : Host.Outcome State Fault Refusal := issueWord (.fadd c d a b r) s0

/-- FSUB (R150). -/
def execFsub (c : BitVec 1) (d : BitVec 6) (a : BitVec 6) (b : BitVec 6) (r : BitVec 2) (s0 : State) : Host.Outcome State Fault Refusal := issueWord (.fsub c d a b r) s0

/-- FMUL (R150). -/
def execFmul (c : BitVec 1) (d : BitVec 6) (a : BitVec 6) (b : BitVec 6) (r : BitVec 2) (s0 : State) : Host.Outcome State Fault Refusal := issueWord (.fmul c d a b r) s0

/-- FDIV (R150). -/
def execFdiv (c : BitVec 1) (d : BitVec 6) (a : BitVec 6) (b : BitVec 6) (r : BitVec 2) (s0 : State) : Host.Outcome State Fault Refusal := issueWord (.fdiv c d a b r) s0

/-- FSQRT (R150). -/
def execFsqrt (c : BitVec 1) (d : BitVec 6) (a : BitVec 6) (b : BitVec 6) (r : BitVec 2) (s0 : State) : Host.Outcome State Fault Refusal := issueWord (.fsqrt c d a b r) s0

/-- FMIN (R150). -/
def execFmin (c : BitVec 1) (d : BitVec 6) (a : BitVec 6) (b : BitVec 6) (s0 : State) : Host.Outcome State Fault Refusal := issueWord (.fmin c d a b) s0

/-- FMAX (R150). -/
def execFmax (c : BitVec 1) (d : BitVec 6) (a : BitVec 6) (b : BitVec 6) (s0 : State) : Host.Outcome State Fault Refusal := issueWord (.fmax c d a b) s0

/-- FABS (R150). -/
def execFabs (c : BitVec 1) (d : BitVec 6) (a : BitVec 6) (b : BitVec 6) (s0 : State) : Host.Outcome State Fault Refusal := issueWord (.fabs c d a b) s0

/-- FNEG (R150). -/
def execFneg (c : BitVec 1) (d : BitVec 6) (a : BitVec 6) (b : BitVec 6) (s0 : State) : Host.Outcome State Fault Refusal := issueWord (.fneg c d a b) s0

/-- FCOPYSIGN (R150). -/
def execFcopysign (c : BitVec 1) (d : BitVec 6) (a : BitVec 6) (b : BitVec 6) (s0 : State) : Host.Outcome State Fault Refusal := issueWord (.fcopysign c d a b) s0

/-- FMINNUM (R150). -/
def execFminnum (c : BitVec 1) (d : BitVec 6) (a : BitVec 6) (b : BitVec 6) (s0 : State) : Host.Outcome State Fault Refusal := issueWord (.fminnum c d a b) s0

/-- FMAXNUM (R150). -/
def execFmaxnum (c : BitVec 1) (d : BitVec 6) (a : BitVec 6) (b : BitVec 6) (s0 : State) : Host.Outcome State Fault Refusal := issueWord (.fmaxnum c d a b) s0

/-- FFMA (R151). -/
def execFfma (c : BitVec 1) (d : BitVec 6) (a : BitVec 6) (b : BitVec 6) (e : BitVec 6) (x : BitVec 1) (s0 : State) : Host.Outcome State Fault Refusal := issueWord (.ffma c d a b e x) s0

/-- FFMAN (R151). -/
def execFfman (c : BitVec 1) (d : BitVec 6) (a : BitVec 6) (b : BitVec 6) (e : BitVec 6) (x : BitVec 1) (s0 : State) : Host.Outcome State Fault Refusal := issueWord (.ffman c d a b e x) s0

/-- VIMAD (R152). -/
def execVimad (c : BitVec 1) (d : BitVec 6) (a : BitVec 6) (b : BitVec 6) (e : BitVec 6) (x : BitVec 1) (s0 : State) : Host.Outcome State Fault Refusal := issueWord (.vimad c d a b e x) s0

/-- FRCP (R153). -/
def execFrcp (c : BitVec 1) (d : BitVec 6) (a : BitVec 6) (b : BitVec 6) (s0 : State) : Host.Outcome State Fault Refusal := issueWord (.frcp c d a b) s0

/-- FRSQ (R153). -/
def execFrsq (c : BitVec 1) (d : BitVec 6) (a : BitVec 6) (b : BitVec 6) (s0 : State) : Host.Outcome State Fault Refusal := issueWord (.frsq c d a b) s0

/-- FEXP2 (R153). -/
def execFexp2 (c : BitVec 1) (d : BitVec 6) (a : BitVec 6) (b : BitVec 6) (s0 : State) : Host.Outcome State Fault Refusal := issueWord (.fexp2 c d a b) s0

/-- FLOG2 (R153). -/
def execFlog2 (c : BitVec 1) (d : BitVec 6) (a : BitVec 6) (b : BitVec 6) (s0 : State) : Host.Outcome State Fault Refusal := issueWord (.flog2 c d a b) s0

/-- FSINPI (R153). -/
def execFsinpi (c : BitVec 1) (d : BitVec 6) (a : BitVec 6) (b : BitVec 6) (s0 : State) : Host.Outcome State Fault Refusal := issueWord (.fsinpi c d a b) s0

/-- FCOSPI (R153). -/
def execFcospi (c : BitVec 1) (d : BitVec 6) (a : BitVec 6) (b : BitVec 6) (s0 : State) : Host.Outcome State Fault Refusal := issueWord (.fcospi c d a b) s0

/-- FTANH (R153). -/
def execFtanh (c : BitVec 1) (d : BitVec 6) (a : BitVec 6) (b : BitVec 6) (s0 : State) : Host.Outcome State Fault Refusal := issueWord (.ftanh c d a b) s0

/-- VCVT (R155). -/
def execVcvt (c : BitVec 1) (d : BitVec 6) (a : BitVec 6) (p : BitVec 3) (t : BitVec 4) (m : BitVec 2) (s : BitVec 1) (s0 : State) : Host.Outcome State Fault Refusal := issueWord (.vcvt c d a p t m s) s0

/-- VCMP (R156). -/
def execVcmp (c : BitVec 1) (p : BitVec 3) (a : BitVec 6) (b : BitVec 6) (m : BitVec 2) (k : BitVec 4) (s0 : State) : Host.Outcome State Fault Refusal := issueWord (.vcmp c p a b m k) s0

/-- VSEL (R157). -/
def execVsel (c : BitVec 1) (d : BitVec 6) (a : BitVec 6) (b : BitVec 6) (p : BitVec 3) (x : BitVec 1) (s0 : State) : Host.Outcome State Fault Refusal := issueWord (.vsel c d a b p x) s0

/-- VDOT (R158). -/
def execVdot (c : BitVec 1) (d : BitVec 6) (a : BitVec 6) (b : BitVec 6) (e : BitVec 6) (x : BitVec 1) (s0 : State) : Host.Outcome State Fault Refusal := issueWord (.vdot c d a b e x) s0

/-- PAND (R159). -/
def execPand (c : BitVec 1) (d : BitVec 3) (a : BitVec 3) (b : BitVec 3) (s0 : State) : Host.Outcome State Fault Refusal := issueWord (.pand c d a b) s0

/-- POR (R159). -/
def execPor (c : BitVec 1) (d : BitVec 3) (a : BitVec 3) (b : BitVec 3) (s0 : State) : Host.Outcome State Fault Refusal := issueWord (.por c d a b) s0

/-- PXOR (R159). -/
def execPxor (c : BitVec 1) (d : BitVec 3) (a : BitVec 3) (b : BitVec 3) (s0 : State) : Host.Outcome State Fault Refusal := issueWord (.pxor c d a b) s0

/-- PANDN (R159). -/
def execPandn (c : BitVec 1) (d : BitVec 3) (a : BitVec 3) (b : BitVec 3) (s0 : State) : Host.Outcome State Fault Refusal := issueWord (.pandn c d a b) s0

/-- PTOV (R159). -/
def execPtov (c : BitVec 1) (d : BitVec 6) (s0 : State) : Host.Outcome State Fault Refusal := issueWord (.ptov c d) s0

/-- VTOP (R159). -/
def execVtop (c : BitVec 1) (a : BitVec 6) (s0 : State) : Host.Outcome State Fault Refusal := issueWord (.vtop c a) s0

/-- VTOS (R160). -/
def execVtos (c : BitVec 1) (s : BitVec 5) (a : BitVec 6) (s0 : State) : Host.Outcome State Fault Refusal := issueWord (.vtos c s a) s0

/-- STOV (R160). -/
def execStov (c : BitVec 1) (d : BitVec 6) (s : BitVec 5) (s0 : State) : Host.Outcome State Fault Refusal := issueWord (.stov c d s) s0

/-- VRETAG (R160). -/
def execVretag (c : BitVec 1) (d : BitVec 6) (a : BitVec 6) (t : BitVec 4) (s0 : State) : Host.Outcome State Fault Refusal := issueWord (.vretag c d a t) s0

/-- SHFL (R168). -/
def execShfl (c : BitVec 1) (d : BitVec 6) (a : BitVec 6) (b : BitVec 6) (p : BitVec 1) (m : BitVec 3) (s0 : State) : Host.Outcome State Fault Refusal := issueWord (.shfl c d a b p m) s0

/-- SHFLUP (R168). -/
def execShflup (c : BitVec 1) (d : BitVec 6) (a : BitVec 6) (b : BitVec 6) (p : BitVec 1) (m : BitVec 3) (s0 : State) : Host.Outcome State Fault Refusal := issueWord (.shflup c d a b p m) s0

/-- SHFLDN (R168). -/
def execShfldn (c : BitVec 1) (d : BitVec 6) (a : BitVec 6) (b : BitVec 6) (p : BitVec 1) (m : BitVec 3) (s0 : State) : Host.Outcome State Fault Refusal := issueWord (.shfldn c d a b p m) s0

/-- SHFLX (R168). -/
def execShflx (c : BitVec 1) (d : BitVec 6) (a : BitVec 6) (b : BitVec 6) (p : BitVec 1) (m : BitVec 3) (s0 : State) : Host.Outcome State Fault Refusal := issueWord (.shflx c d a b p m) s0

/-- BCAST (R168). -/
def execBcast (c : BitVec 1) (d : BitVec 6) (a : BitVec 6) (b : BitVec 6) (p : BitVec 1) (m : BitVec 3) (s0 : State) : Host.Outcome State Fault Refusal := issueWord (.bcast c d a b p m) s0

/-- VOTE_ANY (R170). -/
def execVoteAny (c : BitVec 1) (d : BitVec 6) (p : BitVec 3) (m : BitVec 3) (s0 : State) : Host.Outcome State Fault Refusal := issueWord (.voteAny c d p m) s0

/-- VOTE_ALL (R170). -/
def execVoteAll (c : BitVec 1) (d : BitVec 6) (p : BitVec 3) (m : BitVec 3) (s0 : State) : Host.Outcome State Fault Refusal := issueWord (.voteAll c d p m) s0

/-- VOTE_BAL (R169). -/
def execVoteBal (c : BitVec 1) (d : BitVec 6) (p : BitVec 3) (m : BitVec 3) (s0 : State) : Host.Outcome State Fault Refusal := issueWord (.voteBal c d p m) s0

/-- VOTE_EQ (R169). -/
def execVoteEq (c : BitVec 1) (d : BitVec 6) (p : BitVec 3) (m : BitVec 3) (s0 : State) : Host.Outcome State Fault Refusal := issueWord (.voteEq c d p m) s0

/-- REDADD (R172). -/
def execRedadd (c : BitVec 1) (d : BitVec 6) (a : BitVec 6) (m : BitVec 3) (s0 : State) : Host.Outcome State Fault Refusal := issueWord (.redadd c d a m) s0

/-- REDMIN (R172). -/
def execRedmin (c : BitVec 1) (d : BitVec 6) (a : BitVec 6) (m : BitVec 3) (s0 : State) : Host.Outcome State Fault Refusal := issueWord (.redmin c d a m) s0

/-- REDMAX (R172). -/
def execRedmax (c : BitVec 1) (d : BitVec 6) (a : BitVec 6) (m : BitVec 3) (s0 : State) : Host.Outcome State Fault Refusal := issueWord (.redmax c d a m) s0

/-- REDAND (R169). -/
def execRedand (c : BitVec 1) (d : BitVec 6) (a : BitVec 6) (m : BitVec 3) (s0 : State) : Host.Outcome State Fault Refusal := issueWord (.redand c d a m) s0

/-- REDOR (R169). -/
def execRedor (c : BitVec 1) (d : BitVec 6) (a : BitVec 6) (m : BitVec 3) (s0 : State) : Host.Outcome State Fault Refusal := issueWord (.redor c d a m) s0

/-- REDXOR (R169). -/
def execRedxor (c : BitVec 1) (d : BitVec 6) (a : BitVec 6) (m : BitVec 3) (s0 : State) : Host.Outcome State Fault Refusal := issueWord (.redxor c d a m) s0

/-- SCANADD (R108). -/
def execScanadd (c : BitVec 1) (d : BitVec 6) (a : BitVec 6) (m : BitVec 3) (s0 : State) : Host.Outcome State Fault Refusal := issueWord (.scanadd c d a m) s0

/-- SCANADDX (R108). -/
def execScanaddx (c : BitVec 1) (d : BitVec 6) (a : BitVec 6) (m : BitVec 3) (s0 : State) : Host.Outcome State Fault Refusal := issueWord (.scanaddx c d a m) s0

/-- MATCH (R169). -/
def execXmatch (c : BitVec 1) (d : BitVec 6) (a : BitVec 6) (m : BitVec 3) (s0 : State) : Host.Outcome State Fault Refusal := issueWord (.xmatch c d a m) s0

/-- LD (R246). -/
def execLd (c : BitVec 1) (d : BitVec 6) (a : BitVec 6) (p : BitVec 2) (z : BitVec 3) (t : BitVec 4) (o : BitVec 2) (m : BitVec 2) (s0 : State) : Host.Outcome State Fault Refusal := issueWord (.ld c d a p z t o m) s0

/-- ST (R247). -/
def execSt (c : BitVec 1) (d : BitVec 6) (a : BitVec 6) (p : BitVec 2) (z : BitVec 3) (t : BitVec 4) (o : BitVec 2) (m : BitVec 2) (s0 : State) : Host.Outcome State Fault Refusal := issueWord (.st c d a p z t o m) s0

/-- ATOM (R249). -/
def execAtom (c : BitVec 1) (d : BitVec 6) (a : BitVec 6) (p : BitVec 2) (z : BitVec 3) (k : BitVec 4) (o : BitVec 2) (m : BitVec 2) (s0 : State) : Host.Outcome State Fault Refusal := issueWord (.atom c d a p z k o m) s0

/-- FENCE (R254). -/
def execFence (c : BitVec 1) (s : BitVec 3) (s0 : State) : Host.Outcome State Fault Refusal := issueWord (.fence c s) s0

/-- PUBLISH (R259). -/
def execPublish (c : BitVec 1) (b : BitVec 4) (t : BitVec 1) (s0 : State) : Host.Outcome State Fault Refusal := issueWord (.publish c b t) s0

/-- BERTH_SET (R256). -/
def execBerthSet (c : BitVec 1) (b : BitVec 4) (a : BitVec 5) (s0 : State) : Host.Outcome State Fault Refusal := issueWord (.berthSet c b a) s0

/-- BERTH_CLR (R257). -/
def execBerthClr (c : BitVec 1) (b : BitVec 4) (s0 : State) : Host.Outcome State Fault Refusal := issueWord (.berthClr c b) s0

/-- LDT (R267). -/
def execLdt (c : BitVec 1) (t : BitVec 4) (a : BitVec 5) (b : BitVec 5) (p : BitVec 2) (s0 : State) : Host.Outcome State Fault Refusal := issueWord (.ldt c t a b p) s0

/-- STT (R267). -/
def execStt (c : BitVec 1) (t : BitVec 4) (a : BitVec 5) (b : BitVec 5) (p : BitVec 2) (s0 : State) : Host.Outcome State Fault Refusal := issueWord (.stt c t a b p) s0

/-- LND_INIT (R264). -/
def execLndInit (c : BitVec 1) (a : BitVec 5) (b : BitVec 5) (s : BitVec 3) (s0 : State) : Host.Outcome State Fault Refusal := issueWord (.lndInit c a b s) s0

/-- LND_EXPECT_IN (R264). -/
def execLndExpectIn (c : BitVec 1) (a : BitVec 5) (b : BitVec 5) (s : BitVec 3) (s0 : State) : Host.Outcome State Fault Refusal := issueWord (.lndExpectIn c a b s) s0

/-- LND_EXPECT_OUT (R264). -/
def execLndExpectOut (c : BitVec 1) (a : BitVec 5) (b : BitVec 5) (s : BitVec 3) (s0 : State) : Host.Outcome State Fault Refusal := issueWord (.lndExpectOut c a b s) s0

/-- LND_ARRIVE (R264). -/
def execLndArrive (c : BitVec 1) (d : BitVec 5) (a : BitVec 5) (s : BitVec 3) (s0 : State) : Host.Outcome State Fault Refusal := issueWord (.lndArrive c d a s) s0

/-- LND_WAIT (R265). -/
def execLndWait (c : BitVec 1) (a : BitVec 5) (b : BitVec 5) (s : BitVec 3) (s0 : State) : Host.Outcome State Fault Refusal := issueWord (.lndWait c a b s) s0

/-- LND_TEST (R264). -/
def execLndTest (c : BitVec 1) (d : BitVec 5) (a : BitVec 5) (s : BitVec 3) (s0 : State) : Host.Outcome State Fault Refusal := issueWord (.lndTest c d a s) s0

/-- STRM_SET (R270). -/
def execStrmSet (c : BitVec 1) (a : BitVec 5) (q : BitVec 2) (s0 : State) : Host.Outcome State Fault Refusal := issueWord (.strmSet c a q) s0

/-- STRM_STOP (R270). -/
def execStrmStop (c : BitVec 1) (q : BitVec 2) (s0 : State) : Host.Outcome State Fault Refusal := issueWord (.strmStop c q) s0

/-- FCOPY (R295). -/
def execFcopy (c : BitVec 1) (d : BitVec 5) (a : BitVec 5) (b : BitVec 5) (l : BitVec 1) (s0 : State) : Host.Outcome State Fault Refusal := issueWord (.fcopy c d a b l) s0

/-- FGATH (R298). -/
def execFgath (c : BitVec 1) (d : BitVec 5) (a : BitVec 5) (b : BitVec 5) (l : BitVec 1) (s0 : State) : Host.Outcome State Fault Refusal := issueWord (.fgath c d a b l) s0

/-- FSCAT (R298). -/
def execFscat (c : BitVec 1) (d : BitVec 5) (a : BitVec 5) (b : BitVec 5) (l : BitVec 1) (s0 : State) : Host.Outcome State Fault Refusal := issueWord (.fscat c d a b l) s0

/-- FATOM (R300). -/
def execFatom (c : BitVec 1) (d : BitVec 5) (a : BitVec 5) (b : BitVec 5) (l : BitVec 1) (s0 : State) : Host.Outcome State Fault Refusal := issueWord (.fatom c d a b l) s0

/-- FPUT (R304). -/
def execFput (c : BitVec 1) (d : BitVec 5) (a : BitVec 5) (b : BitVec 5) (l : BitVec 1) (s0 : State) : Host.Outcome State Fault Refusal := issueWord (.fput c d a b l) s0

/-- FPUTS (R304). -/
def execFputs (c : BitVec 1) (d : BitVec 5) (a : BitVec 5) (b : BitVec 5) (l : BitVec 1) (s0 : State) : Host.Outcome State Fault Refusal := issueWord (.fputs c d a b l) s0

/-- FGET (R304). -/
def execFget (c : BitVec 1) (d : BitVec 5) (a : BitVec 5) (b : BitVec 5) (l : BitVec 1) (s0 : State) : Host.Outcome State Fault Refusal := issueWord (.fget c d a b l) s0

/-- COLL_ALLRED (R307). -/
def execCollAllred (c : BitVec 1) (d : BitVec 5) (a : BitVec 5) (b : BitVec 5) (l : BitVec 1) (s0 : State) : Host.Outcome State Fault Refusal := issueWord (.collAllred c d a b l) s0

/-- COLL_ALLGATH (R307). -/
def execCollAllgath (c : BitVec 1) (d : BitVec 5) (a : BitVec 5) (b : BitVec 5) (l : BitVec 1) (s0 : State) : Host.Outcome State Fault Refusal := issueWord (.collAllgath c d a b l) s0

/-- COLL_REDSCAT (R307). -/
def execCollRedscat (c : BitVec 1) (d : BitVec 5) (a : BitVec 5) (b : BitVec 5) (l : BitVec 1) (s0 : State) : Host.Outcome State Fault Refusal := issueWord (.collRedscat c d a b l) s0

/-- COLL_BCAST (R307). -/
def execCollBcast (c : BitVec 1) (d : BitVec 5) (a : BitVec 5) (b : BitVec 5) (l : BitVec 1) (s0 : State) : Host.Outcome State Fault Refusal := issueWord (.collBcast c d a b l) s0

/-- COLL_CBAR (R308). -/
def execCollCbar (c : BitVec 1) (d : BitVec 5) (a : BitVec 5) (b : BitVec 5) (l : BitVec 1) (s0 : State) : Host.Outcome State Fault Refusal := issueWord (.collCbar c d a b l) s0

/-- NMC (R311). -/
def execNmc (c : BitVec 1) (d : BitVec 5) (a : BitVec 5) (b : BitVec 5) (s0 : State) : Host.Outcome State Fault Refusal := issueWord (.nmc c d a b) s0

/-- FPREF (R314). -/
def execFpref (c : BitVec 1) (a : BitVec 5) (b : BitVec 5) (h : BitVec 2) (s0 : State) : Host.Outcome State Fault Refusal := issueWord (.fpref c a b h) s0

/-- FCANCEL (R315). -/
def execFcancel (c : BitVec 1) (d : BitVec 5) (a : BitVec 5) (s0 : State) : Host.Outcome State Fault Refusal := issueWord (.fcancel c d a) s0

/-- MMA (R182). -/
def execMma (c : BitVec 1) (b : BitVec 6) (a : BitVec 4) (t : BitVec 4) (n : BitVec 6) (m : BitVec 2) (g : BitVec 1) (z : BitVec 1) (w : BitVec 1) (s0 : State) : Host.Outcome State Fault Refusal := issueWord (.mma c b a t n m g z w) s0

/-- MOVTS (R188). -/
def execMovts (c : BitVec 1) (t : BitVec 4) (a : BitVec 5) (s0 : State) : Host.Outcome State Fault Refusal := issueWord (.movts c t a) s0

/-- MOVST (R188). -/
def execMovst (c : BitVec 1) (d : BitVec 5) (t : BitVec 4) (s0 : State) : Host.Outcome State Fault Refusal := issueWord (.movst c d t) s0

/-- ACCZ (R191). -/
def execAccz (c : BitVec 1) (a : BitVec 5) (s0 : State) : Host.Outcome State Fault Refusal := issueWord (.accz c a) s0

/-- MCHK (R192). -/
def execMchk (c : BitVec 1) (d : BitVec 5) (s0 : State) : Host.Outcome State Fault Refusal := issueWord (.mchk c d) s0

/-- TCVT (R190). -/
def execTcvt (c : BitVec 1) (t : BitVec 4) (s : BitVec 1) (m : BitVec 2) (f : BitVec 4) (s0 : State) : Host.Outcome State Fault Refusal := issueWord (.tcvt c t s m f) s0

/-- TZERO (R189). -/
def execTzero (c : BitVec 1) (t : BitVec 4) (s0 : State) : Host.Outcome State Fault Refusal := issueWord (.tzero c t) s0

/-- ACCST (R196). -/
def execAccst (c : BitVec 1) (d : BitVec 5) (a : BitVec 5) (b : BitVec 5) (x : BitVec 1) (y : BitVec 1) (q : BitVec 1) (p : BitVec 1) (u : BitVec 1) (f : BitVec 3) (t : BitVec 2) (s0 : State) : Host.Outcome State Fault Refusal := issueWord (.accst c d a b x y q p u f t) s0

/-- ACCLD (R193). -/
def execAccld (c : BitVec 1) (d : BitVec 5) (a : BitVec 5) (p : BitVec 1) (s0 : State) : Host.Outcome State Fault Refusal := issueWord (.accld c d a p) s0

/-- TRAP (R374). -/
def execTrap (c : BitVec 1) (n : BitVec 12) (s0 : State) : Host.Outcome State Fault Refusal := issueWord (.trap c n) s0

/-- RTE_RETRY (R375). -/
def execRteRetry (c : BitVec 1) (s0 : State) : Host.Outcome State Fault Refusal := issueWord (.rteRetry c) s0

/-- RTE_COMMIT (R375). -/
def execRteCommit (c : BitVec 1) (s0 : State) : Host.Outcome State Fault Refusal := issueWord (.rteCommit c) s0

/-- RTE_SKIP (R375). -/
def execRteSkip (c : BitVec 1) (s0 : State) : Host.Outcome State Fault Refusal := issueWord (.rteSkip c) s0

/-- BRK (R374). -/
def execBrk (c : BitVec 1) (n : BitVec 12) (s0 : State) : Host.Outcome State Fault Refusal := issueWord (.brk c n) s0

/-- CSRR (R379). -/
def execCsrr (c : BitVec 1) (d : BitVec 5) (r : BitVec 12) (s0 : State) : Host.Outcome State Fault Refusal := issueWord (.csrr c d r) s0

/-- CSRW (R379). -/
def execCsrw (c : BitVec 1) (a : BitVec 5) (r : BitVec 12) (s0 : State) : Host.Outcome State Fault Refusal := issueWord (.csrw c a r) s0

/-- CSRS (R379). -/
def execCsrs (c : BitVec 1) (a : BitVec 5) (r : BitVec 12) (s0 : State) : Host.Outcome State Fault Refusal := issueWord (.csrs c a r) s0

/-- CSRC (R379). -/
def execCsrc (c : BitVec 1) (a : BitVec 5) (r : BitVec 12) (s0 : State) : Host.Outcome State Fault Refusal := issueWord (.csrc c a r) s0

/-- LAUNCH (R347). -/
def execLaunch (c : BitVec 1) (d : BitVec 5) (a : BitVec 5) (b : BitVec 5) (s0 : State) : Host.Outcome State Fault Refusal := issueWord (.launch c d a b) s0

/-- ILLEGAL_OPCODE_WORD (R35). -/
def execIllegalOpcodeWord (w : Word) (s0 : State) : Host.Outcome State Fault Refusal := issueWord (.illegalOpcodeWord w) s0

end Sys2Proof.Machine
end

