-- ==== Sys2Proof/Machine/CoreEvents.lean ====
section
/-! DEFINITION. The meanings of the events of a core: issue, runs and handlers, accesses, tile operations, engine commands and handlers (R21, R166, R175, R183, R215, R246-R250, R261, R271, R288, R300, R312, R317, R361, R368). -/

namespace Sys2Proof.Machine

/-- ISSUE_OPPORTUNITY (R215). -/
def execIssueOpportunity (r : StreamRef) (s : State) : Host.Outcome State Fault Refusal := issueOpportunity r s

/-- RUN_END (R21). -/
def execRunEnd (s : State) : Host.Outcome State Fault Refusal := enabledEvent (runEnd s)

/-- LOAD_RETURN (R246). -/
def execLoadReturn (crew lane : Nat) (s : State) : Host.Outcome State Fault Refusal := enabledEvent (s.loadReturn crew lane)

/-- STORE_PERFORM (R247). -/
def execStorePerform (crew : Nat) (s : State) : Host.Outcome State Fault Refusal := enabledEvent (s.storePerform crew)

/-- VAULT_STORE_HOME_ARRIVAL (R317). -/
def execVaultStoreHomeArrival (core n : Nat) (s : State) : Host.Outcome State Fault Refusal := enabledEvent (s.vaultArrival core n)

/-- ATOM_HOME_APPLY (R250). -/
def execAtomHomeApply (crew : Nat) (s : State) : Host.Outcome State Fault Refusal := enabledEvent (s.atomHomeApply crew)

/-- ATOM_REPLY_RETURN (R250). -/
def execAtomReplyReturn (crew op : Nat) (s : State) : Host.Outcome State Fault Refusal := enabledEvent (s.atomReplyReturn crew op)

/-- LANDING_UPDATE_APPLY (R261). -/
def execLandingUpdateApply (n : Nat) (s : State) : Host.Outcome State Fault Refusal := enabledEvent (s.landingUpdateApply n)

/-- STREAM_ELEMENT_FETCH (R271). -/
def execStreamElementFetch (crew k lane : Nat) (s : State) : Host.Outcome State Fault Refusal := enabledEvent (s.streamFetch crew k lane)

/-- TILE_OP_START (R175). -/
def execTileOpStart (block side : Nat) (s : State) : Host.Outcome State Fault Refusal := enabledEvent (s.tileStart block side)

/-- MMA_TWIN_ENGAGE (R183). -/
def execMmaTwinEngage (block : Nat) (s : State) : Host.Outcome State Fault Refusal := enabledEvent (s.mmaEngage block)

/-- TILE_OP_COMPLETE (R175). -/
def execTileOpComplete (block side : Nat) (s : State) : Host.Outcome State Fault Refusal := enabledEvent (s.tileComplete block side)

/-- ENGINE_COMMAND_COMPLETE (R284). -/
def execEngineCommandComplete (core slot : Nat) (s : State) : Host.Outcome State Fault Refusal := enabledEvent (s.commandComplete core slot)

/-- FATOM_PERFORM (R300). -/
def execFatomPerform (core slot : Nat) (s : State) : Host.Outcome State Fault Refusal := enabledEvent (s.fatomPerform core slot)

/-- NMC_RUN (R312). -/
def execNmcRun (core slot : Nat) (s : State) : Host.Outcome State Fault Refusal := enabledEvent (s.nmcRun core slot)

/-- HANDLER_ENTRY (R368). -/
def execHandlerEntry (crew : Nat) (s : State) : Host.Outcome State Fault Refusal := enabledEvent (s.handlerEntry crew)

/-- DEFERRED_TRAP_ENTRY (R361). -/
def execDeferredTrapEntry (crew : Nat) (s : State) : Host.Outcome State Fault Refusal := enabledEvent (s.deferredEntry crew)

/-- RENDEZVOUS_TIMEOUT (R166). -/
def execRendezvousTimeout (crew group : Nat) (s : State) : Host.Outcome State Fault Refusal := enabledEvent (s.rendezvousTimeout crew group)

end Sys2Proof.Machine
end

