-- ==== Sys2Proof/Machine/Gcm.lean ====
section
/-! DEFINITION. AES-256 (Machine/Aes.lean) in Galois/counter mode with a 96-bit initialisation vector, which R446 names for flits. Keys, salts and tags are numbers whose low byte comes first (R1, log 11). -/

namespace Sys2Proof.Machine

/-! ### Galois/counter mode -/

/-- The product in the GHASH field over n further bits of the first factor, the highest first. -/
def ghashMul (x v z : BitVec 128) : Nat → BitVec 128
  | 0 => z
  | n + 1 =>
    ghashMul x (if v.getLsbD 0 then (v >>> 1) ^^^ ((0xE1 : BitVec 128) <<< 120) else v >>> 1)
      (if x.getLsbD n then z ^^^ v else z) n

/-- The blocks of a byte list, the last padded with zeros. -/
def blocksOf (bs : List Byte) : List (List Byte) :=
  (List.range ((bs.length + 15) / 16)).map fun i =>
    let b := (bs.drop (16 * i)).take 16
    b ++ List.replicate (16 - b.length) 0

/-- GHASH of blocks under a hash key. -/
def ghash (h : BitVec 128) (bs : List (List Byte)) : BitVec 128 := bs.foldl (fun y b => ghashMul (y ^^^ blockOf b) h 0 128) 0

/-- A counter as four bytes, the highest first. -/
def counterBytes (n : Nat) : List Byte := (bytesOfNat 4 n).reverse

/-- Bytes encrypted or decrypted in counter mode from counter 2 up. -/
def gcmCrypt (ks : List (List Byte)) (iv bs : List Byte) : List Byte :=
  ((List.range ((bs.length + 15) / 16)).flatMap fun i =>
    xorBytes ((bs.drop (16 * i)).take 16) (aesBlock ks (iv ++ counterBytes (i + 2))))

/-- The tag of additional data and ciphertext. -/
def gcmTag (ks : List (List Byte)) (iv aad ct : List Byte) : List Byte :=
  let h := blockOf (aesBlock ks (List.replicate 16 0))
  let lens := (bytesOfNat 8 (8 * aad.length)).reverse ++ (bytesOfNat 8 (8 * ct.length)).reverse
  xorBytes (blockBytes (ghash h (blocksOf aad ++ blocksOf ct ++ [lens]))) (aesBlock ks (iv ++ counterBytes 1))

end Sys2Proof.Machine
end

