-- ==== Sys2Proof/Machine/Link.lean ====
section
/-! DEFINITION. Fabric links: flits, sending with key slots and go-back-N retry, the checks of a received flit, training and loss (R445-R453). -/

namespace Sys2Proof.Machine

/-! ### The flit (R446) -/

/-- The 16 header bytes (R446). -/
def flitHeader (ftype : Nat) (slot nak : Bool) (vc len : Nat) (seq ack : BitVec 16) (inv : Word) (dest txn fidx : Nat) : List Byte :=
  bytesOfNat 1 (ftype + slot.toNat * 16 + nak.toNat * 32 + vc * 64) ++ bytesOfNat 1 len ++ bytesOfNat 2 seq.toNat ++ bytesOfNat 2 ack.toNat
    ++ bytesOfNat 4 inv.toNat ++ bytesOfNat 2 dest ++ bytesOfNat 4 (txn + fidx * 4096)

/-- The header of a flit on the wire. -/
def flitAad (f : Flit) : List Byte :=
  flitHeader f.ftype.toNat f.slot f.nak f.vc.toNat f.len.toNat f.seq f.ackSeq f.inv f.dest.toNat f.txn.toNat f.fidx.toNat

/-- The initialisation vector: the salt of the slot, then INV (R446). -/
def flitIv (k : KeySlot) (inv : Word) : List Byte := bytesOfNat 8 k.salt.toNat ++ bytesOfNat 4 inv.toNat

/-- The round keys of a slot. -/
def KeySlot.roundKeys (k : KeySlot) : List (List Byte) := aesRoundKeys (bytesOfNat 32 k.key.toNat)

/-- A payload padded to 224 bytes (R446). -/
def padPayload (bs : List Byte) : List Byte := bs ++ List.replicate (224 - bs.length) 0

/-- The number of values of INV under one slot (R448). -/
def invCount : Nat := 2 ^ 32

/-- The next INV at which the sender asks for a fresh key (R448). -/
def rekeyAt : Nat := 2 ^ 32 - 2 ^ 20

/-! ### Sending (R446-R449) -/

/-- The active sending slot. -/
def Link.txKey (l : Link) : KeySlot := if l.txSlot then l.tx1 else l.tx0

/-- The other sending slot. -/
def Link.otherKey (l : Link) : KeySlot := if l.txSlot then l.tx0 else l.tx1

/-- A flit encrypted under the active slot with the next INV; its NAK and ACKSEQ tell what this end expects (R446, R447). The virtual channel is 0 (log 33). -/
def Link.encrypt (l : Link) (p : PlainFlit) : Flit :=
  let k := l.txKey
  let inv : Word := BitVec.ofNat 32 l.txInv
  let aad := flitHeader p.ftype l.txSlot l.nakDue 0 p.len p.seq l.expect inv p.dest p.txn p.fidx
  let ks := k.roundKeys
  let ct := gcmCrypt ks (flitIv k inv) (padPayload p.payload)
  { ftype := BitVec.ofNat 4 p.ftype, slot := l.txSlot, nak := l.nakDue, vc := 0, len := BitVec.ofNat 4 p.len, seq := p.seq, ackSeq := l.expect
    inv := inv, dest := BitVec.ofNat 16 p.dest, txn := BitVec.ofNat 12 p.txn, fidx := BitVec.ofNat 20 p.fidx, payload := ct
    tag := BitVec.ofNat 128 (natOfBytes (gcmTag ks (flitIv k inv) aad ct)) }

/-- A flit sent: one more INV of the active slot is used, and near the end a fresh key is asked for (R447, R448). -/
def Link.emit (l : Link) (p : PlainFlit) : Link :=
  { l with wire := [l.encrypt p], txInv := l.txInv + 1, nakDue := false, rekeyAsked := l.rekeyAsked || rekeyAt ≤ l.txInv + 1 }

/-- A new flit takes the next SEQ and goes into the retry buffer. -/
def Link.enter (l : Link) (p : PlainFlit) : PlainFlit × Link :=
  let p : PlainFlit := { p with seq := l.seq }
  (p, { l with seq := l.seq + 1, retry := l.retry ++ [p] })

/-- The flit that is due: a retransmission, else the oldest queued flit while the send window has room for it, else an IDLE (R446, R447, R452). -/
def Link.due (l : Link) : PlainFlit × Link :=
  match l.retry[l.retry.length - l.resend]?, l.sendQ with
  | some p, _ => (p, { l with resend := l.resend - 1, retries := min (l.retries + 1) 0xFFFFFFFF })
  | none, p :: rest => if l.window ≤ l.retry.length then l.enter { ftype := 0 } else { l with sendQ := rest }.enter p
  | none, [] => l.enter { ftype := 0 }

/-- The switch to the other slot, whose first flit is a MARKER with INV 0 and the next unused SEQ; it is sent again in its place where retransmissions are due (R449). -/
def Link.switch (l : Link) : Link :=
  let l : Link := { l with
    txSlot := !l.txSlot, txInv := 0, rekeyAsked := false
    tx0 := { l.tx0 with fresh := false }, tx1 := { l.tx1 with fresh := false } }
  let r := l.enter { ftype := 3 }
  { r.2 with resend := if r.2.resend = 0 then 0 else r.2.resend + 1 }.emit r.1

/-- FLIT_SEND (R446-R449): with the active slot used up and no fresh key, sending stops. -/
def Link.send (l : Link) : Link :=
  if l.txInv < invCount then
    let r := l.due
    r.2.emit r.1
  else if l.otherKey.fresh then l.switch
  else { l with stopped := true }

/-- A slice's link changed. -/
def State.modLink (s : State) (slice : Nat) (f : Link → Link) : State := s.modSlice slice fun x => { x with link := f x.link }

/-- The link of a slice. -/
def State.portLink (s : State) (slice : Nat) : Link := (s.slice slice).link

/-- Whether a slice's port sends and receives fabric flits. -/
def Link.runs (l : Link) : Bool := l.mode == 0 && l.up

/-- FLIT_SEND on a slice's port. -/
def State.flitSend (s : State) (slice : Nat) : Option State :=
  if (s.portLink slice).runs && !(s.portLink slice).stopped then some (s.modLink slice Link.send) else none

/-- Flits queued for a port, behind those that wait. -/
def State.queueFlits (s : State) (slice : Nat) (ps : List PlainFlit) : State := s.modLink slice fun l => { l with sendQ := l.sendQ ++ ps }

/-- KEY_INSTALL (R448, R450): the other sending slot takes a key unless it holds a fresh one; a receiving slot takes one when it has been retired.
A link that had stopped may send again. -/
def Link.install (l : Link) (tx slot : Bool) (k : KeySlot) : Option Link :=
  if tx then
    if slot == l.txSlot || l.otherKey.fresh then none
    else
      let l : Link := if slot then { l with tx1 := k } else { l with tx0 := k }
      some { l with stopped := false, rekeyAsked := false }
  else if (if slot then l.rx1 else l.rx0).live then none
  else some (if slot then { l with rx1 := k } else { l with rx0 := k })

/-- KEY_INSTALL on a slice's port (R448). -/
def State.keyInstall (s : State) (slice : Nat) (tx slot : Bool) (key : BitVec 256) (salt : BitVec 64) : Option State :=
  ((s.portLink slice).install tx slot { key := key, salt := salt, fresh := true, live := true }).map fun l => s.modLink slice fun _ => l

/-! ### Receiving (R447, R450) -/

/-- A receiving slot. -/
def Link.rxKey (l : Link) (slot : Bool) : KeySlot := if slot then l.rx1 else l.rx0

/-- Whether the tag of a flit verifies under its slot, and the slot is live (R447). -/
def Link.authentic (l : Link) (f : Flit) : Bool :=
  let k := l.rxKey f.slot
  k.live && f.tag == BitVec.ofNat 128 (natOfBytes (gcmTag k.roundKeys (flitIv k f.inv) (flitAad f) f.payload))

/-- Whether INV exceeds the last accepted under the slot (R447). -/
def Link.invRises (l : Link) (f : Flit) : Bool :=
  match (l.rxKey f.slot).lastInv with
  | none => true
  | some i => i.toNat < f.inv.toNat

/-- The plain flit that an accepted flit carries. -/
def Link.decrypt (l : Link) (f : Flit) : PlainFlit :=
  let k := l.rxKey f.slot
  { ftype := f.ftype.toNat, seq := f.seq, len := f.len.toNat, dest := f.dest.toNat, txn := f.txn.toNat, fidx := f.fidx.toNat
    payload := (gcmCrypt k.roundKeys (flitIv k f.inv) f.payload).take (16 * f.len.toNat) }

/-- What the receiver makes of a flit (R447): it is accepted, it fails, or it is discarded while a retransmission is awaited or because it repeats one that was accepted (log 34). -/
inductive FlitFate where
  | accepted
  | failed
  | discarded
  deriving DecidableEq, Repr

/-- The checks of R447 on a flit alone, with an invalid TYPE as a failed authentication (R446). -/
def Link.verifies (l : Link) (f : Flit) : Bool := f.ftype.toNat < 6 && f.len.toNat ≤ 14 && l.authentic f && l.invRises f

/-- The checks of R447. One whose tag and INV hold and whose SEQ lies behind repeats an accepted flit (log 34). -/
def Link.fate (l : Link) (f : Flit) : FlitFate :=
  if l.discarding && f.seq != l.expect then .discarded
  else if !l.verifies f then .failed
  else if f.seq == l.expect then .accepted
  else if (l.expect - f.seq).toNat < 2 ^ 15 then .discarded
  else .failed

/-- A failed flit: NAK is due, and later flits are discarded until a retransmission; after 8 failures in a row the link goes down for retraining (R447). -/
def Link.fail (l : Link) : Link :=
  if 8 ≤ l.fails + 1 then { l with nakDue := true, discarding := true, fails := 0, up := false }
  else { l with nakDue := true, discarding := true, fails := l.fails + 1 }

/-- Flits that the other end has accepted leave the retry buffer; a NAK makes the rest due again (R447). -/
def Link.acked (l : Link) (f : Flit) : Link :=
  let gone := l.retry.takeWhile fun p => (p.seq - f.ackSeq).toNat ≥ 2 ^ 15
  let retry := l.retry.drop gone.length
  { l with retry := retry, resend := if f.nak then retry.length else min l.resend retry.length }

/-- An accepted flit: its INV and SEQ are used, and what it acknowledges is taken; a MARKER retires the old slot (R447, R450). -/
def Link.take (l : Link) (f : Flit) : Link :=
  let used (k : KeySlot) : KeySlot := { k with lastInv := some f.inv }
  let l : Link := if f.slot then { l with rx1 := used l.rx1 } else { l with rx0 := used l.rx0 }
  let l : Link := if f.ftype.toNat = 3 then (if f.slot then { l with rx0 := {} } else { l with rx1 := {} }) else l
  { l with expect := l.expect + 1, fails := 0, discarding := false }.acked f

/-- A fabric link event in the log and the queue of the port's partition (R447, R456, R459). -/
def State.linkEvent (s : State) (slice info : Nat) : State :=
  s.report [(s.slice slice).fwPid] { type := 0x0B, slice := slice, info := BitVec.ofNat 64 info }

/-- A flit that fails. -/
def State.flitFail (s : State) (slice : Nat) : State :=
  let l := (s.portLink slice).fail
  let s := s.modLink slice fun _ => l
  if l.up then s else s.linkEvent slice 1

/-- The receipt of a flit of the right TYPE: what an accepted one does is the last argument's; none of it happens otherwise. -/
def State.flitReceive (s : State) (slice : Nat) (f : Flit) (ofType : Bool) (act : PlainFlit → State → Option State) : Option State :=
  let l := s.portLink slice
  if !l.runs || !ofType || f.payload.length != 224 then none
  else match l.fate f with
    | .discarded => some s
    | .failed => some (s.flitFail slice)
    | .accepted => act (l.decrypt f) (s.modLink slice fun _ => l.take f)

/-! ### Training (R451, R452) -/

/-- A retrain keeps keys, INVs and SEQs, and everything unacknowledged is sent again (R451). -/
def Link.retrain (l : Link) : Link := { l with up := true, resend := l.retry.length, fails := 0, discarding := false }

/-- LINK_RETRAIN (R447, R451): the event of a link that was taken down for it has been logged. -/
def State.linkRetrain (s : State) (slice : Nat) : Option State :=
  let l := s.portLink slice
  if l.mode != 0 || l.lanes = 0 then none
  else
    let s := if l.up then s.linkEvent slice 1 else s
    some (s.modLink slice Link.retrain)

/-- The send window of a link in flits: half at 4 lanes (R452). The spec gives no number for it, so Config names it. -/
def sendWindow (lanes : Nat) : Nat := if lanes = 8 then 2 * (Config.halfWindow + 1) else Config.halfWindow + 1

/-- A link at a width: its routing cost is 1 or 2, its send window and arbitration weight whole or half (R452). -/
def Link.wide (l : Link) (lanes : Nat) : Link := { l with lanes := lanes, cost := if lanes = 8 then 1 else 2, window := sendWindow lanes, weight := lanes }

/-- A link at half width (R452). -/
def Link.half (l : Link) : Link := l.retrain.wide 4

/-- Whether an inbound transfer has come whole. -/
def Inbound.whole (i : Inbound) : Bool := i.bytes ≤ i.got + i.held.foldl (fun n h => n + h.2.length) 0

/-- A link down: its retry buffer and both ends' key state are gone (R451, R452), with the transfers that it carried, in either direction. What waits to be sent and belongs to
no transfer still waits: ABORT flits and cut markers. -/
def Link.down (l : Link) : Link :=
  { ({} : Link) with
    mode := l.mode, retries := l.retries, inbound := l.inbound.filter Inbound.whole, cut := l.cut, frames := l.frames, nextTxn := l.nextTxn
    sendQ := l.sendQ.filter fun p => p.ftype == 4 || p.ftype == 5 }

/-- LINK_TRAINED (R451): fresh keys in both slots of each direction, slot 0, INV 0, SEQ 0. A port in mode 1 has no key state (R445). -/
def Link.trained (l : Link) (lanes : Nat) (k : LinkKeys) : Link :=
  let slot (p : BitVec 256 × BitVec 64) : KeySlot := { key := p.1, salt := p.2, fresh := true, live := true }
  let l : Link := { (l.down.wide lanes) with up := true }
  if l.mode = 0 then { l with tx0 := { slot k.tx0 with fresh := false }, tx1 := slot k.tx1, rx0 := slot k.rx0, rx1 := slot k.rx1 } else l

/-- LINK_TRAINED on a slice's port. -/
def State.linkTrained (s : State) (slice lanes : Nat) (k : LinkKeys) : Option State :=
  let l := s.portLink slice
  if l.lanes = 0 && !l.up && (lanes = 4 || lanes = 8) && (s.slice slice).fwPid != 0 then some (s.modLink slice fun l => l.trained lanes k) else none

/-- ETHERNET_FRAME_RECEIVE (R445): a frame of at most 9216 bytes waits for the descriptor rings that the partition OS owns. -/
def State.ethernetFrame (s : State) (slice : Nat) (frame : List Byte) : Option State :=
  let l := s.portLink slice
  if l.mode == 1 && l.up && frame.length ≤ 9216 then some (s.modLink slice fun l => { l with frames := l.frames ++ [frame] }) else none

/-! ### The port registers (R453) -/

/-- The doubleword at 0x500 (R453). -/
def Link.reg500 (l : Link) : Nat :=
  let width := if !l.up then 0 else if l.lanes = 8 then 2 else if l.lanes = 4 then 1 else 0
  l.mode % 2 + l.up.toNat * 2 + width * 4 + l.txSlot.toNat * 16 + l.stopped.toNat * 32

/-- The doubleword at 0x508 (R453): the next INV modulo 2^32. -/
def Link.reg508 (l : Link) : Nat := l.txInv % 2 ^ 32 + l.retries * 2 ^ 32

end Sys2Proof.Machine
end

