-- ==== Sys2Proof/Machine/Remote.lean ====
section
/-! DEFINITION. Commands to peers as their issuer runs them: puts and gets on this device and over the fabric (R302-R304, R462), collectives (R306-R309), acknowledgements (R304, R388) and aborts (R454). -/

namespace Sys2Proof.Machine

/-! ### Peers on this device (R302) -/

/-- The roster entry of a put's or get's rank. -/
def State.cmdPeer (s : State) (c : FerryCmd) : Option RosterEntry := s.peerOf (s.launchOf c.crew) (putDesc c.desc).rank

/-- Whether a port can carry a transfer: in mode 0 and not down (R445, R452). -/
def State.portCarries (s : State) (port : Nat) : Bool := (s.portLink port).mode == 0 && (s.portLink port).lanes != 0

/-- The port by which a new transfer of a partition reaches a peer on another device: of the ports of its slices that can carry one, that of the least routing cost, the lowest slice
where costs are equal (R452, R453). -/
def State.route (s : State) (pid : Nat) (e : RosterEntry) : Option Nat :=
  let open' := e.ports.filter fun k => (s.slice k.1).fwPid == pid && s.portCarries k.1
  let cost (k : Nat × Nat) : Nat := k.2 + (s.portLink k.1).cost
  let better (k m : Nat × Nat) : Bool := cost k < cost m || (cost k == cost m && k.1 < m.1)
  (open'.foldl (fun (b : Option (Nat × Nat)) k => match b with
    | none => some k
    | some m => if better k m then some k else b) none).map fun k => k.1

/-- The partition of a command. -/
def State.cmdPid (s : State) (c : FerryCmd) : Nat := s.pidOf (s.launchOf c.crew)

/-- Whether a peer context on this device goes on. -/
def State.peerLives (s : State) (e : RosterEntry) : Bool :=
  match tget s.contexts e.ctx with
  | none => false
  | some x => !x.killed && !x.lost

/-- The home of a put's or get's remote landing, in the peer's vault (R303). -/
def State.remoteLanding (s : State) (c : FerryCmd) (lid ppid : Nat) : Except EngStop (Option LandHome) :=
  let d := putDesc c.desc
  if !d.rl then .ok none
  else match s.landHome c lid ppid ((s.cmdPeer c).map (·.ctx)) (BitVec.ofNat 64 (d.rland / 16 * 16)) with
    | .error e => .error e
    | .ok h => .ok (some h)

/-- An update at a peer that a command waits for, after the earlier LND words of the crew, whose landing it may be (R284, R287, R304). -/
def State.ownedLand (s : State) (core slot pid : Nat) (h : LandHome) (op : LandOp) : State :=
  let u : LandUpd := { home := h, op := op, owner := some (core, slot), after := (s.cmd? core slot).map fun c => (c.crew, c.seq), pid := pid }
  { (s.modCmd core slot fun c => { c with updates := c.updates + 1 }) with landUpds := s.landUpds ++ [u] }

/-- The update that a part of b bytes makes at the peer's landing, the last part of an FPUTS one for the whole payload (R304). -/
def State.peerLand (s : State) (core slot ppid : Nat) (c : FerryCmd) (h : Option LandHome) (b : Nat) (last : Bool) : State :=
  match h with
  | none => s
  | some h =>
    if c.op == .fputs then (if last then s.ownedLand core slot ppid h (.countIn c.total) else s)
    else if b = 0 then s
    else s.ownedLand core slot ppid h (if c.op == .fget then .countOut b else .countIn b)

/-- The memory-side cache that a 16-byte chunk of a put to a rank on this device reaches first, by its slice: the chunk's home (R387). -/
def State.putHome (s : State) (c : FerryCmd) (ppid u : Nat) : Nat :=
  match s.xlate ppid ((putDesc c.desc).remote + 16 * u) true with
  | .ok q => s.enteredSlice ppid q
  | .error _ => 0

/-- The key of a command's ticket in the duplicate filters. -/
def State.cmdKey (s : State) (c : FerryCmd) : Nat := s.ticketKey (s.launchOf c.crew) c.ticket

/-- How far into REMOTE a put's ticket has been applied at a home (R387): the end of the last chunk. -/
def State.putDone (s : State) (home ticket : Nat) : Nat := (((s.filterGet home .msc ticket 0).getD []).map fun v => v.bits.toNat).headD 0

/-- The duplicate filters that n chunks of a put reach: what its horizon acknowledges retires (R386, R387). -/
def State.putArrive (s : State) (c : FerryCmd) (ppid u n : Nat) : State :=
  (((List.range n).map fun i => s.putHome c ppid (u + i)).eraseDups).foldl (fun s h => s.filterRetire h .msc (s.cmdKey c) c.hor) s

/-- Whether they have room (R387). -/
def State.putRoom (s : State) (c : FerryCmd) (ppid u n : Nat) : Bool :=
  (((List.range n).map fun i => s.putHome c ppid (u + i)).eraseDups).all fun h =>
    (s.filterGet h .msc (s.cmdKey c) 0).isSome || !s.filterFull h .msc 1

/-- Chunks of a put recorded as applied at their homes (R387). -/
def State.putRecord (s : State) (c : FerryCmd) (ppid u n : Nat) : State :=
  (List.range n).foldl (fun s i =>
    let h := s.putHome c ppid (u + i)
    let s := s.modSlice h fun x => x.setFilter .msc ((x.filterOf .msc).filter fun e => !(e.ticket == s.cmdKey c && e.lane == 0))
    s.filterPut h .msc (s.cmdKey c) 0 [mkVal .n64 (16 * (u + i + 1))]) s

/-- How many of n chunks of a put have been applied under its ticket already: writes of a captured command that landed late (R387, R390). -/
def State.putKnown (s : State) (c : FerryCmd) (ppid u n : Nat) : Nat :=
  ((List.range n).takeWhile fun i => 16 * (u + i + 1) ≤ s.putDone (s.putHome c ppid (u + i)) (s.cmdKey c)).length

/-- A part of n 16-byte chunks of a put or get to a rank on this device (R302, R304); what a put's ticket has applied before is counted and not written again (R387). -/
def State.peerPart (s : State) (core slot n : Nat) (c : FerryCmd) (e : RosterEntry) : Option State :=
  let d := putDesc c.desc
  if n = 0 || c.total < c.prog + 16 * n || !s.partEnds c n then none
  else if !s.peerLives e then some (s.endCmd core slot (BitVec.ofNat 64 d.remote))
  else
    let lid := s.launchOf c.crew
    let pid := s.pidOf lid
    let ppid := (s.peerPid e).getD pid
    match s.findLanding core slot c with
    | .error e => some (s.stopCmd core slot (some e))
    | .ok (c, s) => match s.remoteLanding c lid ppid with
      | .error e => some (s.stopCmd core slot (some e))
      | .ok home =>
        let put := c.op != .fget
        let u := c.prog / 16
        let s := if put then s.putArrive c ppid u n else s
        if put && !s.putRoom c ppid u n then none
        else
          let k := if put then s.putKnown c ppid u n else 0
          let a := EngAcc.part core lid pid { c with prog := c.prog + 16 * k } (n - k) s
          let sealed := a.st.sealAll c.written a.clean
          let s := if put then sealed.1.putRecord c ppid (u + k) a.moved else sealed.1
          let b := (k + a.moved) * 16
          let last : Bool := c.total ≤ c.prog + b
          let s := s.modCmd core slot fun c => { c with
            written := sealed.2, wrote := c.addWrote a.clean, ahead := a.ahead, prog := c.prog + b, acked := c.acked + b, done := last }
          let s := if b = 0 then s else s.countLand core slot (if c.op == .fget then .countIn b else .countOut b)
          some ((s.peerLand core slot ppid c home (if c.op == .fputs then b else a.moved * 16) last).stopCmd core slot a.stop)

/-! ### Transfers over the fabric (R446, R488) -/

/-- The bytes of one transfer at most (R446). -/
def transferBytes : Nat := (2 ^ 20 - 1) * 224

/-- Bytes cut into pieces of n, the last perhaps shorter. -/
def pieces (n : Nat) (bs : List Byte) : List (List Byte) := (List.range ((bs.length + n - 1) / n)).map fun i => (bs.drop (n * i)).take n

/-- The 48 payload bytes of an OPEN flit (R488). -/
def openPayload (ctx : Nat) (ticket : DWord) (remote bytes rland kind : Nat) (rl declass : Bool) (group : List Nat) : List Byte :=
  bytesOfNat 4 ctx ++ bytesOfNat 8 ticket.toNat ++ bytesOfNat 8 remote ++ bytesOfNat 4 bytes ++ bytesOfNat 8 rland ++ bytesOfNat 1 kind
    ++ bytesOfNat 1 (rl.toNat + declass.toNat * 2) ++ bytesOfNat 2 0 ++ group.flatMap (bytesOfNat 2) ++ bytesOfNat 6 0

/-- The DATA flits of a transfer from a flit index on (R446). -/
def dataFlits (dest txn fidx : Nat) (bs : List Byte) : List PlainFlit :=
  (pieces 224 bs).zipIdx.map fun p => { ftype := 1, len := (p.1.length + 15) / 16, dest := dest, txn := txn, fidx := fidx + p.2, payload := p.1 }

/-- A transfer opened on a port: its tag, and the OPEN flit queued. -/
def State.startTransfer (s : State) (port dest : Nat) (head : List Byte) : Nat × State :=
  let txn := (s.portLink port).nextTxn % 4096
  (txn, (s.modLink port fun l => { l with nextTxn := (txn + 1) % 4096 }).queueFlits port
    [({ ftype := 2, len := 3, dest := dest, txn := txn, payload := head } : PlainFlit)])

/-- The number of a command's context (R385). -/
def State.ctxNumber (s : State) (c : FerryCmd) : Nat := ((s.contextOf (s.launchOf c.crew)).map fun x : Context => x.ctx).getD 0

/-! ### Puts over the fabric (R304, R462) -/

/-- n chunks of e bytes read for the fabric in ascending order: a sector that is poisoned or fails its check stops the command at that sector (R462). -/
def EngAcc.gather (core lid pid e : Nat) (c : FerryCmd) (addr : Nat → EngAddr) : Nat → Nat → EngAcc → List Byte → EngAcc × List Byte
  | 0, _, a, bs => (a, bs)
  | n + 1, u, a, bs =>
    match a.st.engPlace c lid (addr u) e false with
    | .error x => ({ a with stop := some x }, bs)
    | .ok pl =>
      let r := a.read core lid pid (addr u) pl e
      let into := pl.start % 256
      if r.1.poison then
        ({ r.2 with stop := some (.dead ((addr u).addr - BitVec.ofNat 64 into)) }, bs.take (bs.length - min bs.length into))
      else EngAcc.gather core lid pid e c addr n (u + 1) { r.2 with moved := r.2.moved + 1 } (bs ++ r.1.bytes)

/-- Whether a part stopped to go on later. -/
def EngAcc.pauses (a : EngAcc) : Bool :=
  match a.stop with
  | some (.pause _ _ _) => true
  | _ => false

/-- The bytes at most of the transfer of a put that begins at an offset: it ends on a granule of REMOTE, which the peer writes whole (R324, R446). -/
def FerryCmd.span (c : FerryCmd) (start : Nat) : Nat := transferBytes - ((putDesc c.desc).remote + start) % 32

/-- Where the transfer that a put's next bytes belong to begins, and whether it is a new one. -/
def FerryCmd.transferAt (c : FerryCmd) : Nat × Bool :=
  match c.txns.getLast? with
  | none => (c.prog, true)
  | some t => if t.2 + c.span t.2 ≤ c.prog then (c.prog, true) else (t.2, false)

/-- The port that carries a put's next bytes: that of its transfer, or for a new one the route chosen now (R452, R453). -/
def State.putPort (s : State) (c : FerryCmd) (e : RosterEntry) : Option Nat :=
  if c.transferAt.2 then s.route (s.cmdPid c) e else (c.txns.getLast?.map fun t => t.1 / 4096).filter s.portCarries

/-- A part of n 16-byte chunks of a put to a rank on another device: its flits are queued at the port of its transfer (R304, R446, R488). A DATA flit but the
last of its transfer is full, so a part ends on one; FPUTS names its landing in the last transfer (log 35). -/
def State.putPart (s : State) (core slot n : Nat) (c : FerryCmd) (e : RosterEntry) : Option State :=
  let d := putDesc c.desc
  let t := c.transferAt
  let stop := min c.total (t.1 + c.span t.1)
  if n = 0 || stop < c.prog + 16 * n || (n % 14 != 0 && c.prog + 16 * n != stop) then none
  else match s.putPort c e with
  | none => some (s.endCmd core slot (BitVec.ofNat 64 (d.remote + c.acked)))
  | some port => match s.findLanding core slot c with
    | .error e => some (s.stopCmd core slot (some e))
    | .ok (c, s) =>
      let lid := s.launchOf c.crew
      let pid := s.pidOf lid
      let r := EngAcc.gather core lid pid 16 c (fun u => ownAddr d.spad pid ((d.loc : Int) + 16 * u)) n (c.prog / 16) { st := s, ahead := c.ahead } []
      let bs := if r.1.pauses then r.2.take (r.2.length / 224 * 224) else r.2
      let s := r.1.st
      if bs.isEmpty then some (s.stopCmd core slot r.1.stop)
      else
        let sum := c.op == .fputs
        let rl := d.rl && (!sum || stop == c.total)
        let head := openPayload (s.ctxNumber c) (c.ticket.getD 0) (d.remote + t.1) (stop - t.1) (if rl then d.rland else 0)
          (if sum then 1 else 0) rl d.declass [0, 0, 0]
        let o : Nat × State := if t.2 then s.startTransfer port e.node head else ((c.txns.getLast?.getD (0, 0)).1 % 4096, s)
        let s := o.2.queueFlits port (dataFlits e.node o.1 ((c.prog - t.1) / 224 + 1) bs)
        let s := s.modCmd core slot fun c => { c with
          ahead := r.1.ahead, prog := c.prog + bs.length, txns := if t.2 then c.txns ++ [(port * 4096 + o.1, t.1)] else c.txns }
        some (s.stopCmd core slot r.1.stop)

/-! ### Gets over the fabric (R304) -/

/-- The next request of an FGET to a rank on another device (R304, R488). -/
def State.getRequest (s : State) (core slot : Nat) (c : FerryCmd) (e : RosterEntry) : Option State :=
  let d := putDesc c.desc
  if c.total ≤ c.toSend then none
  else match s.route (s.cmdPid c) e with
  | none => some (s.endCmd core slot (BitVec.ofNat 64 (d.remote + c.prog)))
  | some port =>
    let n := min (c.total - c.toSend) transferBytes
    let o := s.startTransfer port e.node
      (openPayload (s.ctxNumber c) 0 (d.remote + c.toSend) n (if d.rl then d.rland else 0) 2 d.rl d.declass [0, 0, 0])
    some (o.2.modCmd core slot fun c => { c with toSend := c.toSend + n, txns := c.txns ++ [(port * 4096 + o.1, c.toSend)] })

/-- Clean chunks written at addresses one after another until one stops. -/
def EngAcc.place (core lid : Nat) (c : FerryCmd) : List (EngAddr × List Byte) → EngAcc → EngAcc
  | [], a => a
  | (x, bs) :: rest, a =>
    match a.st.engPlace c lid x bs.length true with
    | .error e => { a with stop := some e }
    | .ok pl => EngAcc.place core lid c rest { a with
        st := a.st.engWrite core pl bs false, moved := a.moved + bs.length, clean := addRange a.clean pl bs.length }

/-- Bytes that have come for an FGET written at LOCAL and counted (R304); how many were written. -/
def State.getWrite (s : State) (core slot : Nat) (c : FerryCmd) (bs : List Byte) : Nat × State :=
  match s.findLanding core slot c with
  | .error e => (0, s.stopCmd core slot (some e))
  | .ok (c, s) =>
    let d := putDesc c.desc
    let lid := s.launchOf c.crew
    let pid := s.pidOf lid
    let a := EngAcc.place core lid c ((pieces 16 bs).zipIdx.map fun p => (ownAddr d.spad pid ((d.loc : Int) + c.prog + 16 * p.2), p.1)) { st := s }
    let sealed := a.st.sealAll c.written a.clean
    let s := sealed.1
    let s := s.modCmd core slot fun c => { c with written := sealed.2, wrote := c.addWrote a.clean, prog := c.prog + a.moved, done := c.total ≤ c.prog + a.moved }
    let s := if a.moved = 0 then s else s.countLand core slot (.countIn a.moved)
    (a.moved, s.stopCmd core slot a.stop)

/-- An inbound transfer of a port. -/
def State.inbound? (s : State) (slice txn : Nat) : Option Inbound := (s.portLink slice).inbound.find? fun i => i.txn == txn

/-- An inbound transfer changed. -/
def State.modInbound (s : State) (slice txn : Nat) (f : Inbound → Inbound) : State :=
  s.modLink slice fun l => { l with inbound := l.inbound.map fun i => if i.txn == txn then f i else i }

/-- The bytes that have come for an FGET and are its next. -/
def State.getReady (s : State) (c : FerryCmd) : List Byte :=
  c.txns.foldl (fun bs t => match s.inbound? (t.1 / 4096) (t.1 % 4096) with
    | none => bs
    | some i => i.held.foldl (fun bs h => if t.2 + h.1 = c.prog + bs.length then bs ++ h.2 else bs) bs) []

/-- What has come for an FGET without its first bytes, which are written. -/
def State.getTrim (s : State) (c : FerryCmd) (prog : Nat) : State :=
  c.txns.foldl (fun s t => s.modInbound (t.1 / 4096) (t.1 % 4096) fun i => { i with
    held := i.held.filterMap fun h =>
      if t.2 + h.1 + h.2.length ≤ prog then none
      else if prog ≤ t.2 + h.1 then some h
      else some (prog - t.2, h.2.drop (prog - t.2 - h.1)) }) s

/-- n chunks of what has come for an FGET written. -/
def State.getPour (s : State) (core slot n : Nat) (c : FerryCmd) : State :=
  let r := s.getWrite core slot c ((s.getReady c).take (16 * n))
  r.2.getTrim c (c.prog + r.1)

/-- Bytes of an FGET that came while it was paused, n chunks of them written (R288, R304). -/
def State.getDrain (s : State) (core slot n : Nat) (c : FerryCmd) : Option State :=
  if n = 0 || (s.getReady c).length < 16 * n || !s.partEnds c n then none else some (s.getPour core slot n c)

/-! ### Collectives (R305-R309) -/

/-- Whether a command is a collective. -/
def EngOp.isColl : EngOp → Bool
  | .collAllred => true
  | .collAllgath => true
  | .collRedscat => true
  | .collBcast => true
  | .collCbar => true
  | _ => false

/-- The roster entries of a collective's members, in ascending member order (R305). -/
def State.collMembers (s : State) (c : FerryCmd) : List RosterEntry :=
  let r := ((s.contextOf (s.launchOf c.crew)).map fun x : Context => x.roster).getD []
  (collDesc c.desc).ranks.filterMap fun k => r[k]?

/-- The group of a collective: its members as node and context. -/
def State.collGroup (s : State) (c : FerryCmd) : List (Nat × Nat) := (s.collMembers c).map fun e => (e.node, e.ctx)

/-- The member index of a command's own context. -/
def State.collOwn (s : State) (c : FerryCmd) : Nat :=
  let own := ((s.contextOf (s.launchOf c.crew)).map fun x : Context => x.own).getD 0
  (collDesc c.desc).ranks.idxOf own

/-- The member index of the root. -/
def collRoot (c : FerryCmd) : Nat := (collDesc c.desc).ranks.idxOf (collDesc c.desc).root

/-- A collective of a group by its number; one of which nothing has come is empty. -/
def State.coll (s : State) (g : List (Nat × Nat)) (k : Nat) : Collective :=
  (s.collectives.find? fun x => x.group == g && x.number == k).getD { group := g, number := k }

/-- A collective changed. -/
def State.modColl (s : State) (g : List (Nat × Nat)) (k : Nat) (f : Collective → Collective) : State :=
  { s with collectives := (s.collectives.filter fun x => !(x.group == g && x.number == k)) ++ [f (s.coll g k)] }

/-- The operation, COUNT, ETYPE and ROOT of a command, which matched collectives must share (R306). -/
def collShape (c : FerryCmd) : EngOp × Nat × Nat × Nat :=
  let d := collDesc c.desc
  (c.op, d.count, d.etype, d.root)

/-- The unfinished commands of a collective on this device: core, slot and command. -/
def State.collCmds (s : State) (g : List (Nat × Nat)) (k : Nat) : List (Nat × Nat × FerryCmd) :=
  s.cores.flatMap fun p => (p.2.ferry.filter fun f => f.2.op.isColl && !f.2.done && f.2.recordOff == k && s.collGroup f.2 == g).map fun f => (p.1, f.1, f.2)

/-- The bytes that each member receives from each sender (R307). -/
def collNeed (c : FerryCmd) (src : Nat) : Nat :=
  let d := collDesc c.desc
  match c.op with
  | .collCbar => 0
  | .collBcast => if src = collRoot c then d.count * collBytes d.etype else 0
  | _ => d.count * collBytes d.etype

/-- The bytes for receiver k of what a member sends (R307). -/
def collShare (c : FerryCmd) (k : Nat) (bs : List Byte) : List Byte :=
  let d := collDesc c.desc
  let n := d.count * collBytes d.etype
  if c.op == .collRedscat then (bs.drop (k * n)).take n else bs

/-- Where in a receiver's RECV the bytes of a sender lie, as the OPEN flit says (R488). -/
def collOffset (c : FerryCmd) (src : Nat) : Nat := if c.op == .collAllgath then src * collNeed c src else 0

/-- The transfers that carry a member's bytes to a member on another device; at least one, so that a CBAR arrives (R308, R446). -/
def State.collTransfers (s : State) (core slot : Nat) (c : FerryCmd) (own : Nat) (e : RosterEntry) (bs : List Byte) : State :=
  let d := collDesc c.desc
  (List.range (max 1 ((bs.length + transferBytes - 1) / transferBytes))).foldl (fun s i => match s.route (s.cmdPid c) e with
  | none => s
  | some port =>
    let part := (bs.drop (i * transferBytes)).take transferBytes
    let o := s.startTransfer port e.node
      (openPayload (s.ctxNumber c) (c.ticket.getD 0) (collOffset c own + i * transferBytes) part.length 0 4 false d.declass [d.first, d.members, d.stride])
    (o.2.queueFlits port (dataFlits e.node o.1 1 part)).modCmd core slot fun c => { c with
      txns := c.txns ++ [(port * 4096 + o.1, i * transferBytes)], toSend := c.toSend + part.length }) s

/-- A member that has sent nothing and cannot send says so to the members on other devices that wait for its bytes: a transfer of 0 bytes, which agrees with
none of theirs (R306, R308, log 36). -/
def State.collTell (s : State) (core slot : Nat) (c : FerryCmd) : State :=
  let own := s.collOwn c
  if c.sent || c.op == .collCbar || (c.op == .collBcast && own != collRoot c) then s
  else ((s.collMembers c).filter fun e => e.node != s.node && (s.route (s.cmdPid c) e).isSome).foldl (fun s e => s.collTransfers core slot c own e []) s

/-- One member's command ends under R288, with a record in its partition's queue (R306, R308). -/
def State.failMember (s : State) (core slot : Nat) (c : FerryCmd) (a : DWord) : State :=
  let lid := s.launchOf c.crew
  let l := tget s.launches lid
  let s := (s.collTell core slot c).report [s.pidOf lid] {
    type := 0x0D, slice := core / 32, core := core % 32, ctx := s.ctxNumber c, launch := (l.map fun l : Launch => l.lid).getD 0
    info := BitVec.ofNat 64 (c.handle.toNat % 2 ^ 32) }
  s.endCmd core slot a

/-- A collective fails: the command of every member ends under R288 (R306, R308). -/
def State.failColl (s : State) (g : List (Nat × Nat)) (k : Nat) (a : DWord) : State :=
  let s := s.modColl g k fun x => { x with failed := true, parts := [] }
  (s.collCmds g k).foldl (fun s x => s.failMember x.1 x.2.1 x.2.2 a) s

/-- The collective endpoint of a member on this device, by its slice: that of the first slice of its partition (R387, log 23). -/
def State.endpoint (s : State) (e : RosterEntry) : Nat := (s.slicesOf (e.ctx / 2 ^ 32)).headD 0

/-- Whether the endpoint of a member has taken a command's part, by the member's index; an entry that a slice which left has handed on is found where it is now (R387). -/
def State.collKnown (s : State) (c : FerryCmd) (k : Nat) : Bool := s.slices.any fun p => (s.filterGet p.1 .coll (s.cmdKey c) k).isSome

/-- A member's part for every receiver: to the endpoint of one on this device, once for its ticket (R387), to another over the fabric; in a BCAST only the root's bytes
travel (R307). -/
def State.collSend (s : State) (core slot : Nat) (c : FerryCmd) (g : List (Nat × Nat)) (own : Nat) (bs : List Byte) : State :=
  (s.collMembers c).zipIdx.foldl (fun s x =>
    let share := collShare c x.2 bs
    if x.1.node = s.node then
      if s.collKnown c x.2 then s
      else (s.modColl g c.recordOff fun y => { y with
        parts := y.parts ++ [({ src := own, dst := x.2, shape := some (collShape c), bytes := share } : CollPart)] }).filterPut
          (s.endpoint x.1) .coll (s.cmdKey c) x.2 [mkVal .n64 c.recordOff]
    else if c.op == .collBcast && own != collRoot c then s
    else s.collTransfers core slot c own x.1 share) s

/-- Whether two members issued collectives that do not agree (R306). -/
def Collective.mismatch (x : Collective) : Bool :=
  match x.parts.filterMap fun p => p.shape with
  | [] => false
  | h :: t => t.any (· != h)

/-- Whether part of what a collective has for RECV may end before element u: no granule of global memory is cut there (R324). -/
def State.recvEnds (s : State) (c : FerryCmd) (pid u : Nat) : Bool :=
  let d := collDesc c.desc
  let at' (u : Nat) : Option (Nat × Nat) := s.farGranule (ownAddr d.recvSpad pid ((d.recv : Int) + collBytes d.etype * u))
  c.total ≤ u * collBytes d.etype || (at' u).isNone || at' (u - 1) != at' u

/-- The sending part of a collective: SEND is read whole, in ascending order; what cannot be sent fails the collective at every member (R306-R308). -/
def State.collStart (s : State) (core slot : Nat) (c : FerryCmd) : Option State :=
  let g := s.collGroup c
  let own := s.collOwn c
  let d := collDesc c.desc
  let e := collBytes d.etype
  let z := (collSizes c.op d (d.ranks.getD own 0)).1
  if (s.coll g c.recordOff).failed then some (s.failMember core slot c 0)
  else if (s.collMembers c).any fun m => m.node != s.node && (s.route (s.cmdPid c) m).isNone then some (s.failColl g c.recordOff (BitVec.ofNat 64 d.send))
  else
    let lid := s.launchOf c.crew
    let pid := s.pidOf lid
    let r := EngAcc.gather core lid pid e c (fun u => ownAddr d.sendSpad pid ((d.send : Int) + e * u)) (z / e) 0 { st := s } []
    let s := r.1.st
    match r.1.stop with
    | some (.pause a w p) => some (s.stopCmd core slot (some (.pause a w p)))
    | some (.dead a) => some (s.failColl g c.recordOff a)
    | some (.refused a t) => some ((s.refusedCmd core slot a t).failColl g c.recordOff a)
    | none =>
      let here := (s.collMembers c).zipIdx.filter fun x => x.1.node == s.node
      let ends := (here.map fun x => s.endpoint x.1).eraseDups
      let s := ends.foldl (fun s k => s.filterRetire k .coll (s.cmdKey c) c.hor) s
      if ends.any fun k => s.filterFull k .coll (here.filter fun x => s.endpoint x.1 == k && !s.collKnown c x.2).length then none
      else
        let s := s.collSend core slot c g own r.2
        let s := s.modCmd core slot fun c => { c with sent := true }
        some (if (s.coll g c.recordOff).mismatch then s.failColl g c.recordOff 0 else s)

/-- What has come from a sender for a receiver. -/
def Collective.part? (x : Collective) (src dst : Nat) : Option CollPart := x.parts.find? fun p => p.src == src && p.dst == dst

/-- Whether everything that a member receives has come (R306-R308). -/
def State.collReady (s : State) (c : FerryCmd) (g : List (Nat × Nat)) (own : Nat) : Bool :=
  let x := s.coll g c.recordOff
  (s.collMembers c).zipIdx.all fun m =>
    let need := collNeed c m.2
    match x.part? m.2 own with
    | some p => need ≤ p.bytes.length
    | none => m.1.node != s.node && c.op == .collBcast && need = 0

/-- Whether a member on another device sends more or less than a matched collective has, or its collective differs in what no flit says (R306, R488, log 23). -/
def State.collOver (s : State) (c : FerryCmd) (g : List (Nat × Nat)) (own : Nat) : Bool :=
  let x := s.coll g c.recordOff
  ((s.collMembers c).any (fun e => e.node != s.node) && Config.collDiffers g c.recordOff) || (List.range g.length).any fun k => match x.part? k own with
    | some p => collNeed c k < p.bytes.length || p.size.any (· != collNeed c k)
    | none => false

/-- A NaN result made canonical (R89, R109). -/
def canonFloat (f : FloatFmt) (x : Nat) : Nat := (f.ofNum .rne false false (f.read x)).1

/-- A left fold of values in a format (R109). -/
def foldFloat (f : FloatFmt) : List Nat → Nat
  | [] => 0
  | v :: vs => canonFloat f (vs.foldl (fun a b => (fAdd f .rne false a b).1) v)

/-- A left fold of values of a format through F32 (R109). -/
def foldShort (f : FloatFmt) (vs : List Nat) : Nat :=
  (convert (.float .f32) (.float f) .rne false false (foldFloat .f32 (vs.map fun v => (convert (.float f) (.float .f32) .rne false false v).1))).1

/-- The fold of the members' elements in ascending member order (R109). -/
def collFold (etype : Nat) (vs : List Nat) : Nat :=
  match etype with
  | 0 => foldFloat .f32 vs
  | 1 => foldFloat .f64 vs
  | 2 => foldShort .f16 vs
  | 3 => foldShort .bf16 vs
  | _ => vs.foldl (· + ·) 0 % 2 ^ (8 * collBytes etype)

/-- Element i of what a member receives (R307). -/
def Collective.elem (x : Collective) (c : FerryCmd) (own members i : Nat) : Nat :=
  let d := collDesc c.desc
  let e := collBytes d.etype
  let at' (k i : Nat) : Nat := ((x.part? k own).map fun p => leAt p.bytes (i * e) e).getD 0
  match c.op with
  | .collAllgath => at' (i / d.count) (i % d.count)
  | .collBcast => at' (collRoot c) i
  | _ => collFold d.etype ((List.range members).map fun k => at' k i)

/-- Whether SEND and RECV overlap other than in place, so that RECV is undefined (R307). -/
def collOverlaps (c : FerryCmd) (own : Nat) : Bool :=
  let d := collDesc c.desc
  let z := collSizes c.op d (d.ranks.getD own 0)
  let inPlace := d.send == d.recv && (c.op == .collAllred || c.op == .collBcast)
  d.sendSpad == d.recvSpad && !inPlace && decide (d.send < d.recv + z.2) && decide (d.recv < d.send + z.1)

/-- Elements u to u + n − 1 of RECV written. -/
def EngAcc.receive (core lid pid : Nat) (c : FerryCmd) (x : Collective) (own : Nat) : Nat → Nat → EngAcc → EngAcc
  | 0, _, a => a
  | n + 1, u, a =>
    let d := collDesc c.desc
    let e := collBytes d.etype
    let fb := a.st.freeBytes e
    let bs := if collOverlaps c own then fb.1 else bytesOfNat e (x.elem c own d.members u)
    let a := EngAcc.place core lid c [(ownAddr d.recvSpad pid ((d.recv : Int) + e * u), bs)] (if collOverlaps c own then { a with st := fb.2 } else a)
    if a.stop.isSome then a else EngAcc.receive core lid pid c x own n (u + 1) a

/-- A collective is finished at a member when RECV is written and every byte it sends is acknowledged (R308). -/
def FerryCmd.collDone (c : FerryCmd) : Bool := c.sent && c.total ≤ c.prog && c.toSend ≤ c.acked

/-- What was sent to a member is no longer needed once it has its RECV. -/
def State.collForget (s : State) (g : List (Nat × Nat)) (k own : Nat) : State :=
  let rest := (s.coll g k).parts.filter fun p => p.dst != own
  if rest.isEmpty then { s with collectives := s.collectives.filter fun x => !(x.group == g && x.number == k) }
  else s.modColl g k fun x => { x with parts := rest }

/-- The receiving part of a collective: n elements of RECV are written and counted (R307, R308). -/
def State.collReceive (s : State) (core slot n : Nat) (c : FerryCmd) : Option State :=
  let g := s.collGroup c
  let own := s.collOwn c
  let e := collBytes (collDesc c.desc).etype
  if (s.coll g c.recordOff).failed then some (s.failMember core slot c 0)
  else if s.collOver c g own then some (s.failColl g c.recordOff 0)
  else if n = 0 || c.total < c.prog + n * e || !s.collReady c g own || !s.recvEnds c (s.pidOf (s.launchOf c.crew)) (c.prog / e + n) then none
  else match s.findLanding core slot c with
    | .error x => some (s.stopCmd core slot (some x))
    | .ok (c, s) =>
      let lid := s.launchOf c.crew
      let pid := s.pidOf lid
      let a := EngAcc.receive core lid pid c (s.coll g c.recordOff) own n (c.prog / e) { st := s }
      let sealed := a.st.sealAll c.written a.clean
      let s := sealed.1
      let c' : FerryCmd := { c with prog := c.prog + a.moved }
      let s := s.modCmd core slot fun x => { x with written := sealed.2, prog := c'.prog, done := c'.collDone }
      let s := if a.moved = 0 then s else s.countLand core slot (.countIn a.moved)
      let s := if c'.total ≤ c'.prog then s.collForget g c.recordOff own else s
      match a.stop with
      | some (.pause x w p) => some (s.stopCmd core slot (some (.pause x w p)))
      | some (.dead x) => some (s.failColl g c.recordOff x)
      | some (.refused x t) => some ((s.refusedCmd core slot x t).failColl g c.recordOff x)
      | none => some s

/-- CBAR_ARRIVAL: every member has issued its CBAR, and ARR falls by one (R308). -/
def State.cbarArrival (s : State) (core slot : Nat) : Option State :=
  match s.cmd? core slot with
  | none => none
  | some c =>
    let g := s.collGroup c
    let own := s.collOwn c
    if c.op != .collCbar || !s.cmdRuns core c || !c.sent || c.prog != 0 then none
    else if s.collOver c g own then some (s.failColl g c.recordOff 0)
    else if !s.collReady c g own then none
    else match s.findLanding core slot c with
      | .error x => some (s.stopCmd core slot (some x))
      | .ok (_, s) =>
        let s := (s.countLand core slot .arrive).modCmd core slot fun x => { x with prog := 1, done := true }
        some (s.collForget g c.recordOff own)

/-! ### ENGINE_TRANSFER_PART -/

/-- A part of a put or get. -/
def State.putGetPart (s : State) (core slot n : Nat) (c : FerryCmd) : Option State :=
  match s.cmdPeer c with
  | none => some (s.endCmd core slot (BitVec.ofNat 64 (putDesc c.desc).remote))
  | some e =>
    if e.node = s.node then s.peerPart core slot n c e
    else if c.op == .fget then (if n = 0 then s.getRequest core slot c e else s.getDrain core slot n c)
    else s.putPart core slot n c e

/-- A part of n units of what a captured command had on its way: it takes effect in memory and counts no landing of its own down, and a put's writes pass the duplicate
filters, so that the replay does not write them again (R387, R390). -/
def State.strayPart (s : State) (core k n : Nat) : Option State :=
  match s.strays[k]? with
  | none => none
  | some st =>
    let c := st.cmd
    let lid := s.launchOf c.crew
    let pid := s.pidOf lid
    let put := c.op == .fput || c.op == .fputs
    let ppid := ((s.cmdPeer c).bind s.peerPid).getD pid
    let u := c.prog / 16
    if st.core != core || !c.txns.isEmpty || (tget s.crews c.crew).isNone || n = 0 || c.total < c.prog + n * c.unit || !s.partEnds c n then none
    else
      let s := if put then s.putArrive c ppid u n else s
      if put && !s.putRoom c ppid u n then none
      else
        let m := if put then s.putKnown c ppid u n else 0
        let a := EngAcc.part core lid pid { c with prog := c.prog + m * c.unit } (n - m) s
        let sealed := a.st.sealAll c.written a.clean
        let s := if put then sealed.1.putRecord c ppid (u + m) a.moved else sealed.1
        let s := if c.op != .fput || a.moved = 0 then s else match s.remoteLanding c lid ppid with
          | .ok (some h) => s.sendLand ppid h (.countIn (16 * a.moved))
          | _ => s
        let c := { c with prog := c.prog + (m + a.moved) * c.unit, ahead := a.ahead, written := sealed.2 }
        some { s with strays := if a.stop.isSome || c.total ≤ c.prog then s.strays.eraseIdx k else s.strays.set k { st with cmd := c } }

/-- An engine command moves a part of its data and counts its landing down (R295, R304, R308). A part is n units of the command:
the smaller of an element and 16 bytes, for a put or get 16 bytes, for a collective n elements of RECV. Part 0 of a collective sends, and part 0 of a
fabric FGET sends its next request. A command that has ended makes its last update once its landing is found. -/
def State.transferPart (s : State) (core slot n : Nat) : Option State :=
  match s.cmd? core slot with
  | none => none
  | some c =>
    if c.ending.isSome && c.paused.isNone && !c.done then some (s.finishCmd core slot)
    else if !s.cmdRuns core c then none
    else if c.op.isColl then (if c.sent then (if c.op == .collCbar then none else s.collReceive core slot n c) else if n = 0 then s.collStart core slot c else none)
    else match c.op with
      | .fput => s.putGetPart core slot n c
      | .fputs => s.putGetPart core slot n c
      | .fget => s.putGetPart core slot n c
      | .fatom => none
      | .nmc => none
      | _ => s.copyPart core slot n

/-! ### Acknowledgements (R304, R388) -/

/-- The command that a transfer belongs to: core, slot and command. -/
def State.txnOwner (s : State) (slice txn : Nat) : Option (Nat × Nat × FerryCmd) :=
  (s.cores.findSome? fun p => (p.2.ferry.find? fun f => f.2.txns.any fun t => t.1 == slice * 4096 + txn).map fun f => (p.1, f.1, f.2))

/-- The bytes of a transfer that its port has not sent yet. -/
def Link.unsent (l : Link) (txn : Nat) : Nat :=
  (l.sendQ.filter fun p => p.ftype == 1 && p.txn == txn).foldl (fun n p => n + p.payload.length) 0

/-- A transfer of a captured FGET is over. -/
def State.strayDone (s : State) (tag : Nat) : State :=
  { s with strays := s.strays.filterMap fun x =>
      let c := { x.cmd with txns := x.cmd.txns.filter fun t => t.1 != tag }
      if x.cmd.txns.isEmpty || !c.txns.isEmpty then some { x with cmd := c } else none }

/-- An acknowledgement of n bytes for a captured command: it counts nothing down, and the last one ends what is outstanding of it (R388-R390); one of no bytes ends it too. -/
def State.strayAck (s : State) (slice txn n : Nat) : State :=
  { s with strays := s.strays.filterMap fun x =>
      if !x.cmd.txns.any fun t => t.1 == slice * 4096 + txn then some x
      else
        let c := { x.cmd with acked := x.cmd.acked + n }
        if n = 0 || (if c.op.isColl then c.toSend else c.prog) ≤ c.acked then none else some { x with cmd := c } }

/-- FABRIC_ACK_RECEIVE: a peer's acknowledgement of n bytes of a transfer counts OUTB down (R304); one that belongs to no command of the current generation
is dropped (R388). An acknowledgement of no bytes stands for the peer's answer that the transfer cannot be applied, and ends the command (R302, R303, R488, log 36). -/
def State.fabricAck (s : State) (slice txn n : Nat) : Option State :=
  match s.txnOwner slice txn with
  | none => some (s.strayAck slice txn n)
  | some (core, slot, c) =>
    let stale := ((tget s.crews c.crew).map fun w : Crew => w.gen) != some c.gen
    if c.done || c.ending.isSome || stale then some s
    else if c.op.isColl then
      if n = 0 then some (s.failColl (s.collGroup c) c.recordOff 0)
      else if c.toSend < c.acked + n + (s.portLink slice).unsent txn then none
      else
        let c' : FerryCmd := { c with acked := c.acked + n }
        some (s.modCmd core slot fun c => { c with acked := c'.acked, done := c'.collDone })
    else
      let d := putDesc c.desc
      if n = 0 then some (s.endCmd core slot (BitVec.ofNat 64 (d.remote + if c.op == .fget then c.prog else c.acked)))
      else if c.op == .fget || c.prog < c.acked + n + (s.portLink slice).unsent txn then none
      else
        let s := s.modCmd core slot fun c => { c with acked := c.acked + n, done := c.total ≤ c.acked + n }
        some (s.countLand core slot (.countOut n))

/-! ### Killed contexts (R454) -/

/-- A rank marked unusable in every roster that names it (R454). -/
def State.rankUnusable (s : State) (node ctx : Nat) : State :=
  { s with contexts := s.contexts.map fun p => (p.1, { p.2 with
      roster := p.2.roster.map fun e => if e.node = node && e.ctx = ctx then { e with usable := false } else e }) }

/-- A collective command takes status aborted and completes (R454). -/
def State.abortCmd (s : State) (core slot : Nat) : State :=
  match s.cmd? core slot with
  | none => s
  | some c =>
    if c.done || c.ending.isSome then s
    else (s.modCmd core slot fun c => { c with ending := some 1, cancelled := true, paused := none, ftag := none }).finishCmd core slot

/-- The collectives on this device on a group that a killed member belongs to, its own among them (R454). -/
def State.abortGroup (s : State) (g : List (Nat × Nat)) : State :=
  let hit := s.cores.flatMap fun p => (p.2.ferry.filter fun f =>
    f.2.op.isColl && !f.2.done && s.collGroup f.2 == g).map fun f => (p.1, f.1)
  let s := hit.foldl (fun s x => s.abortCmd x.1 x.2) s
  { s with collectives := s.collectives.filter fun x => x.group != g }

/-- The payload of an ABORT flit: the context, and GFIRST, GCOUNT and GSTRIDE of the group (R446, log 37). -/
def abortPayload (ctx : Nat) (group : List Nat) : List Byte := bytesOfNat 4 ctx ++ group.flatMap (bytesOfNat 2) ++ bytesOfNat 6 0

/-- The crews of every table, saved ones too. -/
def State.everyCrew (s : State) : List Crew := (s.crews.map fun p => p.2) ++ s.saved.flatMap fun u => u.crews

/-- The group of a collective that a manifest holds: its members as node and context. -/
def State.savedGroup (s : State) (w : Crew) (c : FerryCmd) : List (Nat × Nat) :=
  let r := ((s.contextOf w.launch).map fun x : Context => x.roster).getD []
  ((collDesc c.desc).ranks.filterMap fun k => r[k]?).map fun e => (e.node, e.ctx)

/-- A collective that a manifest holds, cancelled where it is on a group and not of the killed member (R454). -/
def State.abortEntry (s : State) (dead : Nat × Nat) (g : List (Nat × Nat)) (w : Crew) (m : ManifestEnt) : ManifestEnt :=
  let own := ((s.contextOf w.launch).map fun x : Context => x.ctx).getD 0
  match m.op with
  | .engine c => if c.op.isColl && !c.done && s.savedGroup w c == g && (s.node, own) != dead
      then { m with op := .engine (if c.lands && c.landing.isNone && !c.landDead then { c with ending := some 1, cancelled := true, paused := none, ftag := none }
        else { c with done := true, cancelled := true }) } else m
  | _ => m

/-- The collectives of frozen crews on a group that a killed member belongs to: cancelled, and status aborted on its way to their landings (R454). -/
def State.abortSaved (s : State) (dead : Nat × Nat) (g : List (Nat × Nat)) : State :=
  let one (w : Crew) : Crew := { w with replay := w.replay.map (s.abortEntry dead g w) }
  let ups := s.everyCrew.flatMap fun w => (w.replay.zip (one w).replay).filterMap fun x => match x.1.op, x.2.op with
    | .engine c, .engine d => if c.done == d.done then none else d.landing.map fun h =>
        ({ home := h, op := .status 1, after := some (w.id, d.seq), pid := s.pidOf w.launch } : LandUpd)
    | _, _ => none
  { s with
    crews := s.crews.map fun p => (p.1, one p.2)
    saved := s.saved.map fun u => { u with crews := u.crews.map one }
    landUpds := s.landUpds ++ ups }

/-- A killed context's collectives: an ABORT flit to every other member of each group with one matched or outstanding; members on this device are aborted at once (R454). -/
def State.abortContext (s : State) (ctx : Nat) : State :=
  let live := s.cores.flatMap fun p => (p.2.ferry.filter fun f => f.2.op.isColl && !f.2.done && s.ctxNumber f.2 == ctx).map fun f => f.2
  let held := (s.everyCrew.filter fun w => ((s.contextOf w.launch).map fun x : Context => x.ctx) == some ctx).flatMap fun w =>
    w.replay.filterMap fun m => match m.op with
      | .engine c => if c.op.isColl && !c.done then some c else none
      | _ => none
  let roster := ((tget s.contexts ctx).map fun x : Context => x.roster).getD []
  let groups := ((live ++ held).map fun c =>
    let d := collDesc c.desc
    (d.ranks.filterMap fun k => roster[k]?, [d.first, d.members, d.stride])).eraseDups
  let s := groups.foldl (fun s x =>
    let g := x.1.map fun e : RosterEntry => (e.node, e.ctx)
    let s := (s.abortGroup g).abortSaved (s.node, ctx) g
    (x.1.filter fun e => e.node != s.node).foldl (fun s e => match s.route (ctx / 2 ^ 32) e with
      | none => s
      | some port => s.queueFlits port [({ ftype := 5, len := 1, dest := e.node, payload := abortPayload ctx x.2 } : PlainFlit)]) s) s
  if groups.isEmpty then s else s.rankUnusable s.node ctx

/-! ### Links lost (R452) -/

/-- Whether a command still has a route to the peers that it sends to or reads from (R452). -/
def State.hasRoute (s : State) (c : FerryCmd) : Bool :=
  let reach (e : RosterEntry) : Bool := e.node == s.node || (s.route (s.cmdPid c) e).isSome
  if c.op.isColl then (s.collMembers c).all reach else ((s.cmdPeer c).map reach).getD false

/-- A command whose transfer lost its link and that has another route: it goes on from what its peers have acknowledged, or from what has come, with new transfers; the duplicate
filters keep what was applied from being applied again (R387, R446, R452). -/
def FerryCmd.rerouted (c : FerryCmd) : FerryCmd :=
  let c : FerryCmd := { c with txns := [], ahead := none }
  if c.op.isColl then { c with sent := false, toSend := 0, acked := 0 }
  else if c.op == .fget then { c with toSend := c.prog }
  else { c with prog := c.acked }

/-- A port that carries no more: the commands whose transfers it carried go on by another route, and end as unresolvable faults where there is none (R288, R451, R452). -/
def State.endTransfers (s : State) (slice : Nat) : State :=
  let hit := s.cores.flatMap fun p => (p.2.ferry.filter fun f => !f.2.done && f.2.txns.any fun t => t.1 / 4096 == slice).map fun f => (p.1, f.1, f.2)
  let s := { s with strays := s.strays.filter fun x => !x.cmd.txns.any fun t => t.1 / 4096 == slice }
  hit.foldl (fun s x =>
    let c := x.2.2
    if s.hasRoute c then s.modCmd x.1 x.2.1 FerryCmd.rerouted
    else if c.op.isColl then s.failColl (s.collGroup c) c.recordOff 0
    else s.endCmd x.1 x.2.1 (BitVec.ofNat 64 ((putDesc c.desc).remote + if c.op == .fget then c.prog else c.acked))) s

/-- LINK_LANE_LOSS (R451, R452): a link that trains at 4 lanes goes on at half width; one that does not is down. -/
def State.laneLoss (s : State) (slice : Nat) (trains : Bool) : Option State :=
  let l := s.portLink slice
  if l.mode != 0 || l.lanes = 0 then none
  else if trains then some ((s.modLink slice Link.half).linkEvent slice 2)
  else some (((s.modLink slice Link.down).linkEvent slice 3).endTransfers slice)

end Sys2Proof.Machine
end

