-- ==== Sys2Proof/Machine/Fabric.lean ====
section
/-! DEFINITION. Commands from peers as this device receives them: OPEN, DATA, CUT and ABORT flits, inbound writes with their translation faults, FGET requests served, the parts of collectives, and ticketed requests that arrive late (R303, R304, R306, R387, R408, R443, R446, R454, R462, R488). -/

namespace Sys2Proof.Machine

/-! ### Whose transfer it is -/

/-- The local contexts that a peer's context may mean, each with the roster entry that names the peer: live contexts of the partition that owns the port, whose rosters name the peer on
another device. -/
def State.named (s : State) (slice peer : Nat) : List (Context × RosterEntry) :=
  let pid := (s.slice slice).fwPid
  let live := s.contexts.filter fun p => p.2.pid == pid && !p.2.killed && !p.2.lost
  live.flatMap fun p => (p.2.roster.filter fun e => e.ctx % 2 ^ 32 == peer && e.node != s.node).map fun e => (p.2, e)

/-- The local context that a flit from a peer's context is for: one that reaches the peer by way of this port, where there is one (log 38). -/
def State.receiver (s : State) (slice peer : Nat) : Option (Context × RosterEntry) :=
  ((s.named slice peer).find? fun x => x.2.ports.any fun k => k.1 == slice).orElse fun _ => (s.named slice peer).head?

/-- Whether an inbound access may be made: none when it meets a world's window and the peer does not run under the same tenant key; else the seal that opens it (R416, R422). -/
def State.peerWorld (s : State) (x : Context) (same : Bool) (a n : Nat) : Option (Option Seal) :=
  let met := s.harbour.handles.filter fun p => p.2.live && p.2.pid == x.pid && (meetsWindows p.2.gwin a n || meetsWindows p.2.vwin a n)
  if met.all fun p => same && p.2.ctx == x.ctx % 2 ^ 32 then some ((met.find? fun p => inWindows p.2.gwin a n).map fun p => sealOf p.1 p.2) else none

/-- The place of an access that a port makes for a peer, in its context's own space (R288, R303, R430). -/
def State.portPlace (s : State) (slice : Nat) (x : Context) (same : Bool) (a : DWord) (n : Nat) (write : Bool) : Except EngStop EngPlace :=
  match s.peerWorld x same a.toNat n with
  | none => .error (.dead a)
  | some opens => match s.xlate x.pid a.toNat write with
    | .error _ => .error (.pause a write true)
    | .ok q =>
      let target := s.enteredSlice x.pid q
      if s.firewallOk slice target x.pid then .ok (if q.1 then .chip (.vault q.2) else .glob x.pid q.2 opens) else .error (.refused a target)

/-- An inbound transfer that stops: it waits for its translation fault, or nothing more of it is applied (R303, R430). -/
def State.stopInbound (s : State) (slice txn pid : Nat) : Option EngStop → State
  | none => s
  | some (.pause a w _) => s.modInbound slice txn fun i => { i with paused := some (a, w) }
  | some (.dead _) => s.modInbound slice txn fun i => { i with skip := true, held := [] }
  | some (.refused a t) => (s.firewallRecord slice t pid a .guest).modInbound slice txn fun i => { i with skip := true, held := [] }

/-- An inbound transfer is over. -/
def State.dropInbound (s : State) (slice txn : Nat) : State :=
  s.modLink slice fun l => { l with inbound := l.inbound.filter fun i => i.txn != txn }

/-! ### Inbound writes (R304, R387, R462) -/

/-- What a duplicate filter holds for a ticket, as numbers. -/
def State.filterNums (s : State) (slice : Nat) (k : FilterKind) (ticket : Nat) : Option (List Nat) :=
  (s.filterGet slice k ticket 0).map fun r => r.map fun v => v.bits.toNat

/-- A filter's result for a ticket changed, or entered. -/
def State.filterSet (s : State) (slice : Nat) (k : FilterKind) (ticket : Nat) (r : List Nat) : State :=
  (s.modSlice slice fun x => x.setFilter k ((x.filterOf k).filter fun e => !(e.ticket == ticket && e.lane == 0))).filterPut
    slice k ticket 0 (r.map fun n => mkVal .n64 n)

/-- The memory-side cache that a place belongs to, by its slice (R387, R432). -/
def State.placeHome (s : State) (pl : EngPlace) : Nat :=
  match pl with
  | .glob p pa _ => s.homeSlice p pa
  | .chip (.vault pa) => vaultSlice pa
  | .chip _ => 0

/-- The least horizon that the sequence of a ticket leaves its crew: an OPEN flit has no field for the horizon, and a sequence lies below it plus 2^15
(R386, R488, log 36). -/
def leastHorizon (ticket : Nat) : BitVec 16 := BitVec.ofNat 16 (ticket / 2 ^ 48) - 0x7FFF

/-- The key of an inbound transfer's ticket in the duplicate filters: tickets of other devices are told apart by their node (R385, R387, log 51). -/
def Inbound.key (i : Inbound) : Nat := (2 ^ 32 + i.node) * 2 ^ 64 + i.ticket.toNat

/-- Chunks written for a peer in order, once for their ticket: the filter of each home holds where its last chunk ended and how many bytes it has taken, a chunk
below that end was applied before, and a full filter holds the rest back (R387). What was not reached is left. -/
def EngAcc.portPut (slice : Nat) (x : Context) (same : Bool) (ticket : Nat) : List (Nat × List Byte) → EngAcc → EngAcc × List (Nat × List Byte)
  | [], a => (a, [])
  | (ad, bs) :: rest, a =>
    match a.st.portPlace slice x same (BitVec.ofNat 64 ad) bs.length true with
    | .error e => ({ a with stop := some e }, (ad, bs) :: rest)
    | .ok pl =>
      let home := a.st.placeHome pl
      let s := a.st.filterRetire home .msc ticket (leastHorizon ticket)
      let known := s.filterNums home .msc ticket
      let f := known.getD []
      if ad < f.getD 0 0 then EngAcc.portPut slice x same ticket rest { a with st := s }
      else if known.isNone && s.filterFull home .msc 1 then ({ a with st := s }, (ad, bs) :: rest)
      else EngAcc.portPut slice x same ticket rest { a with
        st := (s.engWrite (portCore slice) pl bs false).filterSet home .msc ticket [ad + bs.length, f.getD 1 0 + bs.length]
        moved := a.moved + bs.length, clean := addRange a.clean pl bs.length }

/-- The home of the landing that an inbound transfer names (R303). -/
def State.inboundLanding (s : State) (slice : Nat) (x : Context) (same : Bool) (i : Inbound) : Except EngStop (Option LandHome) :=
  if !i.rl then .ok none
  else
    let va : DWord := BitVec.ofNat 64 (i.rland.toNat / 16 * 16)
    match s.portPlace slice x same va 16 true with
    | .error e => .error e
    | .ok (.chip (.vault pa)) => .ok (some (.vault pa))
    | .ok _ => .error (.pause va true true)

/-- Whether an earlier transfer of the same put is still here, so that a later one waits (R333): its bytes come first. Of an FPUTS one that can no longer be
applied leaves the payload unwritten. -/
def State.putWaits (s : State) (slice : Nat) (i : Inbound) : Bool :=
  (s.portLink slice).inbound.any fun j => j.kind == i.kind && j.ctx == i.ctx && j.ticket == i.ticket && j.remote.toNat < i.remote.toNat && (i.kind == 1 || !j.skip)

/-- The bytes of a put that the memory-side caches have taken under its ticket. -/
def State.putTotal (s : State) (ticket : Nat) : Nat := s.slices.foldl (fun n p => n + ((s.filterNums p.1 .msc ticket).getD []).getD 1 0) 0

/-- The single update of INB of an FPUTS, once for its ticket, counts the bytes of the command (R304, R387). -/
def State.putCounted (s : State) (x : Context) (ticket : Nat) (h : LandHome) : State :=
  match h with
  | .vault pa =>
    let k := vaultHome pa / 32
    if (s.filterGet k .vault ticket 0).isSome then s
    else (s.sendLand x.pid h (.countIn (s.putTotal ticket))).filterSet k .vault ticket [s.putTotal ticket]
  | _ => s

/-- What has come of an inbound FPUT or FPUTS is written, once for its ticket; FPUT counts INB down by each part, FPUTS once by the whole payload (R304, R387).
Half a granule waits for its other half, which comes with the next flit (R324). -/
def State.applyPuts (s : State) (slice : Nat) (i : Inbound) (x : Context) (e : RosterEntry) : State :=
  if s.putWaits slice i then s
  else match s.inboundLanding slice x e.sameKey i with
  | .error stop => s.stopInbound slice i.txn x.pid (some stop)
  | .ok home =>
    let chunks := i.held.flatMap fun h => (pieces 16 h.2).zipIdx.map fun p => (i.remote.toNat + h.1 + 16 * p.2, p.1)
    let all := i.held.foldl (fun n h => n + h.2.length) 0
    let half : Bool := i.got + all < i.bytes && (i.remote.toNat + i.got + all) % 32 != 0
    let r := EngAcc.portPut slice x e.sameKey i.key (if half then chunks.dropLast else chunks) { st := s }
    let sealed := r.1.st.sealAll i.written r.1.clean
    let s := sealed.1
    let left := (r.2 ++ if half then chunks.drop (chunks.length - 1) else []).flatMap fun p => p.2
    let got := i.got + all - left.length
    let s := s.modInbound slice i.txn fun i => { i with written := sealed.2, got := got, held := if left.isEmpty then [] else [(got, left)] }
    let s := match home with
      | none => s
      | some h =>
        if i.kind = 0 then (if r.1.moved = 0 then s else s.sendLand x.pid h (.countIn r.1.moved))
        else if got = i.bytes then s.putCounted x i.key h
        else s
    if got = i.bytes then s.dropInbound slice i.txn else s.stopInbound slice i.txn x.pid r.1.stop

/-! ### FGET requests (R304) -/

/-- A bad read at a port: its record (R290, R456, R462). -/
def State.portReport (s : State) (slice : Nat) (x : Context) (a : DWord) (pl : EngPlace) (b : EngBad) : State :=
  let e : ErrRec := { type := b.1, aval := true, slice := slice, ctx := x.ctx, addr := a - BitVec.ofNat 64 (pl.start % 256), info := b.2 }
  match pl with
  | .glob p pa _ => s.report [p] { e with slice := s.homeSlice p pa } .guest
  | .chip _ => s.report [x.pid] e .guest

/-- A number that names no launch: a port reads for none of this device's. -/
def State.noLaunch (s : State) : Nat := s.launches.foldl (fun n p => max n p.1) 0 + 1

/-- What a port has read for a peer: the state, the bytes, why it stopped, and the second half of the granule read last (R324). -/
structure PortRead where
  st : State
  bytes : List Byte := []
  stop : Option EngStop := none
  ahead : Option (Nat × List Byte) := none

/-- At most n 16-byte chunks read for a peer from an address on: a poisoned or failing sector ends it (R462), and a granule of global memory is read whole (R324). -/
def State.portGather (slice : Nat) (x : Context) (same : Bool) : Nat → Nat → PortRead → PortRead
  | 0, _, r => r
  | n + 1, a, r =>
    let va : DWord := BitVec.ofNat 64 a
    let s := r.st
    match s.portPlace slice x same va 16 false with
    | .error e => { r with stop := some e }
    | .ok pl => match r.ahead.filter fun h => h.1 == a with
    | some h => State.portGather slice x same n (a + 16) { r with bytes := r.bytes ++ h.2, ahead := none }
    | none =>
      let s := match pl with
        | .chip q => s.detect (32 * slice) x.pid s.noLaunch q 16
        | .glob _ _ _ => s
      let whole : Bool := match pl with
        | .glob _ pa _ => pa % 32 == 0
        | .chip _ => false
      let q := s.engRead (portCore slice) pl (if whole then 32 else 16)
      if q.1.poison then
        let s := match q.1.bad with
          | none => q.2
          | some b => q.2.portReport slice x va pl b
        { r with st := s, bytes := r.bytes.take (r.bytes.length - min r.bytes.length (pl.start % 256)), stop := some (.dead va) }
      else State.portGather slice x same n (a + 16) { r with
        st := q.2, bytes := r.bytes ++ q.1.bytes.take 16, ahead := if whole then some (a + 16, q.1.bytes.drop 16) else none }

/-- The next flits of an FGET that this device serves, at most n: each counts OUTB of the landing that the request names (R304). -/
def State.serve (slice : Nat) (x : Context) (e : RosterEntry) (home : Option LandHome) : Nat → State → Inbound → State
  | 0, s, _ => s
  | n + 1, s, i =>
    let m := min 14 ((i.bytes - i.got) / 16)
    if m = 0 then s.dropInbound slice i.txn
    else
      let r := State.portGather slice x e.sameKey m (i.remote.toNat + i.got) { st := s, ahead := i.ahead }
      let bs := match r.stop with
        | some (.dead _) => r.bytes
        | some _ => []
        | none => r.bytes
      let s := r.st
      let s := if bs.isEmpty then s else s.queueFlits slice (dataFlits i.node i.txn (i.got / 224 + 1) bs)
      let s := match home with
        | some h => if bs.isEmpty then s else s.sendLand x.pid h (.countOut bs.length)
        | none => s
      let on (j : Inbound) : Inbound := { j with got := i.got + bs.length, ahead := if r.stop.isNone then r.ahead else i.ahead }
      let s := s.modInbound slice i.txn on
      match r.stop with
      | none => State.serve slice x e home n s (on i)
      | some stop => s.stopInbound slice i.txn x.pid (some stop)

/-- A request served as far as it goes. -/
def State.serveGet (s : State) (slice : Nat) (i : Inbound) (x : Context) (e : RosterEntry) : State :=
  match s.inboundLanding slice x e.sameKey i with
  | .error stop => s.stopInbound slice i.txn x.pid (some stop)
  | .ok home => State.serve slice x e home ((i.bytes + 223) / 224 + 1) s i

/-! ### Parts of collectives (R306, R307) -/

/-- The group of a collective as a context's roster names it. -/
def groupOf (x : Context) (g : List Nat) : List (Nat × Nat) :=
  (List.range (g.getD 1 0)).filterMap fun m => (x.roster[g.getD 0 0 + m * g.getD 2 0]?).map fun e => (e.node, e.ctx)

/-- The number of a peer's collective: that of its ticket where the endpoint knows it, else the next in the peer's order on the group (R306, R387). -/
def State.peerNumber (s : State) (slice ticket : Nat) (x : Context) (src : Nat) (g : List Nat) (start : Nat) : Nat × State :=
  match s.filterNums slice .coll ticket with
  | some (k :: _) => (k, s)
  | _ =>
    let who := 2 ^ 64 * (src + 1) + x.ctx
    let k := s.collNumber who (g.getD 0 0) (g.getD 1 0) (g.getD 2 0)
    (k, (s.collNext who (g.getD 0 0) (g.getD 1 0) (g.getD 2 0)).filterSet slice .coll ticket [k, start, 0])

/-- A collective's transfer opened: the sender's part is there, though nothing of it may have come. -/
def State.openColl (s : State) (slice : Nat) (i : Inbound) (x : Context) (e : RosterEntry) : State :=
  let key := groupOf x i.group
  let src := key.idxOf (e.node, e.ctx)
  let dst := key.idxOf (s.node, x.ctx)
  if key.length ≤ src || key.length ≤ dst then s.modInbound slice i.txn fun i => { i with skip := true }
  else
    let n := s.peerNumber slice i.key x src i.group i.remote.toNat
    let s := n.2.modInbound slice i.txn fun i => { i with number := n.1 }
    let c := s.coll key n.1
    let s := if (c.part? src dst).isSome || c.failed then s
      else s.modColl key n.1 fun c => { c with parts := c.parts ++ [({ src := src, dst := dst } : CollPart)] }
    let start := ((s.filterNums slice .coll i.key).getD []).getD 1 0
    let s := if transferBytes ≤ i.bytes || c.failed then s
      else s.modColl key n.1 fun c => { c with
        parts := c.parts.map fun p => if p.src = src && p.dst = dst then { p with size := some (i.remote.toNat + i.bytes - start) } else p }
    if i.bytes = 0 then s.dropInbound slice i.txn else s

/-- Bytes of a collective's transfer that have come: those not yet counted under the ticket are the sender's next bytes (R387). -/
def State.collBytesIn (s : State) (slice : Nat) (i : Inbound) (x : Context) (e : RosterEntry) (bs : List Byte) : State :=
  let key := groupOf x i.group
  let src := key.idxOf (e.node, e.ctx)
  let dst := key.idxOf (s.node, x.ctx)
  let f := (s.filterNums slice .coll i.key).getD [i.number, i.remote.toNat, 0]
  let at' := i.remote.toNat + i.got - f.getD 1 0
  let new := bs.drop (f.getD 2 0 - at')
  let s := s.filterSet slice .coll i.key [i.number, f.getD 1 0, f.getD 2 0 + new.length]
  let s := s.modColl key i.number fun c => { c with
    parts := c.parts.map fun p => if p.src = src && p.dst = dst then { p with bytes := p.bytes ++ new } else p }
  if i.got + bs.length = i.bytes then s.dropInbound slice i.txn else s.modInbound slice i.txn fun i => { i with got := i.got + bs.length }

/-! ### OPEN and DATA (R446, R488) -/

/-- What of one inbound transfer can be done now is done. -/
def State.runOne (s : State) (slice txn : Nat) : State :=
  match s.inbound? slice txn with
  | none => s
  | some i =>
    if i.skip || i.paused.isSome then s
    else match s.receiver slice i.ctx with
      | none => s.modInbound slice txn fun i => { i with skip := true, held := [] }
      | some (x, e) =>
        if i.kind < 2 then s.applyPuts slice i x e
        else if i.kind = 2 then s.serveGet slice i x e
        else s

/-- What of an inbound transfer can be done now is done, and then what waited for it of the same put. -/
def State.runInbound (s : State) (slice txn : Nat) : State :=
  match s.inbound? slice txn with
  | none => s
  | some i =>
    let later := ((s.portLink slice).inbound.filter fun j => j.txn != txn && i.kind < 2 && j.kind == i.kind && j.ctx == i.ctx && j.ticket == i.ticket).map fun j => j.txn
    later.foldl (fun s t => s.runOne slice t) (s.runOne slice txn)

/-- A part of an inbound transfer: what it holds goes on. -/
def State.inboundPart (s : State) (slice txn : Nat) : Option State :=
  match s.inbound? slice txn with
  | none => none
  | some i => if i.skip || i.paused.isSome || i.held.isEmpty || 2 ≤ i.kind then none else some (s.runInbound slice txn)

/-- ENGINE_TRANSFER_PART: a part of the command in a core's slot; of an inbound transfer of a port, which is named by the port's number and the tag (R303, log 39);
or, from slot 512 on, of what a captured command had on its way (R390). -/
def State.enginePart (s : State) (core slot n : Nat) : Option State :=
  if 512 ≤ core then s.inboundPart (core - 512) slot
  else if 512 ≤ slot then s.strayPart core (slot - 512) n
  else s.transferPart core slot n

/-- The header of an inbound transfer (R488). -/
def inboundOf (p : PlainFlit) : Inbound :=
  let b := p.payload
  { txn := p.txn, node := 0, ctx := leAt b 0 4, ticket := BitVec.ofNat 64 (leAt b 4 8), remote := BitVec.ofNat 64 (leAt b 12 8), bytes := leAt b 20 4
    rland := BitVec.ofNat 64 (leAt b 24 8), kind := leAt b 32 1, rl := leAt b 33 1 % 2 == 1, declass := leAt b 33 1 / 2 % 2 == 1
    group := [leAt b 36 2, leAt b 38 2, leAt b 40 2] }

/-- Whether an OPEN's KIND, FLAGS and reserved fields are valid (R488). -/
def openValid (p : PlainFlit) : Bool :=
  let b := p.payload
  p.len == 3 && p.fidx == 0 && leAt b 32 1 < 5 && leAt b 33 1 < 4 && leAt b 34 2 == 0 && leAt b 42 6 == 0

/-- Whether the ticket of a collective's transfer needs an entry of a full duplicate filter (R387). -/
def State.filterBlocks (s : State) (slice : Nat) (i : Inbound) : Bool :=
  i.kind = 4 && (s.filterGet slice .coll i.key 0).isNone && s.filterFull slice .coll 1

/-- An invalid OPEN: nothing of its transfer is applied. The data of an FGET of this device end it under R288; the sender of any other transfer ends its command there (R488). -/
def State.openInvalid (s : State) (slice : Nat) (p : PlainFlit) : State :=
  match s.txnOwner slice p.txn with
  | some (core, slot, c) => if c.op == .fget && 3 ≤ leAt p.payload 32 1 then s.endCmd core slot (BitVec.ofNat 64 ((putDesc c.desc).remote + c.prog)) else s
  | none => s

/-- An OPEN flit: an invalid one, or one for no context here, opens a transfer of which nothing is applied; the sender's command then ends there (R302, R488). -/
def State.openFlit (s : State) (slice : Nat) (p : PlainFlit) : Option State :=
  let i := inboundOf p
  let add (s : State) (i : Inbound) : State := s.modLink slice fun l => { l with inbound := (l.inbound.filter fun j => j.txn != p.txn) ++ [i] }
  if !openValid p then some (add (s.openInvalid slice p) { i with skip := true })
  else if i.kind = 3 then some (add s { i with skip := (s.txnOwner slice p.txn).isNone })
  else match s.receiver slice i.ctx with
    | none => some (add s { i with skip := true })
    | some (x, e) =>
      let i : Inbound := { i with node := e.node }
      let s := if i.kind = 4 then s.filterRetire slice .coll i.key (leastHorizon i.key) else s
      if s.filterBlocks slice i then none
      else
        let s := add s i
        if i.kind = 4 then some (s.openColl slice i x e)
        else if i.kind = 2 then
          let at' := s.freeBytes 8
          let s := at'.2
          let head := openPayload x.ctx 0 (natOfBytes at'.1) i.bytes 0 3 false false [0, 0, 0]
          some ((s.queueFlits slice [({ ftype := 2, len := 3, dest := e.node, txn := p.txn, payload := head } : PlainFlit)]).runInbound slice p.txn)
        else
          some (if i.bytes = 0 then s.dropInbound slice p.txn else s)

/-- FGET data that have come go to LOCAL; what cannot be written yet is held (R288, R304). -/
def State.getData (s : State) (slice : Nat) (i : Inbound) (bs : List Byte) : State :=
  let s := s.modInbound slice i.txn fun i => { i with got := i.got + bs.length }
  match s.txnOwner slice i.txn with
  | none => s
  | some (core, slot, c) =>
    if c.done || c.ending.isSome then s
    else
      let s := s.modInbound slice i.txn fun i => { i with held := i.held ++ [(i.got - bs.length, bs)] }
      let n := (s.getReady c).length / 16
      let n := if s.partEnds c n then n else n - 1
      if c.paused.isSome || n = 0 then s else s.getPour core slot n c

/-- Data that come for a captured FGET: nothing of them is written, and with the last of them nothing more of the transfer is outstanding (R388, R389). -/
def State.strayData (s : State) (slice : Nat) (i : Inbound) (n : Nat) : State :=
  let i := { i with got := i.got + n }
  if i.got < i.bytes then s.modInbound slice i.txn fun _ => i
  else (s.dropInbound slice i.txn).strayDone (slice * 4096 + i.txn)

/-- A DATA flit: its bytes belong to the transfer that its tag names, at the place that its index tells (R446). -/
def State.dataFlit (s : State) (slice : Nat) (p : PlainFlit) : Option State :=
  match s.inbound? slice p.txn with
  | none => some s
  | some i =>
    let held := i.held.foldl (fun n h => n + h.2.length) 0
    let off := if i.kind = 3 then i.got else i.got + held
    let bs := p.payload.take (min (16 * p.len) (i.bytes - off))
    if i.skip && i.kind = 3 then some (s.strayData slice i bs.length)
    else if i.skip || p.fidx != i.nextFidx then some s
    else
      let s := s.modInbound slice p.txn fun i => { i with nextFidx := i.nextFidx + 1 }
      if i.kind = 3 then some (s.getData slice i bs)
      else match s.receiver slice i.ctx with
        | none => some s
        | some (x, e) =>
          if i.kind = 4 then some (s.collBytesIn slice i x e bs)
          else some ((s.modInbound slice p.txn fun i => { i with held := i.held ++ [(off, bs)] }).runInbound slice p.txn)

/-! ### ABORT and CUT (R443, R454) -/

/-- An ABORT flit: the killed rank is unusable in every roster, and the collectives of its group on this device are aborted, the group read in the roster of every context here
that names the killed one (R454). -/
def State.abortFlit (s : State) (slice : Nat) (p : PlainFlit) : Option State :=
  let ctx := leAt p.payload 0 4
  match s.receiver slice ctx with
  | none => some s
  | some (_, e) =>
    let dead := (e.node, e.ctx)
    let groups := ((s.named slice ctx).filter fun x => (x.2.node, x.2.ctx) == dead).map fun x => groupOf x.1 [leAt p.payload 4 2, leAt p.payload 6 2, leAt p.payload 8 2]
    some (((groups.eraseDups.filter fun g => g.contains dead).foldl (fun s g => (s.abortGroup g).abortSaved dead g) s).rankUnusable e.node e.ctx)

/-- The local context that a flit is for. -/
def State.flitContext (s : State) (slice : Nat) (p : PlainFlit) : Option Nat :=
  let opened := (s.portLink slice).cut.findSome? fun c => (c.2.2.find? fun q => q.ftype == 2 && q.txn == p.txn).map fun q => leAt q.payload 0 4
  let peer : Option Nat :=
    if p.ftype = 1 then opened.orElse fun _ => (s.inbound? slice p.txn).map fun i : Inbound => i.ctx
    else some (leAt p.payload 0 4)
  peer.bind fun c => (s.receiver slice c).map fun x : Context × RosterEntry => x.1.ctx

/-- Whether every unit of a context is captured: none of its blocks runs. -/
def State.contextCaptured (s : State) (ctx : Nat) : Bool :=
  (s.blocks.filter fun p => s.ctxOfLaunch p.2.launch == ctx && p.2.state != .assigned).all fun p =>
    s.freezing.any fun u => u.captured && u.blocks.contains p.1

/-- Whether a context has been captured to be moved and not restored since (R443). -/
def State.cut (s : State) (ctx : Nat) : Bool := ((tget s.contexts ctx).any fun x : Context => x.cutting.isSome) && s.contextCaptured ctx

/-- Whether a channel's marker has come for a context that is being moved (R443). -/
def Link.closed (l : Link) (ctx : Nat) : Bool := l.cut.any fun c => c.1 == ctx && c.2.1

/-- The flits that a port has recorded for a context (R443). -/
def Link.recorded (l : Link) (ctx : Nat) : List PlainFlit := (l.cut.filter fun c => c.1 == ctx).flatMap fun c => c.2.2

/-- A link that has recorded flits for a context, or its marker. -/
def Link.record (l : Link) (ctx : Nat) (done : Bool) (ps : List PlainFlit) : Link :=
  { l with cut := (l.cut.filter fun c => c.1 != ctx) ++ [(ctx, done || l.closed ctx, l.recorded ctx ++ ps)] }

/-- The bytes that the manifests of crews take in their section. -/
def manifestLength (cs : List Crew) : Nat := cs.foldl (fun n c => c.replay.foldl (fun n m => n + 32 + 16 * m.op.len) n) 0

/-- How many flits a manifest section can take behind the manifests of crews: an entry of one takes 272 bytes (R392, R399). -/
def flitRoom (cs : List Crew) : Nat := (manifestSection - manifestLength cs) / 272

/-- The captured crews on the core of a unit's first crew, whose section takes what is recorded for the unit. -/
def State.recordCrews (s : State) (u : FreezingUnit) : List Crew :=
  let cs := (s.crews.filter fun p => u.blocks.contains p.2.block).map fun p => p.2
  cs.filter fun w => some w.core == cs.head?.map fun c => c.core

/-- Whether the manifests of a captured context have room for one more flit (R399, R443). -/
def State.cutRoom (s : State) (ctx : Nat) : Bool :=
  let mine := s.freezing.filter fun u => u.captured && u.blocks.any fun b => ((tget s.blocks b).map fun x : Block => s.ctxOfLaunch x.launch) == some ctx
  (s.slices.foldl (fun n p => n + (p.2.link.recorded ctx).length) 0) < (mine.map fun u => flitRoom (s.recordCrews u)).foldl (· + ·) 0

/-- A flit of a transfer or an abort, performed. -/
def State.performFlit (s : State) (slice : Nat) (p : PlainFlit) : Option State :=
  if p.ftype = 1 then s.dataFlit slice p
  else if p.ftype = 2 then s.openFlit slice p
  else s.abortFlit slice p

/-- A flit of a transfer or an abort. For a context that is captured to be moved it is recorded until the channel's marker comes, while the manifests have room; a later one waits for
the restore (R443). Any other is performed. One for another device passes on (log 40). -/
def State.transferFlit (s : State) (slice : Nat) (p : PlainFlit) : Option State :=
  if p.dest != s.node then some s
  else match (s.flitContext slice p).filter s.cut with
    | none => s.performFlit slice p
    | some x => if (s.portLink slice).closed x || !s.cutRoom x then none else some (s.modLink slice fun l => l.record x false [p])

/-- A CUT marker closes the recordings on its channel: those of the contexts being moved that it names, or whose rosters name it (R443, log 41). -/
def State.cutFlit (s : State) (slice : Nat) (p : PlainFlit) : Option State :=
  let m := leAt p.payload 0 4
  let named (x : Context) : Bool := x.cutting.isSome && (x.ctx % 2 ^ 32 == m || x.roster.any fun e => e.ctx % 2 ^ 32 == m && e.node != s.node)
  some (((s.contexts.map fun c => c.2).filter named).foldl (fun s x => s.modLink slice fun l => l.record x.ctx true []) s)

/-- The fabric channels of a context: the ports of its partition that reach a peer of its roster, with the peer's node (R443). -/
def State.channels (s : State) (x : Context) : List (Nat × Nat) :=
  ((x.roster.filter fun e => e.node != s.node).flatMap fun e =>
    (e.ports.filter fun k => (s.slice k.1).fwPid == x.pid && s.portCarries k.1).map fun k => (k.1, e.node)).eraseDups

/-- Whether what comes for a context that is being moved has all been recorded: every channel's marker has come (R443). -/
def State.cutComplete (s : State) (ctx : Nat) : Bool :=
  match tget s.contexts ctx with
  | none => true
  | some x => x.cutting.isNone || (s.contextCaptured ctx && (s.channels x).all fun k => (s.portLink k.1).closed ctx)

/-- Recorded flits delivered at their ports, in order; none while one cannot be performed (R443). -/
def State.deliverFlits : List (Nat × PlainFlit) → State → Option State
  | [], s => some s
  | f :: fs, s => (s.performFlit f.1 f.2).bind (State.deliverFlits fs)

/-! ### Translation faults of peers' requests (R303, R408, R409) -/

/-- FAULT_QUEUE_RECORD_WRITE for an inbound transfer (R303, R408). -/
def State.inboundFault (s : State) (slice txn : Nat) : Option State :=
  match s.inbound? slice txn with
  | none => none
  | some i => match i.paused, i.ftag with
    | some (a, w), none =>
      let sl := s.slice slice
      if 2 ^ (sl.fqLog2n + 4) ≤ (sl.fqProd - sl.fqCons).toNat then none
      else
        let ctx := ((s.receiver slice i.ctx).map fun x : Context × RosterEntry => x.1.ctx).getD 0
        let ftag := sl.nextFtag % 65536
        let at' := sl.fqBase.toNat + 32 * (sl.fqProd.toNat % 2 ^ (sl.fqLog2n + 4))
        let s := s.writeGlobal sl.fwPid at' (faultRecord a ctx 0 ftag w true 0)
        let s := s.modSlice slice fun x => { x with
          fqProd := x.fqProd + 1, nextFtag := x.nextFtag + 1
          paused := x.paused ++ [({ ftag := ftag, core := portCore slice, slot := txn } : PausedRef)] }
        some ((s.modInbound slice txn fun i => { i with ftag := some ftag }).raiseSource sl.fwPid slice 0)
    | _, _ => none

/-- FAULT_QUEUE_RECORD_WRITE: a paused command, or an inbound transfer named by its port and tag (R408). -/
def State.faultWrite (s : State) (core slot : Nat) : Option State :=
  if core < 512 then s.faultRecordWrite core slot else s.inboundFault (core - 512) slot

/-- The port and tag of an inbound transfer that a fault tag names. -/
def State.pausedPort (s : State) (slice ftag : Nat) : Option (Nat × Nat) :=
  ((s.slice slice).paused.find? fun p => p.ftag == ftag && 512 ≤ p.core).map fun p => (p.core - 512, p.slot)

/-- A verdict on an inbound transfer: it tries again, or nothing more of it is applied (R303, R409). -/
def State.settleInbound (s : State) (slice ftag port txn : Nat) (dead : Bool) : State :=
  let s := s.modSlice slice fun x => { x with paused := x.paused.filter fun q => q.ftag != ftag }
  if dead then s.modInbound port txn fun i => { i with paused := none, ftag := none, skip := true, held := [] }
  else (s.modInbound port txn fun i => { i with paused := none, ftag := none }).runInbound port txn

/-- A resume verdict (R409). -/
def State.fqResume (s : State) (slice ftag : Nat) : State :=
  match s.pausedPort slice ftag with
  | some (port, txn) => s.settleInbound slice ftag port txn false
  | none => s.resolveResume slice ftag

/-- An unresolvable verdict (R288, R409); one on a collective ends it at every member (R308). -/
def State.fqDead (s : State) (slice ftag : Nat) : State :=
  match s.pausedPort slice ftag with
  | some (port, txn) => s.settleInbound slice ftag port txn true
  | none => match s.takePaused slice ftag with
    | none => s
    | some (core, slot, s') => match s'.cmd? core slot with
      | none => s'
      | some c => if c.op.isColl && c.ftag = some ftag then s'.failColl (s'.collGroup c) c.recordOff ((c.paused.map fun p : DWord × Bool × Bool => p.1).getD 0) else s.resolveDead slice ftag

/-! ### Ticketed requests that arrive late (R387, R396) -/

/-- Whether a request's ticket is acknowledged: its crew has gone, or its horizon has passed it (R386). -/
def State.spentTicket (s : State) (r : TicketedReq) : Bool :=
  match s.anyCrew r.crew with
  | none => true
  | some c => acknowledged c.horizon (BitVec.ofNat 16 (r.ticket.toNat / 2 ^ 48))

/-- TICKETED_REQUEST_ARRIVAL: a request of a crew that has been captured reaches its vault home; each lane is applied once for its ticket, an acknowledged ticket is not applied, and the reply is dropped (R386-R388). -/
def State.requestArrival (s : State) (n : Nat) : Option State :=
  match s.requests[n]? with
  | none => none
  | some r =>
    let e := r.reply.ent
    if s.spentTicket r then some { s with requests := s.requests.eraseIdx n } else
    let c : Crew := { id := r.crew, block := 0, launch := ((s.anyCrew r.crew).map fun w : Crew => w.launch).getD 0, idx := 0, width := 64, core := r.core }
    let vs := s.openVaults c e
    let s := ((vs.map fun v => vaultHome v.2 / 32).eraseDups).foldl (fun s k => s.filterRetire k .vault (s.ticketKey c.launch (some r.ticket)) r.horizon) s
    if !s.filtersHaveRoom c e vs then none
    else some { (s.applyEnt c e).2 with requests := s.requests.eraseIdx n }

end Sys2Proof.Machine
end

