-- ==== Sys2Proof/Machine/FabricEvents.lean ====
section
/-! DEFINITION. The meanings of the events of engine transfers, the fabric and its links (R295, R304, R308, R387, R445-R454, R488). -/

namespace Sys2Proof.Machine

/-- ENGINE_TRANSFER_PART (R295, R304, R308). -/
def execEngineTransferPart (core slot n : Nat) (s : State) : Host.Outcome State Fault Refusal := enabledEvent (s.enginePart core slot n)

/-- CBAR_ARRIVAL (R308). -/
def execCbarArrival (core slot : Nat) (s : State) : Host.Outcome State Fault Refusal := enabledEvent (s.cbarArrival core slot)

/-- TICKETED_REQUEST_ARRIVAL (R387). -/
def execTicketedRequestArrival (n : Nat) (s : State) : Host.Outcome State Fault Refusal := enabledEvent (s.requestArrival n)

/-- FABRIC_ACK_RECEIVE (R304). -/
def execFabricAckReceive (slice txn n : Nat) (s : State) : Host.Outcome State Fault Refusal := enabledEvent (s.fabricAck slice txn n)

/-- FLIT_SEND (R446-R449). -/
def execFlitSend (slice : Nat) (s : State) : Host.Outcome State Fault Refusal := enabledEvent (s.flitSend slice)

/-- KEY_INSTALL (R448). -/
def execKeyInstall (slice : Nat) (tx slot : Bool) (key : BitVec 256) (salt : BitVec 64) (s : State) : Host.Outcome State Fault Refusal :=
  enabledEvent (s.keyInstall slice tx slot key salt)

/-- FLIT_IDLE_RECEIVE (R447): an accepted one carries its acknowledgement only. -/
def execFlitIdleReceive (slice : Nat) (f : Flit) (s : State) : Host.Outcome State Fault Refusal :=
  enabledEvent (s.flitReceive slice f (f.ftype == 0) fun _ s => some s)

/-- FLIT_DATA_RECEIVE (R446). -/
def execFlitDataReceive (slice : Nat) (f : Flit) (s : State) : Host.Outcome State Fault Refusal :=
  enabledEvent (s.flitReceive slice f (f.ftype == 1) fun p s => s.transferFlit slice p)

/-- FLIT_OPEN_RECEIVE (R488). -/
def execFlitOpenReceive (slice : Nat) (f : Flit) (s : State) : Host.Outcome State Fault Refusal :=
  enabledEvent (s.flitReceive slice f (f.ftype == 2) fun p s => s.transferFlit slice p)

/-- FLIT_MARKER_RECEIVE (R450): an accepted one retires the old slot. -/
def execFlitMarkerReceive (slice : Nat) (f : Flit) (s : State) : Host.Outcome State Fault Refusal :=
  enabledEvent (s.flitReceive slice f (f.ftype == 3) fun _ s => some s)

/-- FLIT_CUT_RECEIVE (R443). -/
def execFlitCutReceive (slice : Nat) (f : Flit) (s : State) : Host.Outcome State Fault Refusal :=
  enabledEvent (s.flitReceive slice f (f.ftype == 4) fun p s => s.cutFlit slice p)

/-- FLIT_ABORT_RECEIVE (R454). -/
def execFlitAbortReceive (slice : Nat) (f : Flit) (s : State) : Host.Outcome State Fault Refusal :=
  enabledEvent (s.flitReceive slice f (f.ftype == 5) fun p s => s.transferFlit slice p)

/-- FLIT_INVALID_TYPE_RECEIVE (R446, R447): the flit fails as one whose tag does not verify. -/
def execFlitInvalidTypeReceive (slice : Nat) (f : Flit) (s : State) : Host.Outcome State Fault Refusal :=
  enabledEvent (s.flitReceive slice f (6 ≤ f.ftype.toNat) fun _ s => some s)

/-- LINK_RETRAIN (R451). -/
def execLinkRetrain (slice : Nat) (s : State) : Host.Outcome State Fault Refusal := enabledEvent (s.linkRetrain slice)

/-- LINK_LANE_LOSS (R452). -/
def execLinkLaneLoss (slice : Nat) (trains : Bool) (s : State) : Host.Outcome State Fault Refusal := enabledEvent (s.laneLoss slice trains)

/-- LINK_TRAINED (R451). -/
def execLinkTrained (slice lanes : Nat) (keys : LinkKeys) (s : State) : Host.Outcome State Fault Refusal := enabledEvent (s.linkTrained slice lanes keys)

/-- ETHERNET_FRAME_RECEIVE (R445). -/
def execEthernetFrameReceive (slice : Nat) (frame : List Byte) (s : State) : Host.Outcome State Fault Refusal := enabledEvent (s.ethernetFrame slice frame)

end Sys2Proof.Machine
end

