-- ==== Sys2Proof/Machine/Resources.lean ====
section
/-! DEFINITION. What blocks need of a core and what a core has free (R205, R211, R212, R237, R238). -/

namespace Sys2Proof.Machine

/-! ### What a record declares -/

/-- The crews of a block on one of its cores (R205, R233). -/
def Record.sideCrews (r : Record) : Nat := if r.twin then r.crews / 2 else r.crews

/-- The crews that one issue slot holds (R211). -/
def Record.perSlot (r : Record) : Nat := 64 / r.width

/-- The issue slots of a block on one of its cores (R211). -/
def Record.slots (r : Record) : Nat := (r.sideCrews + r.perSlot - 1) / r.perSlot

/-- The crews in slot j (R211). -/
def Record.slotCrews (r : Record) (j : Nat) : Nat := min r.perSlot (r.sideCrews - j * r.perSlot)

/-- How often a crew of the block counts: a shadow takes a place too (R463). -/
def Record.copies (r : Record) : Nat := if r.shadow then 2 else 1

/-- The crews and slots of a block in half h, when its slot 0 lies in half0 and the later ones alternate (R212). -/
def Record.halfUse (r : Record) (half0 h : Nat) : Nat × Nat :=
  let js := (List.range r.slots).filter fun j => (half0 + j) % 2 == h
  (r.copies * js.foldl (fun n j => n + r.slotCrews j) 0, r.copies * js.length)

/-- TS in bytes. -/
def Record.ts (r : Record) : Nat := 1024 * r.tsKb

/-- P in bytes. -/
def Record.p (r : Record) : Nat := 1024 * r.pKb

/-- CH in bytes. -/
def Record.ch (r : Record) : Nat := 1024 * r.chKb

/-- The number of block indices of the grid (R204). -/
def Record.grid (r : Record) : Nat := r.nbx * r.nby * r.nbz

/-! ### What is in use (R237) -/

/-- What the blocks of a core hold: crews and issue slots of each half, scratchpad and tile bytes, accumulator units. -/
structure CoreUse where
  crews0 : Nat := 0
  crews1 : Nat := 0
  slots0 : Nat := 0
  slots1 : Nat := 0
  spad : Nat := 0
  tiles : Nat := 0
  accu : Nat := 0
  deriving DecidableEq, Repr

/-- Whether the use is within a core's capacities (R237). -/
def CoreUse.ok (u : CoreUse) : Bool :=
  u.crews0 ≤ 16 && u.crews1 ≤ 16 && u.slots0 ≤ 16 && u.slots1 ≤ 16 && u.spad ≤ 524288 && u.tiles ≤ 2097152 && u.accu ≤ 64

/-- The half that holds fewer crews, half 0 when both hold the same number (R212). -/
def CoreUse.half (u : CoreUse) : Nat := if u.crews1 < u.crews0 then 1 else 0

/-- A block of a record added, with its slot 0 in a half; its channel and the launch's segment count apart. -/
def CoreUse.block (u : CoreUse) (r : Record) (half0 : Nat) : CoreUse :=
  let a := r.halfUse half0 0
  let b := r.halfUse half0 1
  { crews0 := u.crews0 + a.1, crews1 := u.crews1 + b.1, slots0 := u.slots0 + a.2, slots1 := u.slots1 + b.2
    spad := u.spad + r.p + 64 * r.budget, tiles := u.tiles + r.tiles * r.tsize * 4096, accu := u.accu + r.accu }

/-- Scratchpad bytes added. -/
def CoreUse.bytes (u : CoreUse) (n : Nat) : CoreUse := { u with spad := u.spad + n }

/-- A template crew added: one crew in one slot, with its shadow two, and its segment (R220, R463). -/
def CoreUse.template (u : CoreUse) (r : Record) (half : Nat) : CoreUse :=
  let u := u.bytes r.ts
  if half = 0 then { u with crews0 := u.crews0 + r.copies, slots0 := u.slots0 + r.copies } else { u with crews1 := u.crews1 + r.copies, slots1 := u.slots1 + r.copies }

/-- Whether a block holds resources of its cores (R207, R238). -/
def Block.resident (b : Block) : Bool := b.state != .assigned

/-- The sides of the resident blocks on a core. -/
def State.residents (s : State) (core : Nat) : List (Block × Side) :=
  (s.blocks.filter fun p => p.2.resident).flatMap fun p => (p.2.sides.filter fun sd => sd.core == core).map fun sd => (p.2, sd)

/-- What is in use on a core (R237). -/
def State.coreUse (s : State) (core : Nat) : CoreUse :=
  let bs := s.residents core
  let u := bs.foldl (fun (u : CoreUse) x =>
    let r := s.recordOf x.1.launch
    if x.1.template then u.template r x.2.half0 else u.block r x.2.half0) {}
  let work := bs.filter fun x => !x.1.template
  let u := ((work.map fun x => x.1.group).eraseDups).foldl (fun (u : CoreUse) g =>
    u.bytes (((tget s.stageGroups g).map fun g : StageGroup => (s.recordOf g.launch).ch).getD 0)) u
  (((work.map fun x => x.1.launch) ++ (s.core core).copies).eraseDups).foldl (fun (u : CoreUse) l => u.bytes (s.recordOf l).ts) u

/-- The crews on a core (R356). -/
def State.crewCount (s : State) (core : Nat) : Nat := (s.crews.filter fun p => p.2.core == core).length

/-- The S blocks of a stage group placed one after another on a core in use: the half of slot 0 of each, and the use after (R208, R212). -/
def placeGroup (r : Record) : Nat → CoreUse → List Nat × CoreUse
  | 0, u => ([], u)
  | n + 1, u =>
    let h := u.half
    let t := placeGroup r n (u.block r h)
    (h :: t.1, t.2)

/-- The use after a whole stage group is placed, its channel and, unless the core holds it, the segment included. -/
def groupUse (r : Record) (u : CoreUse) (newLaunch : Bool) : List Nat × CoreUse :=
  let t := placeGroup r r.stages u
  (t.1, (t.2.bytes r.ch).bytes (if newLaunch then r.ts else 0))

/-- The cores of a stage group whose leader or only core is given (R208, R233). -/
def Record.cores (r : Record) (core : Nat) : List Nat := if r.twin then [core, core + 1] else [core]

/-- Whether a core already holds blocks of a launch or a copy of its segment (R228, R232). -/
def State.holdsLaunch (s : State) (core lid : Nat) : Bool :=
  (s.core core).copies.contains lid || (s.residents core).any fun x => !x.1.template && x.1.launch == lid

/-- The halves of slot 0 of a stage group's blocks on each of its cores, when every resource is free there (R238). -/
def State.groupPlace (s : State) (r : Record) (lid core : Nat) : Option (List (List Nat)) :=
  let us := (r.cores core).map fun k => groupUse r (s.coreUse k) (!s.holdsLaunch k lid)
  if us.all fun u => u.2.ok then some (us.map fun u => u.1) else none

/-- Whether an empty core can hold a stage group of a record (R238). -/
def Record.fitsCore (r : Record) : Bool := (groupUse r {} true).2.ok

/-- How many stage groups of a record an empty core holds at once: at most 32. -/
def Record.groupsPerCore (r : Record) : Nat :=
  ((List.range 32).foldl (fun (x : Nat × CoreUse × Bool) _ =>
    let t := groupUse r x.2.1 (x.1 == 0)
    if x.2.2 && t.2.ok then (x.1 + 1, t.2, true) else (x.1, x.2.1, false)) (0, {}, true)).1

/-! ### The cores of a partition -/

/-- Whether a slice is in service and powered (R484, R485). -/
def State.sliceRuns (s : State) (slice : Nat) : Bool := !(s.slice slice).tripped && (s.slice slice).pstate < 3

/-- Whether a MOVE has begun to vacate a slice: byte 1 of the command names it (R437, R440). -/
def State.vacating (s : State) (slice : Nat) : Bool :=
  (s.harbour.moving.map fun v => bitsAt v.toNat 8 8) == some slice || s.harbour.emptying.any fun e => e.2.contains slice

/-- Whether a core takes blocks: it has not failed (R407), its slice runs (R484, R485) and is not being vacated (R440). -/
def State.coreTakes (s : State) (core : Nat) : Bool := !(s.core core).failed && s.sliceRuns (core / 32) && !s.vacating (core / 32)

/-- The cores, for twin blocks the leaders, of a slice that take blocks of a record. -/
def State.coresFor (s : State) (r : Record) (slice : Nat) : List Nat :=
  ((List.range 32).map fun k => slice * 32 + k).filter fun k => (!r.twin || k % 2 = 0) && (r.cores k).all s.coreTakes

/-- Whether a cooperative launch can be resident in a partition as it is (R235). -/
def State.coopFits (s : State) (pid : Nat) (r : Record) : Bool :=
  r.grid ≤ r.groupsPerCore * ((s.slicesOf pid).flatMap (s.coresFor r)).length

end Sys2Proof.Machine
end

