-- ==== Sys2Proof/Machine/Admit.lean ====
section
/-! DEFINITION. Queues, launch records and admission: registration, doorbells, the checks of a record, dependences, stopping (R340-R350). -/

namespace Sys2Proof.Machine

/-! ### The record and the cargo list (R276, R344) -/

/-- The fields of a launch record (R344). -/
def parseRecord (b : List Byte) : Record :=
  let shape := leAt b 23 1
  let modes := leAt b 78 1
  { entry := BitVec.ofNat 64 (leAt b 0 8), nbx := leAt b 8 4, nby := leAt b 12 2, nbz := leAt b 14 2
    nix := leAt b 16 2, niy := leAt b 18 2, niz := leAt b 20 2, crews := leAt b 22 1, width := 8 * 2 ^ (shape % 4)
    stages := shape / 4 % 4 + 1, level := shape / 16 % 4, chKb := leAt b 24 2, tiles := leAt b 26 1 % 32, tsize := leAt b 27 1
    accu := leAt b 28 1, tsKb := leAt b 29 1, pKb := leAt b 30 2, budget := leAt b 32 2, prio := leAt b 34 1 % 32, cargoN := leAt b 35 1
    key := BitVec.ofNat 32 (leAt b 36 4), cargo := BitVec.ofNat 64 (leAt b 40 8)
    deps := ((List.range 4).map fun i => (BitVec.ofNat 32 (leAt b (48 + 4 * i) 4) : Word)).filter fun d => d != 0
    handler := BitVec.ofNat 64 (leAt b 64 8), hcause := BitVec.ofNat 5 (leAt b 72 2), trapa := leAt b 74 4
    recompute := modes % 2 == 1, shadow := modes / 2 % 2 == 1, strict := modes / 4 % 2 == 1, twin := modes / 8 % 2 == 1
    coop := modes / 16 % 2 == 1, retry := modes / 32 % 2 == 1, mcheck := modes / 64 % 2 == 1
    cland := BitVec.ofNat 64 (leAt b 80 8), staddr := BitVec.ofNat 64 (leAt b 88 8) }

/-- Whether an address is a packet address that is valid under R9. -/
def packetOk (p : DWord) : Bool := 12 * p.toNat + 11 < 2 ^ 56

/-- Whether the trap area of a launch with a user handler lies within private scratchpad (R344, R370). -/
def trapAreaOk (r : Record) : Bool :=
  r.handler == 0 || (r.trapa % 16 == 0 && r.ts ≤ r.trapa && r.trapa + r.sideCrews * frameSize r.width ≤ r.ts + r.p)

/-- Whether the sizes of a record are within their limits (R205, R208, R209, R228, R344). R344 names R237 as the limit of PKB, which gives the core's 512 KB: a PKB above it is refused with detail 3
like any sum that the core does not hold, and not with detail 1 here, a DESIGN CHOICE (log 42). -/
def sizesOk (r : Record) : Bool :=
  1 ≤ r.nbx && r.nbx ≤ 2 ^ 31 && 1 ≤ r.nby && 1 ≤ r.nbz && r.nix * r.niy * r.niz == r.crews * r.width
    && (if r.twin then r.crews % 2 == 0 && 2 ≤ r.crews && r.crews ≤ 64 else 1 ≤ r.crews && r.crews ≤ 32)
    && r.level < 3 && r.chKb ≤ 256 && (r.stages != 1 || r.chKb == 0)
    && r.tiles ≤ 16 && (if r.tiles = 0 then r.tsize == 0 else 1 ≤ r.tsize && r.tsize ≤ 32) && r.accu ≤ 64
    && r.tsKb ≤ 64 && (r.level != 0 || r.tsKb == 0) && r.budget ≤ 16 * r.tsKb && r.prio ≤ 23 && r.cargoN ≤ 16

/-- Whether every field of a record is within its limits and every reserved bit is zero: reason 1 of R348. -/
def recordOk (b : List Byte) : Bool :=
  let r := parseRecord b
  packetOk r.entry && sizesOk r && leAt b 23 1 < 64 && leAt b 26 1 < 32 && leAt b 34 1 < 32 && leAt b 78 1 < 128 && leAt b 79 1 == 0
    && (b.drop 96).all (· == 0) && r.cargo.toNat % 32 == 0 && packetOk r.handler && leAt b 72 2 < 32 && (r.handler != 0 || leAt b 72 2 == 0)
    && trapAreaOk r && (r.cland == 0 || (r.cland.toNat % 2 == 1 && r.cland.toNat / 2 % 8 == 0)) && r.staddr.toNat % 8 == 0

/-- The fields of a cargo entry (R276). -/
def parseCargo (b : List Byte) : CargoEnt :=
  let dir := leAt b 28 1
  { gaddr := BitVec.ofNat 64 (leAt b 0 8), laddr := BitVec.ofNat 64 (leAt b 8 8), bytes := leAt b 16 4
    gstr := signedOf 32 (leAt b 20 4), lstr := signedOf 32 (leAt b 24 4)
    dirIn := dir % 4 != 1, dirOut := dir % 4 != 0, vault := dir / 4 % 2 == 1, declass := dir / 8 % 2 == 1, hint := dir / 16 % 4 }

/-- Whether a scratchpad range lies wholly in one region of R210, and an out entry not in the segment (R277). -/
def cargoRegionOk (r : Record) (e : CargoEnt) : Bool :=
  let a := e.laddr.toNat
  let z := a + e.bytes
  if z ≤ r.ts then !e.dirOut else (r.ts ≤ a && z ≤ r.ts + r.p) || (r.ts + r.p ≤ a && z ≤ r.ts + r.p + r.ch)

/-- Whether a cargo entry is valid (R276, R277). -/
def cargoOk (r : Record) (b : List Byte) : Bool :=
  let e := parseCargo b
  leAt b 28 1 % 4 != 3 && leAt b 28 1 < 64 && leAt b 29 3 == 0 && e.gaddr.toNat % 16 == 0 && e.laddr.toNat % 16 == 0
    && leAt b 20 4 % 16 == 0 && leAt b 24 4 % 16 == 0 && e.bytes % 16 == 0 && 16 ≤ e.bytes && e.bytes ≤ 2 ^ 31
    && (e.vault || (e.lstr == 0 && cargoRegionOk r e))

/-! ### Queues (R340, R342) -/

/-- A queue error reported to the partition (R340, R342, R456). -/
def State.queueRecord (s : State) (slice pid : Nat) (desc : DWord) (qnum : Nat) : State :=
  s.report [pid] { type := 0x0C, aval := true, slice := slice, addr := desc, info := BitVec.ofNat 64 (qnum % 4096) } .global

/-- Whether a descriptor may be registered in a partition (R340). One that is not 64-byte aligned, does not lie in the partition's global space, or has a QNUM above 4094 is refused like
those that the rule lists (log 42). -/
def State.descOk (s : State) (pid : Nat) (addr : DWord) (b : List Byte) : Bool :=
  let n := leAt b 8 1
  let ring := leAt b 0 8
  let owner := (tget s.contexts (ctxKey pid (leAt b 16 4))).map fun x : Context => x.pid
  addr.toNat % 64 == 0 && s.inGlobal pid addr.toNat 64 && leAt b 9 1 < 32 && leAt b 10 1 < 2 && leAt b 11 1 == 0 && leAt b 14 2 == 0 && leAt b 20 4 == 0 && (b.drop 40).all (· == 0)
    && 4 ≤ n && n ≤ 16 && leAt b 9 1 ≤ 23 && leAt b 12 2 ≤ 4094 && (s.queue? pid (leAt b 12 2)).isNone
    && ring % 128 == 0 && canonicalVa ring && canonicalVa (ring + 128 * 2 ^ n - 1) && ring + 128 * 2 ^ n ≤ 2 ^ 64 && owner == some pid

/-- SCHED_QDESC: a queue descriptor is registered with the slice's scheduler, HEAD and TAIL 0 and DBELL written (R340); a bad one is reported. -/
def State.schedQdesc (s : State) (slice : Nat) (addr : DWord) : Option State :=
  let pid := (s.slice slice).fwPid
  if pid = 0 then none
  else
    let s := s.detectGlobal pid addr.toNat 64
    let b := s.readGlobal pid addr.toNat 64
    if !s.descOk pid addr b then some (s.queueRecord slice pid addr (leAt b 12 2))
    else
      let bell := Config.doorbell slice pid (leAt b 12 2)
      let q : Queue := {
        pid := pid, qnum := leAt b 12 2, desc := addr, ring := BitVec.ofNat 64 (leAt b 0 8), log2n := leAt b 8 1, ceil := leAt b 9 1
        launchMode := leAt b 10 1 == 1, ctx := ctxKey pid (leAt b 16 4), dbell := bell, home := slice, uid := s.nextId }
      let s := s.writeGlobal pid (addr.toNat + 24) (bytesOfNat 8 bell.toNat ++ bytesOfNat 8 0)
      some { s with nextId := s.nextId + 1, queues := s.queues ++ [q] }

/-- A launch from a record of a queue, before its checks (R341, R344, R352). -/
def State.newLaunch (s : State) (q : Queue) (k : Nat) (r : Record) : Launch :=
  { id := s.nextId, lid := launchIdOf q.qnum k, pid := q.pid, qnum := q.qnum, home := q.home, ctx := q.ctx, record := r
    prio := min r.prio q.ceil, ceil := q.ceil, quid := q.uid, num := k }

/-- A launch entered. -/
def State.addLaunch (s : State) (l : Launch) : State := { s with nextId := l.id + 1, launches := tput s.launches l.id l }

/-- A record that a stopped queue had accepted and not admitted is admitted solely to complete with ABORTED (R350). The spec does not say what becomes of one whose slot does not
translate: it completes with an empty record, so without status word and landing, a DESIGN CHOICE (log 42). -/
def State.abortRecord (s : State) (q : Queue) (k : Nat) : State :=
  let s := s.detectVirtual q.pid (q.slotAddr k) 128
  let r := ((s.readVirtual q.pid (q.slotAddr k) 128).map parseRecord).getD {}
  s.addLaunch { (s.newLaunch q k { r with key := 0 }) with phase := .completing, status := .aborted }

/-- A queue stops: its launches complete ABORTED, its accepted records too, and it exists no longer (R340, R342, R350). -/
def State.stopQueue (s : State) (uid : Nat) : State :=
  match s.queues.find? fun q => q.uid == uid && !q.stopped with
  | none => s
  | some q =>
    let s := ((s.launches.filter fun p => p.2.quid == uid).map fun p => p.1).foldl (fun s l => s.endLaunch l .aborted) s
    let s := (List.range (q.tail - q.head).toNat).foldl (fun s i => s.abortRecord q ((q.head.toNat + 1 + i) % 2 ^ 32)) s
    s.modQueue uid fun q => { q with stopped := true, head := q.tail, pause := none }

/-- SCHED_QSTOP (R350, R358): the queue of the partition with that number whose home the slice is; none is no effect. -/
def State.schedQstop (s : State) (slice : Nat) (v : DWord) : Option State :=
  let pid := (s.slice slice).fwPid
  if pid = 0 then none
  else match s.queue? pid (v.toNat % 4096) with
    | none => some s
    | some q => some (if q.home = slice then s.stopQueue q.uid else s)

/-- Whether a submission count is accepted (R342). -/
def Queue.accepts (q : Queue) (v : Word) : Bool := 0 < (v - q.tail).toNat && (v - q.head).toNat ≤ 2 ^ q.log2n

/-- DOORBELL_WRITE: a host of a partition writes a submission count (R342); the address of a doorbell that has moved away is refused (R430, R486). -/
def State.doorbell (s : State) (src pid : Nat) (addr v : DWord) : Option State :=
  let refused (s : State) (target : Nat) : State := { (s.firewallRecord src target pid addr .plain) with hostAnswer := none }
  let here := s.queues.filter fun q => q.dbell == addr
  match (here.find? fun q => !q.stopped).orElse fun _ => here.head? with
  | some q =>
    if !s.firewallOk src q.home pid then some (refused s q.home)
    else
      let s := { s with hostAnswer := some [] }
      let w : Word := v.truncate 32
      if q.stopped || q.launchMode then some s
      else if q.accepts w then some (s.modQueue q.uid fun q => { q with tail := w })
      else some ((s.queueRecord q.home pid q.desc q.qnum).stopQueue q.uid)
  | none => match s.queues.findSome? fun q => q.oldBells.find? fun b => b.2 == addr with
    | some b => some (refused s b.1)
    | none => none

/-! ### Dependences (R349) -/

/-- What a dependence comes to at admission. -/
inductive DepFate where
  | bad
  | met
  | failed
  | pending (launch : Nat)
  deriving DecidableEq, Repr

/-- A dependence id resolved against the statuses that its queue holds (R349). -/
def State.depFate (s : State) (pid : Nat) (id : Word) : DepFate :=
  if id.toNat < 2 ^ 20 then .bad
  else match s.queue? pid (id.toNat / 2 ^ 20 - 1) with
    | none => .bad
    | some q =>
      let h := q.head.toNat
      let d := (h + 2 ^ 20 - id.toNat % 2 ^ 20) % 2 ^ 20
      if 2 ^ 19 ≤ d || h ≤ d then .bad
      else if 4096 ≤ d then .met
      else match q.held.find? fun x => x.1 == h - d with
        | none => .met
        | some (_, 0) => match s.launches.find? fun p => p.2.quid == q.uid && p.2.num == h - d with
          | none => .met
          | some p => .pending p.1
        | some (_, 1) => .met
        | some _ => .failed

/-! ### Admission (R348, R350) -/

/-- The cargo list of a record, none where it cannot be read or an entry is invalid: reason 2 (R277, R348). -/
def State.readCargo (s : State) (pid : Nat) (r : Record) : Option (List CargoEnt) :=
  match s.readVirtual pid r.cargo.toNat (32 * r.cargoN) with
  | none => none
  | some b =>
    let es := (List.range r.cargoN).map fun i => (b.drop (32 * i)).take 32
    if es.all (cargoOk r) then some (es.map parseCargo) else none

/-- Whether the key handle of a record is refused: reason 6 (R348, R413, R415, R418). -/
def State.keyRefused (s : State) (q : Queue) (r : Record) (cargo : List CargoEnt) : Bool :=
  r.key != 0 && match s.handle? r.key with
    | none => true
    | some k => (s.slice q.home).pwTarget = 0 || k.releaseWanted || k.ctx != q.ctx % 2 ^ 32 || k.pid != q.pid ||
        (cargo.filter fun e => e.dirOut && !e.declass).any fun e =>
          (List.range r.grid).any fun b => !inWindows k.gwin (e.gaddr + BitVec.ofInt 64 ((b : Int) * e.gstr)).toNat e.bytes

/-- The lowest reason for which a record is refused, 0 for none (R348). -/
def State.refusal (s : State) (q : Queue) (b : List Byte) (cargo : Option (List CargoEnt)) (deps : List DepFate) : Nat :=
  let r := parseRecord b
  if !recordOk b then 1
  else if cargo.isNone then 2
  else if !r.fitsCore then 3
  else if r.coop && !s.coopFits q.pid r then 4
  else if deps.contains .bad then 5
  else if s.keyRefused q r (cargo.getD []) then 6
  else 0

/-- An admitted record's status held, 0 while it has none; of a queue those of the latest 4096 admitted are (R349). -/
def Queue.hold (q : Queue) (k : Nat) : Queue :=
  let h := q.held ++ [(k, 0)]
  { q with held := h.drop (h.length - 4096) }

/-- The status of a record that has completed, where it is among those held (R349). -/
def Queue.settleStatus (q : Queue) (k code : Nat) : Queue :=
  { q with held := q.held.map fun x => if x.1 = k then (k, code) else x }

/-- The codes of R351; 0 for a launch without status. -/
def Status.code : Status → Nat
  | .pending => 0 | .ok => 1 | .fault => 2 | .refused => 3 | .depfail => 4 | .contextLost => 5 | .aborted => 6

/-- The launch ids that a record still waits for. -/
def pendingDeps (ds : List DepFate) : List Nat :=
  ds.filterMap fun d => match d with
    | .pending l => some l
    | _ => none

/-- What becomes of a record of a context that was killed or lost (R350, R404, log 58), none for a context that goes on. -/
def State.contextEnd (s : State) (ctx : Nat) : Option Status :=
  (tget s.contexts ctx).bind fun x : Context => if x.killed then some .aborted else if x.lost then some .contextLost else none

/-- The state of a launch as it is admitted (R348-R350). -/
def Launch.admitted (l : Launch) (ended : Option Status) (detail clk : Nat) (ds : List DepFate) : Launch :=
  if ended.isSome then { l with phase := .completing, status := ended.getD .aborted }
  else if detail ≠ 0 then { l with phase := .completing, status := .refused, detail := detail }
  else if ds.contains .failed then { l with phase := .completing, status := .depfail }
  else if pendingDeps ds = [] then { l with phase := .ready, readyAt := clk }
  else { l with phase := .waiting, deps := pendingDeps ds }

/-- RECORD_ADMISSION: the home scheduler reads the queue's next record, raises HEAD and admits or refuses it (R343, R348); a slot that does not
translate makes it wait for the fault's resolution (R340). -/
def State.recordAdmission (s : State) (pid qnum : Nat) : Option State :=
  match s.queue? pid qnum with
  | none => none
  | some q =>
    if q.pause.isSome || q.tail == q.head || !s.sliceRuns q.home then none
    else
      let k := (q.head + 1).toNat
      match s.readVirtual pid (q.slotAddr k) 128 with
      | none => some (s.modQueue q.uid fun q => { q with pause := some { addr := BitVec.ofNat 64 (q.slotAddr k), write := false } })
      | some b =>
        let r := parseRecord b
        let s := s.detectVirtual pid (q.slotAddr k) 128
        let s := if recordOk b then s.detectVirtual pid r.cargo.toNat (32 * r.cargoN) else s
        let cargo := if recordOk b then s.readCargo pid r else none
        let ds := r.deps.map (s.depFate pid)
        let l := (s.newLaunch q k r).admitted (s.contextEnd q.ctx) (s.refusal q b cargo ds) (s.slice q.home).clk ds
        let s := s.addLaunch { l with cargo := cargo.getD [] }
        some (s.modQueue q.uid fun q => { q with head := q.head + 1 }.hold k)

end Sys2Proof.Machine
end

