-- ==== Sys2Proof/Machine/Cargo.lean ====
section
/-! DEFINITION. Cargo: what is staged before crews are created and written back after they have ended (R221, R276-R280, R288). -/

namespace Sys2Proof.Machine

/-- One move of a cargo entry: source, destination, the sides whose scratchpad it names, which all receive the same bytes (R278), and its 16-byte chunks. -/
structure CargoMove where
  src : EngAddr
  dst : EngAddr
  sides : List Nat
  chunks : Nat
  deriving DecidableEq, Repr

/-- The command in whose name the scheduler moves a block's cargo. -/
def cargoCmd (bid side : Nat) : FerryCmd := { op := .fcopy, crew := 0, block := bid, side := side, handle := 0, desc := [] }

/-- The homes of one destination chunk on several sides. -/
def State.placeSides (s : State) (lid bid : Nat) (dst : EngAddr) : List Nat → Except EngStop (List EngPlace)
  | [] => .ok []
  | k :: ks => match s.engPlace (cargoCmd bid k) lid dst 16 true with
    | .error e => .error e
    | .ok p => match s.placeSides lid bid dst ks with
      | .error e => .error e
      | .ok ps => .ok (p :: ps)

/-- One chunk of a move: read once, written on every side. -/
def EngAcc.cargoChunk (a : EngAcc) (core lid pid bid : Nat) (m : CargoMove) (u : Nat) : EngAcc :=
  let src := m.src.plus (16 * u)
  match a.st.engPlace (cargoCmd bid (m.sides.headD 0)) lid src 16 false with
  | .error e => { a with stop := some e }
  | .ok ps => match a.st.placeSides lid bid (m.dst.plus (16 * u)) m.sides with
    | .error e => { a with stop := some e }
    | .ok pds =>
      let r := a.read core lid pid src ps 16
      { r.2 with
        st := pds.foldl (fun s pd => s.engWrite core pd r.1.bytes r.1.poison) r.2.st, moved := r.2.moved + 1
        clean := pds.foldl (fun k pd => addRange k pd 16 r.1.poison) r.2.clean }

/-- Whether a move may stop before chunk u: the chunks on both sides do not write one 32-byte granule of global memory, which is seen whole (R280, R324). -/
def State.cargoCut (s : State) (m : CargoMove) (u : Nat) : Bool :=
  u = 0 || (s.farGranule (m.dst.plus (16 * u))).isNone || s.farGranule (m.dst.plus (16 * (u - 1))) != s.farGranule (m.dst.plus (16 * u))

/-- The chunks of a move from chunk u on, until one stops; a move that stops leaves no granule of global memory written in part, and ends where it could last end (R280, R324). -/
def EngAcc.cargoChunks (core lid pid bid : Nat) (m : CargoMove) : Nat → Nat → EngAcc → EngAcc → EngAcc
  | 0, _, _, a => a
  | n + 1, u, mark, a =>
    let mark := if a.st.cargoCut m u then a else mark
    let b := a.cargoChunk core lid pid bid m u
    if b.stop.isSome then { mark with stop := b.stop } else EngAcc.cargoChunks core lid pid bid m n (u + 1) mark b

/-- Moves one after another, the first skip chunks of them made before. -/
def EngAcc.cargo (core lid pid bid : Nat) : List CargoMove → Nat → EngAcc → EngAcc
  | [], _, a => a
  | m :: ms, skip, a =>
    if m.chunks ≤ skip then EngAcc.cargo core lid pid bid ms (skip - m.chunks) a
    else
      let a := EngAcc.cargoChunks core lid pid bid m (m.chunks - skip) skip a a
      if a.stop.isSome then a else EngAcc.cargo core lid pid bid ms 0 a

/-- The global side of an entry for a block index (R276). -/
def CargoEnt.global (e : CargoEnt) (pid beta : Nat) : EngAddr := .virt none pid (e.gaddr + BitVec.ofInt 64 ((beta : Int) * e.gstr))

/-- The vault side of an entry for a block index (R276). -/
def CargoEnt.vaultSide (e : CargoEnt) (pid beta : Nat) : EngAddr := .virt none pid (e.laddr + BitVec.ofInt 64 ((beta : Int) * e.lstr))

/-- The move of an entry for a block index and sides: inward, or outward. -/
def CargoEnt.move (e : CargoEnt) (pid beta : Nat) (sides : List Nat) (inward : Bool) : CargoMove :=
  let l := if e.vault then e.vaultSide pid beta else .spad e.laddr.toNat
  let g := e.global pid beta
  if inward then { src := g, dst := l, sides := sides, chunks := e.bytes / 16 } else { src := l, dst := g, sides := sides, chunks := e.bytes / 16 }

/-- Whether an entry's scratchpad range lies in the template-store segment (R277). -/
def CargoEnt.inSegment (e : CargoEnt) (r : Record) : Bool := !e.vault && e.laddr.toNat + e.bytes ≤ r.ts

/-- Whether an entry's scratchpad range lies in the stage channel (R277). -/
def CargoEnt.inChannel (e : CargoEnt) (r : Record) : Bool := !e.vault && r.ts + r.p ≤ e.laddr.toNat

/-- The stage group of a block. -/
def State.groupOfBlock (s : State) (b : Block) : Option StageGroup := tget s.stageGroups b.group

/-- Whether the block stages its group's channel entries: its first stage does, once (R278). -/
def State.stagesChannel (s : State) (b : Block) : Bool := b.geo.stage == 0 && !((s.groupOfBlock b).map fun g : StageGroup => g.staged).getD true

/-- The moves that stage a block (R278): vault entries only at level 0, scratchpad entries with the same bytes on every side, channel entries once for the group. -/
def State.stagingMoves (s : State) (l : Launch) (b : Block) : List CargoMove :=
  let r := l.record
  (l.cargo.filter fun e => e.dirIn).flatMap fun e =>
    if e.vault then (if r.level = 0 then [e.move l.pid b.beta [0] true] else [])
    else if e.inSegment r || (e.inChannel r && !s.stagesChannel b) then []
    else [e.move l.pid b.beta (List.range b.sides.length) true]

/-- The moves made before a template crew starts: entries into the segment once, vault entries for every block index (R221). -/
def templateMoves (l : Launch) : List CargoMove :=
  let ins := l.cargo.filter fun e => e.dirIn
  ((ins.filter fun e => e.inSegment l.record).map fun e => e.move l.pid 0 [0] true)
    ++ (List.range l.record.grid).flatMap fun beta => (ins.filter fun e => e.vault).map fun e => e.move l.pid beta [0] true

/-- The moves that write a block back, its group's channel with the last block of the group (R279). -/
def writebackMoves (l : Launch) (b : Block) (last : Bool) : List CargoMove :=
  (l.cargo.filter fun e => e.dirOut && (last || !e.inChannel l.record)).map fun e => e.move l.pid b.beta [0] false

/-- What moving a block's cargo came to: all of it, a wait at a translation fault, or a fault that cannot be resolved. -/
inductive CargoEnd where
  | done
  | paused
  | failed
  deriving DecidableEq, Repr

/-- A block's cargo moved as far as it goes, on from where an earlier fault stopped it; a fault pauses the block (R278, R279, R288). What has been
written into global memory has reached the memory-side caches (R279). -/
def State.moveCargo (s : State) (b : Block) (ms : List CargoMove) : CargoEnd × State :=
  let core := (b.side 0).core
  let pid := s.pidOf b.launch
  let skip := (b.pause.map fun p : Pause => p.moved).getD 0
  let a := EngAcc.cargo core b.launch pid b.id ms skip { st := s, ahead := b.pause.bind fun p : Pause => p.ahead }
  let s := ((a.st.sealAll [] a.clean).1).modPartition pid fun p => { p with gm := { p.gm with behind := [] } }
  match a.stop with
  | none => (.done, s.modBlock b.id fun b => { b with pause := none })
  | some (.pause ad w _) => (.paused, s.modBlock b.id fun b => { b with pause := some { addr := ad, write := w, moved := skip + a.moved, ahead := a.ahead } })
  | some (.dead _) => (.failed, s.modBlock b.id fun b => { b with pause := none })
  | some (.refused ad t) => (.failed, (s.firewallRecord (core / 32) t pid ad .guest).modBlock b.id fun b => { b with pause := none })

/-- Whether a pause still waits for its verdict. -/
def pauseWaits (p : Option Pause) : Bool := (p.map fun p : Pause => p.waiting).getD false

end Sys2Proof.Machine
end

