-- ==== Sys2Proof/Machine/Blocks.lean ====
section
/-! DEFINITION. The life of a block: crews created (R42, R204-R207, R211, R212, R223, R224, R463), template crews and images (R219-R224), staging, writeback and retirement (R207, R278, R279), and the completion of a launch (R350, R351, R423). -/

namespace Sys2Proof.Machine

/-! ### Crews created -/

/-- The crews of a context that live, saved ones too (R385). -/
def State.contextCrews (s : State) (ctx : Nat) : List Crew :=
  let mine (c : Crew) : Bool := ((tget s.launches c.launch).map fun l : Launch => l.ctx) == some ctx
  ((s.crews.filter fun p => mine p.2).map fun p => p.2) ++ (s.saved.flatMap fun u => u.crews).filter mine

/-- A crew key that no crew of a list holds, from one on (R385). -/
def freeKey (used : List Crew) : Nat → BitVec 16 → BitVec 16
  | 0, k => k
  | n + 1, k => if used.any fun c => c.key == k then freeKey used n (k + 1) else k

/-- A crew key for a new crew of a context. -/
def State.takeKey (s : State) (ctx : Nat) : BitVec 16 × State :=
  match tget s.contexts ctx with
  | none => (0, s)
  | some x =>
    let used := s.contextCrews ctx
    let k := freeKey used used.length x.nextKey
    (k, { s with contexts := tput s.contexts ctx { x with nextKey := k + 1 } })

/-- The registers with which a crew begins (R42, R223): from an image, where it begins from one. -/
def freshRegs (width : Nat) (start shandler : DWord) (im : Option Image) : CrewRegs :=
  match im with
  | none => { lanes := List.replicate width {}, restart := start, shandler := shandler }
  | some i => {
      lanes := (List.range width).map fun l =>
        let x := i.lanes.getD l {}
        { v := Vector.ofFn fun (k : Fin 32) => if i.backed.getLsbD k then x.v[k] else {}, p := x.p }
      s := Vector.ofFn fun (k : Fin 32) => if i.backed.getLsbD (32 + k) then i.s[k] else {}
      restart := start, shandler := shandler }

/-- A crew of a block, before it stands anywhere: its place in the block, its slot and lanes, its registers (R211, R212, R223). -/
def State.newCrew (s : State) (b : Block) (l : Launch) (idx : Nat) (shadow : Bool) (role : CrewRole) (start : DWord) (im : Option Image)
    (key : BitVec 16) : Crew :=
  let r := l.record
  let side := if r.twin then idx / r.sideCrews else 0
  let k := idx % r.sideCrews
  let j := k / r.perSlot
  let sd := b.side side
  { id := s.nextId, block := b.id, launch := l.id, idx := idx, width := r.width, side := side, core := sd.core, half := (sd.half0 + j) % 2
    slot := b.id * 64 + j + (if shadow then 32 else 0), lanePos := k % r.perSlot * r.width, role := role, geo := b.geo
    regs := freshRegs r.width start (s.core sd.core).shandler im
    groups := [({ id := s.nextId + 1, lanes := maskOf (List.range r.width), packet := start, runStart := start } : Group)]
    shared := (im.map fun i : Image => i.backed).getD 0, key := key, gen := (s.core sd.core).ctxgen }

/-- A crew created, a template crew too, with its shadow where the launch has shadow crews (R463). -/
def State.createCrew (s : State) (b : Block) (l : Launch) (role : CrewRole) (start : DWord) (im : Option Image) (idx : Nat) : State :=
  let k := s.takeKey l.ctx
  let c := k.2.newCrew b l idx false role start im k.1
  let s := { k.2 with nextId := k.2.nextId + 2 }
  if !l.record.shadow then { s with crews := tput s.crews c.id c }
  else
    let k := s.takeKey l.ctx
    let d := k.2.newCrew b l idx true role start im k.1
    let s := { k.2 with nextId := k.2.nextId + 2 }
    let c := { c with shadow := some { partner := d.id, isShadow := false } }
    let d := { d with shadow := some { partner := c.id, isShadow := true } }
    { s with crews := tput (tput s.crews c.id c) d.id d }

/-- Crews of a block created, by %crew. -/
def State.createCrews (s : State) (b : Block) (l : Launch) (role : CrewRole) (start : DWord) (im : Option Image) (idxs : List Nat) : State :=
  idxs.foldl (fun s k => s.createCrew b l role start im k) s

/-- The crews with which a block begins when it is staged: at level 2 crew 0 alone, from the launch image (R207, R219, R224). -/
def State.firstCrews (s : State) (b : Block) (l : Launch) : State :=
  let start := match l.image with
    | none => l.record.entry
    | some i => i.resume
  if l.record.level = 2 then s.createCrews b l .blockTemplate start l.image [0]
  else s.createCrews b l .normal start l.image (List.range l.record.crews)

/-! ### Crews ended -/

/-- Crews removed, their filter entries with them (R387). -/
def State.removeCrews (s : State) (cs : List Crew) : State :=
  let s := s.dropStreams fun k _ => cs.any fun c => c.id == k
  { (s.dropTickets cs) with crews := s.crews.filter fun p => !cs.any fun c => c.id == p.1 }

/-- A block's berth entries are invalid (R257); what was visible in them stays known to accesses on their way (R258). -/
def State.clearBerths (s : State) (bid : Nat) : State :=
  { s with cores := s.cores.map fun e => (e.1, { e.2 with
      berths := e.2.berths.filter fun p => p.2.block != bid
      berthGone := (e.2.berths.filter fun p => p.2.block == bid).foldl (fun t p => tput t p.2.install p.2.visible) e.2.berthGone }) }

/-- The lines of a world leave the protected ways: they are sealed and written back (R423). -/
def State.dropLines (s : State) (h : Word) : State :=
  { s with
    slices := s.slices.map fun p => (p.1, { p.2 with plines := p.2.plines.filter fun x => x.2 != h })
    partitions := s.partitions.map fun p => (p.1, { p.2 with gm := p.2.gm.settleSectors fun k => (tget p.2.gm.sealed k).any fun q => q.handle == h }) }

/-- A block gone: its crews, berths, and its place in its stage group, which goes with its last block (R207, R209); a world's lines leave the protected ways (R423). -/
def State.dropBlock (s : State) (b : Block) : State :=
  let s := (s.removeCrews (s.crewsOf b.id)).clearBerths b.id
  let s : State := { s with
    blocks := tdel s.blocks b.id
    stageGroups := (s.stageGroups.map fun p => (p.1, { p.2 with blocks := p.2.blocks.filter fun k => k != b.id })).filter fun p => !p.2.blocks.isEmpty }
  let s := s.dropCopies
  let h := (s.recordOf b.launch).key
  if h = 0 then s else s.dropLines h

/-! ### Outstanding operations (R207, R222) -/

/-- Whether an engine command of the block is unfinished. -/
def State.blockCommands (s : State) (bid : Nat) : Bool := s.cores.any fun e => e.2.ferry.any fun f => f.2.block == bid

/-- Whether a crew has an operation on its way. -/
def State.crewBusy (s : State) (c : Crew) : Bool :=
  !c.storeQ.isEmpty || !c.loads.isEmpty || !c.replies.isEmpty || !c.replay.isEmpty
    || (s.core c.core).vaultPend.any (fun v => v.crew == c.id)
    || s.landUpds.any (fun u => (u.after.map fun x : Nat × Nat => x.1) == some c.id)
    || s.cores.any fun e => e.2.ferry.any fun f => f.2.crew == c.id

/-- Whether every crew of a block has ended and every operation that it issued has completed (R207). -/
def State.blockDone (s : State) (b : Block) : Bool :=
  (s.crewsOf b.id).all (fun c => c.groups.isEmpty && !s.crewBusy c) && b.sides.all (fun sd => sd.queue.isEmpty) && !s.blockCommands b.id

/-! ### Template crews (R219-R222) -/

/-- The block in which a launch's template crew runs: the segment alone as scratchpad, no tiles, no accumulator (R220). -/
def templateBlock (id : Nat) (l : Launch) (core half clk : Nat) : Block :=
  { id := id, launch := l.id, template := true, state := .staging, ts := l.record.ts, dispatchedAt := clk
    geo := { nbx := l.record.nbx, nby := l.record.nby, nbz := l.record.nbz, nix := l.record.nix, niy := l.record.niy, niz := l.record.niz
             launchId := l.lid }
    sides := [({ core := core, half0 := half } : Side)] }

/-- The template crew's staging, and the crew once it is done; a fault that cannot be resolved ends the launch (R221). -/
def State.stageTemplate (s : State) (l : Launch) (b : Block) : State :=
  let r := s.moveCargo b (templateMoves l)
  match r.1 with
  | .paused => r.2
  | .failed => r.2.endLaunch l.id .fault
  | .done =>
    let s := r.2.modLaunch l.id fun l => { l with phase := .template, vaultStaged := true }
    let s := s.modBlock b.id fun b => { b with state := .running }
    s.createCrews b l .launchTemplate l.record.entry none [0]

/-- TEMPLATE_CREW_CREATE: a READY launch of level 1 or 2 gets its template crew on a core of its partition with a free slot and room for the segment (R219-R221). -/
def State.templateCrew (s : State) (lid core : Nat) : Option State :=
  match tget s.launches lid with
  | none => none
  | some l =>
    if l.phase != .ready || l.record.level = 0 then none
    else match l.templateBlock with
      | some bid => (tget s.blocks bid).bind fun b =>
          if pauseWaits b.pause || b.state != .staging || (b.side 0).core ≠ core then none else some (s.stageTemplate l b)
      | none =>
        let u := s.coreUse core
        let h := u.half
        if !(s.slicesOf l.pid).contains (core / 32) || !s.coreTakes core || !(u.template l.record h).ok then none
        else
          let b := templateBlock s.nextId l core h (s.slice (core / 32)).clk
          let s := { s with nextId := s.nextId + 1, blocks := tput s.blocks b.id b }
          let l := { l with templateBlock := some b.id }
          some (({ s with launches := tput s.launches lid l }).stageTemplate l b)

/-- The image of a crew (R222). -/
def imageOf (c : Crew) (backed : DWord) (segment : Store) (resume : DWord) : Image :=
  { s := c.regs.s, lanes := c.regs.lanes.map fun x : Lane => ({ v := x.v, p := x.p } : Lane), backed := backed, segment := segment, resume := resume }

/-- FREEZE 1 stamped: the launch runs from the image, the template crew and its block are gone (R222, R223). The spec gives the image area in HBM no place and no byte form: the model keeps
the image as data and writes no byte of global memory for it, a DESIGN CHOICE (log 45). -/
def State.stampLaunch (s : State) (c : Crew) (b : Block) (resume : DWord) : State :=
  let im := imageOf c c.wrote (b.side 0).spad resume
  let s := s.modLaunch c.launch fun l => { l with image := some im, phase := .running, templateBlock := none }
  s.dropBlock b

/-- FREEZE 2 stamped: every crew of the block begins from crew 0's image; a twin's follower receives the private granules (R224). -/
def State.stampBlock (s : State) (c : Crew) (b : Block) (l : Launch) (resume : DWord) : State :=
  let shared := (l.image.map fun i : Image => i.backed).getD 0
  let im := imageOf c (c.wrote ||| shared) {} resume
  let s := s.modLaunch l.id fun l => { l with blockImages := tput l.blockImages b.id im }
  let lead := b.side 0
  let s := if !b.isTwin then s else s.modSide b.id 1 fun sd =>
    { sd with
      copied := lead.copied, pool := lead.pool
      spad := lead.copied.foldl (fun (st : Store) g => (st.setBytes (64 * g) (lead.spad.bytes (64 * g) 64)).markPoison
        (((List.range 4).map (4 * g + ·)).filter lead.spad.poison.contains)) sd.spad }
  let s := s.removeCrews (s.crewsOf b.id)
  s.createCrews b l .normal resume (some im) (List.range l.record.crews)

/-- IMAGE_TAKE: a crew at the end of its FREEZE's run, with no operation left, gives its image, which is stamped as one action; a deferred trap comes first (R134, R222). -/
def State.imageTake (s : State) (cid : Nat) : Option State :=
  match (tget s.crews cid).bind fun c => (c.groups.head?).bind fun g => (tget s.blocks c.block).map fun b => (c, g, b) with
  | none => none
  | some (c, g, b) =>
    match g.transfer, tget s.launches c.launch with
    | some t, some l => (match t.kind with
      | .freeze level =>
        if !g.atEnd || g.wait != some .freeze || b.state != .running || c.frozen || g.trap.isSome || g.halted || c.sact != 0 || !c.replay.isEmpty then none
        else match c.deferred with
          | d :: _ => some ((s.modCrew cid fun w => { w with deferred := w.deferred.drop 1 }).raiseTrap cid g.id {
              cause := d.cause, packet := t.packet, word := t.word, mask := maskOf (c.groupLanes g), addr := d.addr.getD 0, info := d.info
              defer := true, amask := t.active })
          | [] =>
            if s.crewBusy c || b.sides.any (fun sd => !sd.queue.isEmpty) then none
            else if level = 1 then some (s.stampLaunch c b (t.packet + 1)) else some (s.stampBlock c b l (t.packet + 1))
      | _ => none)
    | _, _ => none

/-! ### Staging, writeback, retirement (R207, R278, R279) -/

/-- CARGO_STAGING: the block's in entries are staged and its crews created (R278). -/
def State.cargoStaging (s : State) (bid : Nat) : Option State :=
  match (tget s.blocks bid).bind fun b => (tget s.launches b.launch).map fun l => (b, l) with
  | none => none
  | some (b, l) =>
    let staged := ((s.groupOfBlock b).map fun g : StageGroup => g.staged).getD true
    let needsChannel := l.cargo.any fun e => e.dirIn && e.inChannel l.record
    if b.state != .staging || b.template || b.killed || pauseWaits b.pause then none
    else if needsChannel && !staged && b.geo.stage != 0 then none
    else
      let r := s.moveCargo b (s.stagingMoves l b)
      match r.1 with
      | .paused => some r.2
      | .failed => some (r.2.endLaunch l.id .fault)
      | .done =>
        let s := r.2
        let s := if b.geo.stage != 0 then s else match tget s.stageGroups b.group with
          | none => s
          | some g => { s with stageGroups := tput s.stageGroups b.group { g with staged := true } }
        let s := s.modBlock bid fun b => { b with state := .running }
        some (s.firstCrews b l)

/-- Whether the other blocks of a block's group have retired or are about to (R279). -/
def State.lastOfGroup (s : State) (b : Block) : Bool :=
  (((s.groupOfBlock b).map fun g : StageGroup => g.blocks).getD []).all fun k =>
    k == b.id || ((tget s.blocks k).map fun x : Block => x.state) == some .retiring

/-- BLOCK_WRITEBACK: every crew has ended and nothing is outstanding, and the out entries are written back; a killed block writes nothing back (R279, R350). A writeback that waited
at a translation fault is made again from its first entry, so that each granule ends with the bytes of one block (R280, log 44). -/
def State.blockWriteback (s : State) (bid : Nat) : Option State :=
  match (tget s.blocks bid).bind fun b => (tget s.launches b.launch).map fun l => (b, l) with
  | none => none
  | some (b, l) =>
    if !(b.state == .running || b.state == .writeback) || pauseWaits b.pause || (b.template && !b.killed) || !s.blockDone b then none
    else
      let close (s : State) : State := s.modBlock bid fun b => { b with state := .retiring, pause := none }
      if b.killed then some (close s)
      else
        let s := s.modBlock bid fun b => { b with state := .writeback }
        let r := s.moveCargo { b with pause := none } (writebackMoves l b (s.lastOfGroup b))
        match r.1 with
        | .paused => some r.2
        | .failed => some (close (r.2.endLaunch l.id .fault))
        | .done => some (close r.2)

/-- Whether a launch has blocks that have not retired: unassigned, in a table, or saved. -/
def State.launchBusy (s : State) (l : Launch) : Bool :=
  !(s.blocksOf l.id).isEmpty || s.saved.any fun u => u.blocks.any fun b => b.launch == l.id

/-- BLOCK_RETIREMENT: the block's resources are released; the last block of a running launch completes it with OK (R207, R350). -/
def State.blockRetirement (s : State) (bid : Nat) : Option State :=
  match tget s.blocks bid with
  | none => none
  | some b =>
    if b.state != .retiring then none
    else
      let s := s.dropBlock b
      let s := { s with freezing := s.freezing.map fun u => { u with blocks := u.blocks.filter fun k => k != bid } }
      match tget s.launches b.launch with
      | none => some s
      | some l =>
        let l := { l with retired := l.retired + 1, blockImages := tdel l.blockImages bid }
        let s := { s with launches := tput s.launches l.id l }
        some (if l.phase == .running && l.nextBeta = l.record.grid && l.back.isEmpty && !s.launchBusy l then s.endLaunch l.id .ok else s)

/-! ### The completion of a launch (R349, R351, R423) -/

/-- A dependent launch when one that it waits for has completed: it fails with the other, or is READY when it waits for nothing more (R349, R350). -/
def Launch.depDone (l : Launch) (dep clk : Nat) (ok : Bool) : Launch :=
  if l.phase != .waiting || !l.deps.contains dep then l
  else if !ok then { l with phase := .completing, status := .depfail }
  else
    let ds := l.deps.filter fun d => d != dep
    if ds.isEmpty then { l with deps := [], phase := .ready, readyAt := clk } else { l with deps := ds }

/-- The vault bytes of windows set to zero (R423). -/
def State.scrubVault (s : State) (pid : Nat) (ws : List (Nat × Nat)) : State :=
  let pages := ((tget s.partitions pid).map fun p : Partition => p.pages).getD []
  ws.foldl (fun (s : State) (w : Nat × Nat) => pages.foldl (fun (s : State) (g : Page) =>
    let lo := max w.1 g.va
    let hi := min (w.1 + w.2) (g.va + g.size)
    if g.vault && lo < hi then { s with vault := s.vault.zeroRange (g.pa + (lo - g.va)) (hi - lo) } else s) s) s

/-- Whether a launch has had a block or a template, so that it was a world where it names a handle. -/
def Launch.ran (l : Launch) : Bool := 0 < l.nextBeta || l.image.isSome || l.templateBlock.isSome || l.vaultStaged

/-- What the end of a protected launch leaves behind: its lines are sealed, its vault windows zero where SCRUBV says so (R423). One that never ran was no world. -/
def State.scrubWorld (s : State) (l : Launch) : State :=
  match (s.handle? l.record.key).filter fun _ => l.ran with
  | none => s
  | some k => if k.scrubV then (s.dropLines l.record.key).scrubVault l.pid k.vwin else s.dropLines l.record.key

/-- The key slot of a handle released: its windows end, its generation rises, and vault windows not scrubbed before are now (R411, R413, R423). -/
def State.freeHandle (s : State) (slot : Nat) : State :=
  match tget s.harbour.handles slot with
  | none => s
  | some k =>
    let s := s.dropLines (handleWord slot k)
    let s := if k.scrubV then s else s.scrubVault k.pid k.vwin
    { s with harbour := { s.harbour with handles := tput s.harbour.handles slot { gen := (k.gen + 1) % 65536 } } }

/-- A release that waited for launches takes place when no launch uses the handle (R413). -/
def State.releaseDue (s : State) (h : Word) : State :=
  match s.handle? h with
  | none => s
  | some k => if k.releaseWanted && !(s.launches.any fun p => p.2.record.key == h) then s.freeHandle (h.toNat % 4096) else s

/-- The home of a vault reference in a partition, where it translates (R351). -/
def State.vaultLand (s : State) (pid : Nat) (ref : DWord) : Option LandHome :=
  match s.xlateVault pid (ref.toNat / 16 * 16) true with
  | .ok pa => some (.vault pa)
  | .error _ => none

/-- The status word written, when STADDR is usable (R350, R351). -/
def State.writeStatus (s : State) (l : Launch) : State :=
  let a := l.record.staddr
  if a = 0 || a.toNat % 8 ≠ 0 then s
  else
    let w := bytesOfNat 8 (l.status.code + l.detail * 2 ^ 8 + l.lid.toNat * 2 ^ 32)
    (s.writeVirtual l.pid a.toNat w).getD s

/-- ARR of the completion landing lowered, when CLAND is usable (R350, R351). -/
def State.landStatus (s : State) (l : Launch) : State :=
  let a := l.record.cland
  if a.toNat % 2 = 0 || a.toNat / 2 % 8 ≠ 0 then s
  else match s.vaultLand l.pid a with
    | none => s
    | some h => s.sendLand l.pid h .arrive

/-- LAUNCH_COMPLETION: every block has retired; scrub, status word, completion landing, in this order; dependent launches go on (R349-R351, R413, R423). -/
def State.launchCompletion (s : State) (lid : Nat) : Option State :=
  match tget s.launches lid with
  | none => none
  | some l =>
    if l.phase != .completing || s.launchBusy l then none
    else
      let s := ((s.scrubWorld l).writeStatus l).landStatus l
      let s := { s with
        queues := s.queues.map fun q : Queue => if q.uid = l.quid then q.settleStatus l.num l.status.code else q
        launches := (tdel s.launches lid).map fun p : Nat × Launch => (p.1, p.2.depDone lid (s.homeClock p.2) (l.status == Status.ok)) }
      some (s.releaseDue l.record.key)

end Sys2Proof.Machine
end

