-- ==== Sys2Proof/Machine/Sched.lean ====
section
/-! DEFINITION. The slice schedulers: which launch is served, where its blocks go, dispatch, balancing, quanta and reservations (R235, R238, R352-R357, R406), the units of a freeze and the freeze signal (R381, R382), and translation faults of the schedulers (R278, R288, R340, R408, R409). -/

namespace Sys2Proof.Machine

/-! ### Which launch is served (R352, R353) -/

/-- Whether a unit of a launch is frozen or saved: it resumes ahead of the launch's unassigned blocks (R353, R354). -/
def State.unitHeld (s : State) (lid : Nat) : Bool :=
  (s.saved.any fun u => u.blocks.any fun b => b.launch == lid) || (s.blocksOf lid).any fun b => b.state == .frozen

/-- Whether a launch has blocks that no core has been given: of level 0 once it is READY, of the others once it runs (R350). -/
def Launch.unassigned (l : Launch) : Bool :=
  (l.nextBeta < l.record.grid || !l.back.isEmpty) && (l.phase == .running || (l.phase == .ready && l.record.level = 0))

/-- Whether a core's block queue and capacities take one more stage group (R356). -/
def State.queueTakes (s : State) (r : Record) (core : Nat) : Bool := (s.core core).blockQueue.length + r.stages ≤ 8

/-- The cores of a slice that can take a stage group (R356). -/
def State.takers (s : State) (r : Record) (slice : Nat) : List Nat := (s.coresFor r slice).filter (s.queueTakes r)

/-- The crews that count against a core in the choice of R356, over both cores of a twin for twin blocks. -/
def State.placeCrews (s : State) (r : Record) (core : Nat) : Nat := ((r.cores core).map s.crewCount).foldl (· + ·) 0

/-- The core of a list with the fewest crews, the lowest %core and then the lowest slice on a tie (R356). -/
def State.fewest (s : State) (r : Record) : List Nat → Option Nat
  | [] => none
  | k :: ks => match s.fewest r ks with
    | none => some k
    | some m =>
      let key (k : Nat) : Nat × Nat × Nat := (s.placeCrews r k, k % 32, k / 32)
      let a := key k
      let b := key m
      some (if a.1 < b.1 || (a.1 = b.1 && (a.2.1 < b.2.1 || (a.2.1 = b.2.1 && a.2.2 ≤ b.2.2))) then k else m)

/-- The core that the home scheduler gives a stage group: of its own slice, else of the partition's other slices (R356). -/
def State.chooseCore (s : State) (l : Launch) : Option Nat :=
  match s.fewest l.record (s.takers l.record l.home) with
  | some k => some k
  | none => s.fewest l.record (((s.slicesOf l.pid).filter fun k => k != l.home).flatMap (s.takers l.record))

/-- Whether a reservation keeps blocks of a launch off a core: another candidate holds it with equal or higher effective priority (R355). mine says which block indices of the
launch the blocks have. -/
def State.reservedFrom (s : State) (core : Nat) (l : Launch) (mine : Nat → Bool) : Bool :=
  match (s.core core).reservedBy.bind fun r => (tget s.launches r.1).map fun c => (r, c) with
  | none => false
  | some (r, c) => !(r.1 == l.id && mine r.2) && s.effPrio l ≤ s.effPrio c

/-- A stage group on a core beside what stands there and what a placement has put there: its halves and the use after, where it fits. -/
def State.placeNext (s : State) (l : Launch) (used : Table (Nat × List CoreUse)) (core : Nat) : Option (List (List Nat × CoreUse)) :=
  let r := l.record
  let us : List (CoreUse × Bool) := match tget used core with
    | some u => u.2.map fun x => (x, false)
    | none => (r.cores core).map fun j => (s.coreUse j, !s.holdsLaunch j l.id)
  let gs := us.map fun u => groupUse r u.1 u.2
  if gs.all fun g => g.2.ok then some gs else none

/-- The place of a core in the choice of R356: the home slice, the fewest crews with those that a placement has put there, the lowest %core, the lowest slice. -/
def State.placeKey (s : State) (l : Launch) (used : Table (Nat × List CoreUse)) (core : Nat) : List Nat :=
  [ if core / 32 = l.home then 0 else 1
  , s.placeCrews l.record core + ((tget used core).map fun u => u.1).getD 0 * l.record.crews * l.record.stages * l.record.copies
  , core % 32, core / 32 ]

/-- Stage groups of a cooperative launch placed one after another on cores with every resource free, chosen as R356 says: for each its leader core and halves, none when one does not fit (R235). -/
def State.placeAll (s : State) (l : Launch) (cores : List Nat) : Nat → Table (Nat × List CoreUse) → Option (List (Nat × List (List Nat)))
  | 0, _ => some []
  | n + 1, used =>
    let fits := cores.filter fun k => (s.placeNext l used k).isSome
    let pick := fits.foldl (fun (m : Option Nat) k => match m with
      | none => some k
      | some j => some (if keysBefore (s.placeKey l used k) (s.placeKey l used j) then k else j)) none
    match pick.bind fun k => (s.placeNext l used k).map fun gs => (k, gs) with
    | none => none
    | some (k, gs) =>
      let used' := tput used k (((tget used k).map fun u => u.1).getD 0 + 1, gs.map fun g => g.2)
      (s.placeAll l cores n used').map fun rest => (k, gs.map fun g => g.1) :: rest

/-- The places of a whole cooperative launch, where it fits now (R235). -/
def State.coopPlaces (s : State) (l : Launch) : Option (List (Nat × List (List Nat))) :=
  let free (k : Nat) : Bool := (l.record.cores k).all fun j => !s.reservedFrom j l fun _ => true
  s.placeAll l (((s.slicesOf l.pid).flatMap (s.coresFor l.record)).filter free) l.record.grid []

/-- Whether a launch with unassigned blocks takes part in the choice now: a unit of it that is frozen or saved goes first, and a cooperative launch waits for all its places at once (R235, R354, log 29). -/
def State.canAssign (s : State) (l : Launch) : Bool := !s.unitHeld l.id && (!l.record.coop || (s.coopPlaces l).isSome)

/-- Of each queue of a home scheduler the oldest launch with unassigned blocks at its level, where it takes part now (R353). -/
def State.servable (s : State) (slice : Nat) : List Launch :=
  let ls := (s.launches.filter fun p => p.2.home == slice && p.2.unassigned).map fun p => p.2
  let same (a b : Launch) : Bool := a.quid == b.quid && s.effPrio a == s.effPrio b
  ls.filter fun l => ((ls.find? (same l)).map fun f => f.id) == some l.id && s.canAssign l

/-- The queue whose turn it is at a level among those that wait there: the next after the one served last (R353). -/
def nextQueue (last : Nat) (uids : List Nat) : Nat :=
  match uids.filter fun u => last < u with
  | [] => uids.foldl min (uids.headD 0)
  | u :: us => us.foldl min u

/-- The launch that is served next: highest effective priority, round-robin over the queues, the oldest of its queue (R353). -/
def State.served (s : State) (slice : Nat) : Option Launch :=
  let ls := s.servable slice
  let top := (ls.map s.effPrio).foldl max 0
  let at' := ls.filter fun l => s.effPrio l == top
  let uid := nextQueue ((tget (s.slice slice).turns top).getD 0) (at'.map fun l => l.quid)
  at'.find? fun l => l.quid == uid

/-! ### Assignment and dispatch (R204, R207-R212, R224, R238, R353, R356) -/

/-- The position of a block of a launch (R204, R276). -/
def blockGeo (l : Launch) (beta stage : Nat) : Geometry :=
  let r := l.record
  { stage := stage, bxPos := beta % r.nbx, byPos := beta / r.nbx % r.nby, bzPos := beta / r.nbx / r.nby
    nbx := r.nbx, nby := r.nby, nbz := r.nbz, nix := r.nix, niy := r.niy, niz := r.niz, launchId := l.lid }

/-- A stage group of a launch made, its blocks not yet on a core. -/
def State.makeGroup (s : State) (l : Launch) (beta : Nat) : StageGroup × State :=
  let r := l.record
  let clk := s.homeClock l
  let gid := s.nextId
  let ids := (List.range r.stages).map fun k => gid + 1 + k
  let bs := ids.zipIdx.map fun x : Nat × Nat => (({
    id := x.1, launch := l.id, beta := beta, geo := blockGeo l beta x.2, group := gid, ts := r.ts, p := r.p, ch := r.ch, dispatchedAt := clk } : Block))
  let g : StageGroup := { id := gid, launch := l.id, blocks := ids }
  (g, { s with
    nextId := gid + 1 + r.stages, stageGroups := tput s.stageGroups gid g
    blocks := bs.foldl (fun t b => tput t b.id b) s.blocks })

/-- The block index that is handed out next, the lowest: one that came back lies below those not handed out yet (R353, R486). -/
def Launch.upNext (l : Launch) : Nat := l.back.headD l.nextBeta

/-- A launch whose next stage group has been handed out (R350, R352). -/
def State.handedOut (s : State) (l : Launch) (n : Nat) : State :=
  s.modLaunch l.id fun l => { l with
    back := l.back.drop 1, nextBeta := if l.back.isEmpty then l.nextBeta + n else l.nextBeta, phase := .running, readyAt := s.homeClock l }

/-- The sides of a block on its cores, as dispatch makes them: zero everywhere, the pool full (R207, R210, R228). -/
def freshSides (r : Record) (core : Nat) (halves : List Nat) : List Side :=
  (r.cores core).zipIdx.map fun x : Nat × Nat =>
    ({ core := x.1, half0 := halves.getD x.2 0, pool := r.budget, shapes := List.replicate r.tiles 0 } : Side)

/-- The cores of a dispatch hold a copy of the launch's image and segment from then on (R232). -/
def State.takeCopies (s : State) (cores : List Nat) (lid : Nat) : State :=
  cores.foldl (fun s k => s.modCore k fun c => { c with copies := if c.copies.contains lid then c.copies else c.copies ++ [lid] }) s

/-- A stage group dispatched to its core, or its twin: halves per core and block (R208, R212, R238). -/
def State.placeGroupAt (s : State) (g : StageGroup) (r : Record) (core : Nat) (halves : List (List Nat)) : State :=
  let s := s.takeCopies (r.cores core) g.launch
  g.blocks.zipIdx.foldl (fun (s : State) (x : Nat × Nat) => s.modBlock x.1 fun b => { b with
    sides := freshSides r core (halves.map fun h => h.getD x.2 0), state := .staging, dispatchedAt := (s.slice (core / 32)).clk }) s

/-- The reservation of a candidate ends: blocks of a launch with the indices that mine names are dispatched (R355). -/
def State.unreserve (s : State) (lid : Nat) (mine : Nat → Bool) : State :=
  { s with cores := s.cores.map fun e : Nat × Core => (e.1, if e.2.reservedBy.any fun r => r.1 == lid && mine r.2 then { e.2 with reservedBy := none } else e.2) }

/-- The block indices of a stage group. -/
def State.groupBeta (s : State) (g : StageGroup) (k : Nat) : Bool := (g.blocks.head?.bind (tget s.blocks)).any fun b => b.beta == k

/-- BLOCK_ASSIGN: the home scheduler gives the next stage group of the launch that is served to a core's block queue; a cooperative launch is dispatched whole (R235, R353, R356). -/
def State.blockAssign (s : State) (slice : Nat) : Option State :=
  match if s.sliceRuns slice then s.served slice else none with
  | none => none
  | some l =>
    let top := s.effPrio l
    let s := s.modSlice slice fun x => { x with turns := tput x.turns top l.quid }
    if l.record.coop then
      match s.coopPlaces l with
      | none => none
      | some ps => some ((ps.zipIdx.foldl (fun (s : State) (x : (Nat × List (List Nat)) × Nat) =>
          let m := s.makeGroup l x.2
          m.2.placeGroupAt m.1 l.record x.1.1 x.1.2) (s.unreserve l.id fun _ => true)).handedOut l l.record.grid)
    else match s.chooseCore l with
      | none => none
      | some k =>
        let m := s.makeGroup l l.upNext
        let s := m.2.modCore k fun c => { c with blockQueue := c.blockQueue ++ m.1.blocks }
        some (s.handedOut l 1)

/-- BLOCK_DISPATCH: the stage group at the head of a core's block queue is dispatched once every resource that it declares is free there (R238, R356). -/
def State.blockDispatch (s : State) (core : Nat) : Option State :=
  match ((s.core core).blockQueue.head?.bind (tget s.blocks)).bind fun b => (s.groupOfBlock b).bind fun g => (tget s.launches b.launch).map fun l => (g, l) with
  | none => none
  | some (g, l) =>
    let r := l.record
    match s.groupPlace r l.id core with
    | none => none
    | some halves =>
      if !(r.cores core).all s.coreTakes || (r.cores core).any fun k => s.reservedFrom k l (s.groupBeta g) then none
      else
        let s := s.modCore core fun c => { c with blockQueue := c.blockQueue.filter fun b => !g.blocks.contains b }
        some ((s.unreserve l.id (s.groupBeta g)).placeGroupAt g r core halves)

/-! ### Balancing (R357) -/

/-- The neighbours of a core in its slice. -/
def coreNeighbours (core : Nat) : List Nat :=
  let base := core / 32 * 32
  let a := base + (core % 32 + 31) % 32
  let b := base + (core % 32 + 1) % 32
  if a < b then [a, b] else [b, a]

/-- The blocks that an exchange may move: the most recently assigned stage group of a core's queue, of no twin and no cooperative launch. -/
def State.movableGroup (s : State) (core : Nat) : Option StageGroup :=
  ((s.core core).blockQueue.getLast?.bind (tget s.blocks)).bind fun b =>
    let r := s.recordOf b.launch
    if r.twin || r.coop then none else s.groupOfBlock b

/-- BALANCE_EXCHANGE: every 8192 cycles a core compares queue depths with its neighbours and may move its most recently assigned stage group to one of them. -/
def State.balanceExchange (s : State) (core : Nat) : Option State :=
  let c := s.core core
  if c.clk < 8192 * (c.exchanges + 1) then none
  else
    let s := s.modCore core fun c => { c with exchanges := c.exchanges + 1 }
    let limit := (s.slice (core / 32)).balance
    let depth (k : Nat) : Nat := (s.core k).blockQueue.length
    match s.movableGroup core with
    | none => some s
    | some g =>
      match (coreNeighbours core).find? fun k => limit != 0 && depth k + limit ≤ depth core && depth k + g.blocks.length ≤ 8 && s.coreTakes k with
      | none => some s
      | some k =>
        let s := s.modCore core fun c => { c with blockQueue := c.blockQueue.filter fun b => !g.blocks.contains b }
        some (s.modCore k fun c => { c with blockQueue := c.blockQueue ++ g.blocks }).dropCopies

/-! ### Frozen units (R234, R381) -/

/-- Whether a block can be part of a unit that is frozen now: it stages or runs. -/
def Block.freezable (b : Block) : Bool := b.state == .running || b.state == .staging

/-- Whether a block is on a core and its launch goes on. -/
def Block.onCore (b : Block) : Bool := b.resident && b.state != .frozen && !b.killed

/-- The unit that a block belongs to (R381). -/
def State.unitOf (s : State) (b : Block) : FreezeUnit :=
  let r := s.recordOf b.launch
  if b.template then .block b.id else if r.coop then .launch b.launch else if r.stages ≠ 1 then .stageGroup b.group else .block b.id

/-- The blocks of a unit (R381). -/
def State.unitBlocks (s : State) (u : FreezeUnit) : List Block :=
  let all := (s.blocks.filter fun p => p.2.onCore).map fun p => p.2
  match u with
  | .contextOnSlice ctx slice =>
    let here (b : Block) : Bool := b.sides.any fun sd => sd.core / 32 == slice
    let us := ((all.filter fun b => s.ctxOfLaunch b.launch == ctx && here b).map s.unitOf).eraseDups
    all.filter fun b => us.contains (s.unitOf b)
  | u => all.filter fun b => s.unitOf b == u

/-- Whether every group of a block stands at a chain-group boundary (R16, R382). -/
def State.atBoundary (s : State) (b : Block) : Bool := (s.crewsOf b.id).all fun c => c.groups.all fun g => !g.issuing

/-- Whether a handler is being entered in a block: a freeze takes effect after the entry (R367, R368). A trap detected in the very cycle of the freeze is not being
entered: it is saved as pending, and entered on resumption (R367). -/
def State.entering (s : State) (bid : Nat) : Bool :=
  !s.blockInHandler bid && match s.nextTrap bid with
    | none => false
    | some (c, g, _) => g.trapAt != (s.core c.core).clk

/-- A group at a freeze: a word that waits has not issued and is issued again, and the count of its wait starts again (R382, R383); the check of a run
of which nothing has issued is discarded, to be made again when the run begins (R382). -/
def Group.atFreeze (g : Group) : Group :=
  let idle := g.final.isSome && !g.atEnd && g.trap.isNone && g.packet == g.runStart && g.word == 0 && g.fill == 0
  { g with
    since := none, code := none
    wait := if g.atEnd then g.wait else none
    final := if idle then none else g.final }

/-- Groups that stand at one run start are one group (R213): one whose run check was discarded stands at its run start again. -/
def Crew.regroup (c : Crew) : Crew := c.groups.foldl Crew.comeBack { c with groups := [] }

/-- FREEZE_SIGNAL: the unit's cores are signalled, and its groups stop at their chain-group boundaries (R382, R383); a unit of which a block is being written back is not frozen before that block has retired (log 44). -/
def State.freezeSignal (s : State) (u : FreezeUnit) : Option State :=
  let bs := s.unitBlocks u
  if bs.isEmpty || !bs.all (fun b => b.freezable && s.atBoundary b && !s.entering b.id) then none
  else
    let ids := bs.map fun b => b.id
    let cores := (bs.flatMap fun b => b.sides.map fun sd => sd.core).eraseDups
    let mine (c : Crew) : Bool := ids.contains c.block
    let unit : FreezingUnit := { id := s.nextId, unit := u, blocks := ids, since := cores.foldl (fun t k => tput t k (s.core k).clk) [] }
    let s := s.dropStreams fun cid _ => ((tget s.crews cid).map mine).getD false
    some { s with
      nextId := s.nextId + 1, freezing := s.freezing ++ [unit]
      blocks := s.blocks.map fun p => (p.1, if ids.contains p.1 then { p.2 with state := .frozen } else p.2)
      crews := s.crews.map fun p => (p.1, if mine p.2 then Crew.regroup { p.2 with
        frozen := true, groups := p.2.groups.map Group.atFreeze } else p.2) }

/-! ### Quanta and reservations (R354, R355, R406) -/

/-- The quantum of a launch's priority level in cycles (R358). -/
def State.quantumOf (s : State) (slice lid : Nat) : Nat :=
  let level := ((tget s.launches lid).map s.effPrio).getD 0
  (s.slice slice).quantum.getD level 0x200000

/-- The cycles that a block has held its core, by its slice's scheduler. -/
def State.heldFor (s : State) (b : Block) : Nat := (s.slice ((b.side 0).core / 32)).clk - b.dispatchedAt

/-- The cycles that a block may hold its core: its quantum less what it owes (R406). -/
def State.allowance (s : State) (b : Block) : Nat := s.quantumOf ((b.side 0).core / 32) b.launch - b.debit

/-- Whether a launch waits for room: unassigned blocks, blocks in a block queue, or a saved unit. -/
def State.waitsForRoom (s : State) (l : Launch) : Bool :=
  l.unassigned || (s.blocksOf l.id).any (fun b => b.state == .assigned) || s.saved.any fun u => u.blocks.any fun b => b.launch == l.id

/-- QUANTUM_EXPIRY: a block that has held its core for its quantum is frozen with its unit when a block of another queue at its level waits for room (R354, R406). -/
def State.quantumExpiry (s : State) (bid : Nat) : Option State :=
  match (tget s.blocks bid).bind fun b => (tget s.launches b.launch).map fun l => (b, l) with
  | none => none
  | some (b, l) =>
    let others := s.launches.any fun p => p.2.pid == l.pid && p.2.quid != l.quid && s.effPrio p.2 == s.effPrio l && s.waitsForRoom p.2
    if !b.onCore || s.heldFor b < s.allowance b || !others then none else s.freezeSignal (s.unitOf b)

/-- The candidates of a launch with the cycles of the home scheduler for which each has waited for room, by block index: its next block since it could be given to a core, a stage group
in a block queue since it came there, a saved unit since it was saved (R355). -/
def State.candidates (s : State) (l : Launch) : List (Nat × Nat) :=
  let clk := s.homeClock l
  let queued := ((s.blocksOf l.id).filter fun b => b.state == .assigned).map fun b => (b.beta, clk - b.dispatchedAt)
  let saved := (s.saved.flatMap fun u => u.blocks.filter fun b => b.launch == l.id).map fun b => (b.beta, clk - b.dispatchedAt)
  (if l.unassigned then [(l.upNext, clk - l.readyAt)] else []) ++ queued ++ saved

/-- The candidate of a launch that has waited longest (R355). -/
def State.longest (s : State) (l : Launch) : Option (Nat × Nat) :=
  (s.candidates l).foldl (fun m x => match m with
    | none => some x
    | some y => some (if y.2 < x.2 then x else y)) none

/-- CANDIDATE_RESERVE: the candidate of a launch that has waited longest, 2^22 cycles at least, at the highest effective priority among those waiting in its partition, reserves a
core of the partition (R355). -/
def State.candidateReserve (s : State) (lid core : Nat) : Option State :=
  match (tget s.launches lid).bind fun l => (s.longest l).map fun c => (l, c) with
  | none => none
  | some (l, c) =>
    let top := s.launches.all fun p => p.2.pid != l.pid || !s.waitsForRoom p.2 || s.effPrio p.2 ≤ s.effPrio l
    let taken := s.cores.any fun e => e.2.reservedBy == some (lid, c.1)
    if c.2 < 2 ^ 22 || !top || taken || (s.core core).reservedBy.isSome || !(s.slicesOf l.pid).contains (core / 32) || !s.coreTakes core then none
    else some (s.modCore core fun r => { r with reservedBy := some (lid, c.1) })

/-! ### Translation faults of the schedulers (R278, R288, R340, R408, R409) -/

/-- The numbers under which the fault queue's bookkeeping names a block and a queue (log 39). -/
def blockCore : Nat := 1024

/-- The number for a queue. -/
def queueCore : Nat := 1026

/-- A record for a waiting scheduler written into a slice's fault queue, where it has room; the tag it takes (R408). -/
def State.schedFault (s : State) (slice pid ctx core kind slot : Nat) (p : Pause) : Option (Nat × State) :=
  let sl := s.slice slice
  if p.ftag.isSome || !p.waiting || 2 ^ (sl.fqLog2n + 4) ≤ (sl.fqProd - sl.fqCons).toNat then none
  else
    let ftag := sl.nextFtag % 65536
    let at' := sl.fqBase.toNat + 32 * (sl.fqProd.toNat % 2 ^ (sl.fqLog2n + 4))
    let s := s.writeGlobal pid at' (faultRecord p.addr ctx core ftag p.write false 0)
    let s := s.modSlice slice fun x => { x with
      fqProd := x.fqProd + 1, nextFtag := x.nextFtag + 1, paused := x.paused ++ [({ ftag := ftag, core := kind, slot := slot } : PausedRef)] }
    some (ftag, s.raiseSource pid slice 0)

/-- FAULT_QUEUE_RECORD_WRITE for a command, an inbound transfer, a block's cargo or a queue's ring (R408). -/
def State.faultQueueWrite (s : State) (core slot : Nat) : Option State :=
  if core < blockCore then s.faultWrite core slot
  else if core = blockCore then
    match (tget s.blocks slot).bind fun b => b.pause.map fun p => (b, p) with
    | none => none
    | some (b, p) =>
      let k := (b.side 0).core
      (s.schedFault (k / 32) (s.pidOf b.launch) (s.ctxOfLaunch b.launch) k blockCore slot p).map fun r =>
        r.2.modBlock slot fun b => { b with pause := some { p with ftag := some r.1 } }
  else if core = queueCore then
    match (s.queues.find? fun q => q.uid == slot).bind fun q => q.pause.map fun p => (q, p) with
    | none => none
    | some (q, p) => (s.schedFault q.home q.pid q.ctx 0 queueCore slot p).map fun r =>
        { r.2 with queues := r.2.queues.map fun x : Queue => if x.uid = slot then { x with pause := some { p with ftag := some r.1 } } else x }
  else none

/-- What a fault tag names among the schedulers' waits: the kind and its number. -/
def State.pausedSched (s : State) (slice ftag : Nat) : Option (Nat × Nat) :=
  ((s.slice slice).paused.find? fun p => p.ftag == ftag && blockCore ≤ p.core).map fun p => (p.core, p.slot)

/-- A fault tag of a slice released. -/
def State.dropTag (s : State) (slice ftag : Nat) : State :=
  s.modSlice slice fun x => { x with paused := x.paused.filter fun q => q.ftag != ftag }

/-- FQ_RESOLVE with a resume verdict: what waited translates again (R409). -/
def State.resolveGo (s : State) (slice ftag : Nat) : State :=
  match s.pausedSched slice ftag with
  | none => s.fqResume slice ftag
  | some (kind, slot) =>
    let s := s.dropTag slice ftag
    let named (p : Option Pause) : Bool := (p.bind fun p => p.ftag) == some ftag
    if kind = blockCore then s.modBlock slot fun b => if named b.pause then { b with pause := b.pause.map fun p => { p with ftag := none, waiting := false } } else b
    else { s with queues := s.queues.map fun x : Queue => if x.uid = slot && named x.pause then { x with pause := none } else x }

/-- FQ_RESOLVE with an unresolvable verdict: a command ends under R288, staging and writeback end the launch with FAULT (R278, R279), a queue stops with a record (R340). -/
def State.resolveStop (s : State) (slice ftag : Nat) : State :=
  match s.pausedSched slice ftag with
  | none => s.fqDead slice ftag
  | some (kind, slot) =>
    let s := s.dropTag slice ftag
    if kind = blockCore then match tget s.blocks slot with
      | none => s
      | some b =>
        if (b.pause.bind fun p => p.ftag) ≠ some ftag then s
        else
          let s := s.endLaunch b.launch .fault
          if b.state == .writeback then s.modBlock slot fun b => { b with state := .retiring, pause := none } else s
    else match s.queues.find? fun q => q.uid == slot with
      | none => s
      | some q => if (q.pause.bind fun p => p.ftag) ≠ some ftag then s else (s.queueRecord q.home q.pid q.desc q.qnum).stopQueue slot

end Sys2Proof.Machine
end

