-- ==== Sys2Proof/Machine/SchedEvents.lean ====
section
/-! DEFINITION. The meanings of the events of the schedulers: queues, admission, assignment, dispatch, staging, retirement, completion, quanta, freezing, and the fault queue (R207, R220, R222, R238, R278, R279, R340, R342, R348, R350, R351, R354-R357, R382, R408, R409). -/

namespace Sys2Proof.Machine

/-- TEMPLATE_CREW_CREATE (R220). -/
def execTemplateCrewCreate (launch core : Nat) (s : State) : Host.Outcome State Fault Refusal := enabledEvent (s.templateCrew launch core)

/-- IMAGE_TAKE (R222). -/
def execImageTake (crew : Nat) (s : State) : Host.Outcome State Fault Refusal := enabledEvent (s.imageTake crew)

/-- DOORBELL_WRITE (R342). -/
def execDoorbellWrite (srcSlice pid : Nat) (addr v : DWord) (s : State) : Host.Outcome State Fault Refusal := enabledEvent (s.doorbell srcSlice pid addr v)

/-- RECORD_ADMISSION (R348). -/
def execRecordAdmission (pid qnum : Nat) (s : State) : Host.Outcome State Fault Refusal := enabledEvent (s.recordAdmission pid qnum)

/-- BLOCK_DISPATCH (R238). -/
def execBlockDispatch (core : Nat) (s : State) : Host.Outcome State Fault Refusal := enabledEvent (s.blockDispatch core)

/-- CARGO_STAGING (R278). -/
def execCargoStaging (block : Nat) (s : State) : Host.Outcome State Fault Refusal := enabledEvent (s.cargoStaging block)

/-- BLOCK_WRITEBACK (R279). -/
def execBlockWriteback (block : Nat) (s : State) : Host.Outcome State Fault Refusal := enabledEvent (s.blockWriteback block)

/-- BLOCK_RETIREMENT (R207). -/
def execBlockRetirement (block : Nat) (s : State) : Host.Outcome State Fault Refusal := enabledEvent (s.blockRetirement block)

/-- LAUNCH_COMPLETION (R351). -/
def execLaunchCompletion (launch : Nat) (s : State) : Host.Outcome State Fault Refusal := enabledEvent (s.launchCompletion launch)

/-- SCHED_QDESC (R340). -/
def execSchedQdesc (slice : Nat) (addr : DWord) (s : State) : Host.Outcome State Fault Refusal := enabledEvent (s.schedQdesc slice addr)

/-- SCHED_QSTOP (R350). -/
def execSchedQstop (slice : Nat) (v : DWord) (s : State) : Host.Outcome State Fault Refusal := enabledEvent (s.schedQstop slice v)

/-- BALANCE_EXCHANGE (R357). -/
def execBalanceExchange (core : Nat) (s : State) : Host.Outcome State Fault Refusal := enabledEvent (s.balanceExchange core)

/-- QUANTUM_EXPIRY (R354). -/
def execQuantumExpiry (block : Nat) (s : State) : Host.Outcome State Fault Refusal := enabledEvent (s.quantumExpiry block)

/-- CANDIDATE_RESERVE (R355). -/
def execCandidateReserve (launch core : Nat) (s : State) : Host.Outcome State Fault Refusal := enabledEvent (s.candidateReserve launch core)

/-- FAULT_QUEUE_RECORD_WRITE (R408). -/
def execFaultQueueRecordWrite (core slot : Nat) (s : State) : Host.Outcome State Fault Refusal := enabledEvent (s.faultQueueWrite core slot)

/-- FQ_RESOLVE_RESUME (R409): a tag that names no paused command is ignored. -/
def execFqResolveResume (slice ftag : Nat) (s : State) : Host.Outcome State Fault Refusal := .next (s.resolveGo slice ftag)

/-- FQ_RESOLVE_UNRESOLVABLE (R288, R409): a tag that names no paused command is ignored. -/
def execFqResolveUnresolvable (slice ftag : Nat) (s : State) : Host.Outcome State Fault Refusal := .next (s.resolveStop slice ftag)

end Sys2Proof.Machine
end

