-- ==== Sys2Proof/Machine/SaveForm.lean ====
section
/-! DEFINITION. What the sections of a core part hold whose byte form the spec does not give (R398, R401): the contents as numbers, in one order; Config.saveForm stands for their form (log 45). -/

namespace Sys2Proof.Machine

/-- Where an optional number stands among contents: 0 for none. -/
def optNum (x : Option Nat) : Nat := (x.map (· + 1)).getD 0

/-- A value with its tag, and what it waits for. -/
def RegVal.nums (v : RegVal) : List Nat := [v.bits.toNat, v.tag.code, optNum v.pend]

/-- A list with its length before it. -/
def counted (xs : List (List Nat)) : List Nat := xs.length :: xs.flatten

/-- A trap: its cause, place, lanes, address and detail, and for FPX the results and operands that it carries (R370, R372). -/
def TrapInfo.nums (t : TrapInfo) : List Nat :=
  [t.cause.code, t.packet.toNat, t.word, t.mask.toNat, t.addr.toNat, t.info.toNat, t.defer.toNat, t.amask.toNat, t.flags.toNat]
    ++ counted (t.fpx.map fun x => x.1 :: (x.2.1.nums ++ x.2.2.1.nums ++ x.2.2.2.1.nums ++ x.2.2.2.2.nums))

/-- A recorded control transfer. -/
def Transfer.nums (t : Transfer) : List Nat :=
  [t.packet.toNat, t.word, t.active.toNat] ++ match t.kind with
    | .jump take dest => [0, take.toNat] ++ counted (dest.map fun d => [d.1, d.2.toNat])
    | .exit m => [1, m.toNat]
    | .freeze k => [2, k]
    | .rte .retry => [3, 0]
    | .rte .commit => [3, 1]
    | .rte .skip => [3, 2]

/-- What a cross-lane word left to a group. -/
def Rendezvous.nums (r : Rendezvous) : List Nat := counted (r.results.map fun x => x.1 :: (x.2.1.nums ++ [x.2.2.toNat]))

/-- A group: its lanes, its position, and the state of its run. -/
def Group.nums (g : Group) : List Nat :=
  [g.lanes.toNat, g.packet.toNat, g.word, g.runStart.toNat, optNum (g.final.map fun x => x.toNat), g.atEnd.toNat, g.fill, g.tileCode.toNat, g.passed, optNum g.owed
  , g.yielded.toNat, g.yielding.toNat, g.halted.toNat, g.skid]
    ++ counted (g.guards.map fun x => [x.allow.toNat, x.left]) ++ counted (g.trailer.map fun x => [x.toNat])
    ++ counted ((g.transfer.map Transfer.nums).toList) ++ counted ((g.trap.map TrapInfo.nums).toList) ++ counted ((g.joined.map Rendezvous.nums).toList)

/-- The handler that a crew runs, and what it interrupted. -/
def Serving.nums (h : Serving) : List Nat :=
  [h.supervisor.toNat, h.gmask.toNat, h.runStart.toNat, optNum (h.final.map fun x => x.toNat), h.atEnd.toNat, h.tileCode.toNat, h.yielding.toNat] ++ h.info.nums
    ++ counted (h.guards.map fun x => [x.allow.toNat, x.left]) ++ counted (h.trailer.map fun x => [x.toNat])
    ++ counted ((h.transfer.map Transfer.nums).toList) ++ counted ((h.joined.map Rendezvous.nums).toList)

/-- A releasing word that waits for comparison (R464). -/
def HeldWord.nums (h : HeldWord) : List Nat :=
  [h.word.toNat, h.packet.toNat, h.wpos, h.mask.toNat] ++ counted (h.addrs.map fun a => [a.1, a.2.toNat])
    ++ counted (h.data.map fun d => d.1 :: counted (d.2.map RegVal.nums)) ++ counted (h.operands.map RegVal.nums) ++ [natOfBytes h.descr]

/-- A crew's part in shadow mode: of the lead what it holds, of the shadow the load-value queue and the steps it has yet to take (R467). -/
def ShadowPart.nums (p : ShadowPart) : List Nat :=
  [p.isShadow.toNat, p.granted.toNat]
    ++ counted (p.lvq.map fun e => e.op :: counted [e.left] ++ counted (e.vals.map fun v => v.1 :: (v.2.1.nums ++ v.2.2.nums))) ++ counted (p.trail.map fun m => [m.toNat])
    ++ counted (p.held.toList.map fun h => h.lanes.toNat :: counted (h.words.map HeldWord.nums))

/-- A crew record: groups and run positions, control registers, the sharing mask, the crew's key, ticket sequence and horizon, and pending trap, halt and handler state (R398); and its part in shadow mode (R467). -/
def Crew.recordNums (c : Crew) : List Nat :=
  let r := c.regs
  [c.idx, c.width, c.shared.toNat, c.key.toNat, c.seq.toNat, c.horizon.toNat, c.wrote.toNat, c.sact, c.skids, r.fpmode.toNat, r.fpflags.toNat, r.fptrap.toNat
  , r.tile.toNat, r.restart.toNat, r.cowcnt.toNat, r.treg.tcause.toNat, r.treg.tpc.toNat, r.treg.tmask.toNat, r.treg.taddr.toNat, r.treg.tskid.toNat
  , r.treg.tinfo.toNat, r.treg.tframe.toNat, r.shandler.toNat]
    ++ counted (c.groups.map Group.nums) ++ counted ((c.handler.map Serving.nums).toList)
    ++ counted (c.deferred.map fun d => [d.cause.code, optNum (d.addr.map fun x => x.toNat), d.info.toNat, d.duringHalt.toNat])
    ++ counted (c.shadow.toList.map ShadowPart.nums)

/-- The registers of a file that a crew does not share with an image, by their number; off is the place of register 0 in the sharing mask (R401). -/
def ownRegs (shared : DWord) (off : Nat) (vs : List RegVal) : List Nat :=
  counted ((vs.zipIdx.filter fun x => !shared.getLsbD (off + x.2)).map fun x => x.2 :: x.1.nums)

/-- A crew's part of the scalar file (R398, R401). -/
def Crew.scalarNums (c : Crew) : List Nat := ownRegs c.shared 32 c.regs.s.toList ++ c.regs.hs.toList.flatMap RegVal.nums

/-- A lane's part of the lane file (R398, R401). -/
def Lane.saveNums (l : Lane) (shared : DWord) : List Nat :=
  ownRegs shared 0 l.v.toList ++ l.h.toList.flatMap RegVal.nums ++ counted (l.q.map RegVal.nums) ++ [l.p.toNat, l.exited.toNat]

/-- A block image without its segment: the scalar part, the lane part and the backed set (R222, R401). -/
def Image.nums (i : Image) : List Nat :=
  i.backed.toNat :: i.resume.toNat :: (i.s.toList.flatMap RegVal.nums ++ i.lanes.flatMap fun l => l.v.toList.flatMap RegVal.nums ++ [l.p.toNat])

/-- The cells of a store with its marks. -/
def Store.nums (st : Store) : List Nat :=
  counted (st.mem.map fun c => [c.1, c.2.toNat]) ++ counted (st.poison.map fun g => [g]) ++ counted (st.badRanges.map fun r => [r.1, r.2])

/-- Tile storage and shape records of a side (R398). -/
def Side.tileNums (sd : Side) : List Nat := counted (sd.tiles.map fun t => t.1 :: t.2.nums) ++ counted (sd.shapes.map fun h => [h.toNat])

/-- The check entries with V = 1 and the MCHK status of a side (R192, R198, R398). -/
def Side.checkNums (sd : Side) : List Nat :=
  [sd.mchk.fail, sd.mchk.skip, sd.mchk.fbase, sd.mchk.frow] ++ counted (sd.slots.map fun k => k.base :: k.used ::
    counted ((k.rows.filter fun e => e.2.v).map fun e => [e.1, e.2.cs.toNat, e.2.cm.toNat, e.2.nc, match e.2.af with
      | .fp32 => 0
      | .i32 => 1
      | .fp64 => 2]))

/-- A berth entry: its number, its descriptor and its visible side (R398). -/
def Berth.nums (k : Nat) (b : Berth) : List Nat := [k, b.block, b.visible.toNat, natOfBytes b.desc]

/-- A section of n bytes that holds contents. -/
def saveSection (k n : Nat) (contents : List Nat) : List Byte := (List.range n).map (Config.saveForm k contents)

/-! ### The captured parts of a tile operation (R392) -/

/-- A geometry word (R186). -/
def AccGeo.number (g : AccGeo) : Nat :=
  g.base + g.rows * 2 ^ 6 + g.cols * 2 ^ 15 + (match g.fmt with
    | .fp32 => 0
    | .i32 => 1
    | .fp64 => 2) * 2 ^ 26 + g.pitch * 2 ^ 28

/-- The address of a range as its word named it. -/
def Span.number : Span → Nat
  | .spad a => a
  | .vault a _ => a.toNat
  | .berth _ _ _ _ off _ k => k * 2 ^ 60 + off

/-- The captured shape records of a tile operation, in the order A, B, then the scales or the follower's own. -/
def TileOp.records : TileOp → List Nat
  | .mma _ ta tb sa sb ftb fsb _ _ _ _ _ => ta.toNat :: tb.toNat :: ([sa, sb, ftb, fsb].map fun x : Option DWord => (x.getD 0).toNat)
  | .tcvt old new _ _ _ => [old.toNat, new.toNat]
  | .tzero r => [r.toNat]
  | .ldt r _ _ => [r.toNat]
  | .stt r _ _ => [r.toNat]
  | _ => []

/-- Geometry word, address and pitch of a tile operation. -/
def TileOp.place : TileOp → List Nat
  | .mma b _ _ _ _ _ _ n _ _ _ _ => [b + n * 2 ^ 15, 0, 0]
  | .accz g => [g.number, 0, g.pitch]
  | .accld g src => [g.number, src.number, g.pitch]
  | .accst g _ a _ _ _ _ _ _ _ => [g.number, a.toNat, g.pitch]
  | .ldt _ src p => [0, src.number, p]
  | .stt _ dst p => [0, dst.number, p]
  | _ => [0, 0, 0]

/-- The payload of a tile operation's entry: up to six shape records, the geometry word, the address and the pitch, 8 bytes each; the spec names them without places (log 45). -/
def TileOp.payload (o : TileOp) : List Byte :=
  ((o.records ++ List.replicate (6 - o.records.length) 0) ++ o.place ++ [0]).flatMap (bytesOfNat 8)

end Sys2Proof.Machine
end

