-- ==== Sys2Proof/Machine/Capture.lean ====
section
/-! DEFINITION. Contexts ended (R380, R387, R404, R454), the capture of a frozen unit with its manifests (R382-R393, R406-R410), and its save (R398-R402, R423, R424). -/

namespace Sys2Proof.Machine

/-! ### Contexts ended -/

/-- The launches of a context that the machine still holds. -/
def State.contextLaunches (s : State) (ctx : Nat) : List Nat := (s.launches.filter fun p => p.2.ctx == ctx).map fun p => p.1

/-- The filter entries of a context retire (R387). -/
def State.retireContext (s : State) (ctx : Nat) : State := s.dropFilters fun t => t / 2 ^ 64 == ctx / 2 ^ 32 && t % 2 ^ 32 == ctx % 2 ^ 32

/-- A context changed. -/
def State.modContext (s : State) (ctx : Nat) (f : Context → Context) : State :=
  { s with contexts := s.contexts.map fun p => (p.1, if p.1 = ctx then f p.2 else p.2) }

/-- A context killed: its collectives are aborted, its launches complete with ABORTED, its filter entries retire (R380, R407, R454). -/
def State.killContext (s : State) (ctx : Nat) : State :=
  let s := (s.abortContext ctx).modContext ctx fun x => { x with killed := true }
  ((s.contextLaunches ctx).foldl (fun s l => s.endLaunch l .aborted) s).retireContext ctx

/-- A context lost: every launch of it that has not completed completes with CONTEXT-LOST, its filter entries retire, and its owner has a record with
the address of the core part and the failed check (R404, R456). Where no check was made (a trip, a failed core) the spec gives INFO no value: a free one of 1 to 5 (log 58). -/
def State.loseContext (s : State) (ctx : Nat) (failed : Option (Nat × Nat)) : State :=
  match tget s.contexts ctx with
  | none => s
  | some x =>
    let s := s.modContext ctx fun x => { x with lost := true }
    let s := ((s.contextLaunches ctx).foldl (fun s l => s.endLaunch l .contextLost) s).retireContext ctx
    let free := s.freeBytes 1
    let e : ErrRec := { type := 9, fatal := true, slice := (s.slicesOf x.pid).headD 0, ctx := ctx }
    match failed with
    | some (part, check) => s.report [x.pid] { e with
        aval := true, addr := x.area + (Config.partOffset part).zeroExtend 64, info := BitVec.ofNat 64 check } .guest
    | none => free.2.report [x.pid] { e with info := BitVec.ofNat 64 (1 + ((free.1.map BitVec.toNat).headD 0) % 5) }

/-- The supervisor's action of a crew, once its chain group is over (R380). -/
def State.supervisorAct (s : State) (cid action : Nat) : Option (Crew × State) :=
  match tget s.crews cid with
  | none => none
  | some c =>
    if c.sact ≠ action || c.frozen || c.groups.any (fun g => g.snap.isSome) then none
    else some (c, s.modCrew cid fun w => { w with sact := 0 })

/-- SACT_KILL_BLOCK: the block is killed and its launch completes with FAULT (R380). -/
def State.sactKillBlock (s : State) (cid : Nat) : Option State :=
  (s.supervisorAct cid 1).map fun r => (r.2.stopBlock r.1.block).endLaunch r.1.launch .fault

/-- SACT_KILL_CONTEXT: the context is killed (R380). -/
def State.sactKillContext (s : State) (cid : Nat) : Option State :=
  (s.supervisorAct cid 2).map fun r => r.2.killContext (s.ctxOfLaunch r.1.launch)

/-! ### What a freezing unit is made of (R381, R382) -/

/-- The blocks of a freezing unit. -/
def State.unitMembers (s : State) (u : FreezingUnit) : List Block := u.blocks.filterMap (tget s.blocks)

/-- The crews of blocks. -/
def State.crewsIn (s : State) (bids : List Nat) : List Crew := (s.crews.filter fun p => bids.contains p.2.block).map fun p => p.2

/-- The cores that blocks are on. -/
def coresOf (bs : List Block) : List Nat := (bs.flatMap fun b => b.sides.map fun sd => sd.core).eraseDups

/-- The engine commands of crews: core, slot and command. -/
def State.commandsOf (s : State) (cids : List Nat) : List (Nat × Nat × FerryCmd) :=
  s.cores.flatMap fun p => (p.2.ferry.filter fun f => cids.contains f.2.crew).map fun f => (p.1, f.1, f.2)

/-- Whether a landing update on its way belongs to the crews, commands or blocks of a unit. -/
def updateOf (bids cids : List Nat) (cmds : List (Nat × Nat × FerryCmd)) (u : LandUpd) : Bool :=
  ((u.owner.map fun o => cmds.any fun x => x.1 == o.1 && x.2.1 == o.2).getD false)
  || ((u.after.map fun a => cids.contains a.1).getD false)
  || match u.home with
    | .spad b _ _ => bids.contains b
    | .vault _ => false

/-- The settle step is over: every block stands frozen, no MMA, TCVT or MCHK is under way, and no landing update of the unit that can be applied is on its way (R202, R382). -/
def State.settled (s : State) (u : FreezingUnit) : Bool :=
  let cids := (s.crewsIn u.blocks).map fun c => c.id
  let cmds := s.commandsOf cids
  (s.unitMembers u).all (fun b => b.state == .frozen && b.sides.all fun sd => !sd.queue.any fun e => e.started && !e.op.byRows)
    && !s.landUpds.any fun x => updateOf u.blocks cids cmds x && !s.updateWaits x

/-- Whether an outstanding request on a core still carries the generation that a capture would bring (R389). -/
def State.genFree (s : State) (core : Nat) : Bool :=
  let g := (s.core core).ctxgen + 1
  !(s.crews.any fun p => p.2.core == core && p.2.gen == g && (p.2.loads.any (fun l => l.gen == g) || p.2.replies.any fun r => r.gen == g))
    && !((s.core core).ferry.any fun f => f.2.gen == g) && !(s.strays.any fun x => x.core == core && x.cmd.gen == g) && !(s.requests.any fun r => r.core == core && r.reply.gen == g)

/-! ### Manifests (R384, R391-R393, R410, R426) -/

/-- Whether a command is carried to another device. -/
def State.cmdRemote (s : State) (c : FerryCmd) : Bool := !c.txns.isEmpty || ((s.cmdPeer c).map fun e : RosterEntry => e.node != s.node).getD false

/-- A command as its manifest entry holds it: what was acknowledged or counted is its progress, nothing of it is on the fabric, and a pause has ended (R390, R410). -/
def State.capturedCmd (s : State) (c : FerryCmd) : FerryCmd :=
  let c' : FerryCmd := { c with paused := none, ftag := none, updates := 0, txns := [], ahead := none }
  if c.op == .fput || c.op == .fputs then (if s.cmdRemote c then { c' with prog := c.acked } else c')
  else if c.op == .fget then { c' with toSend := c.prog }
  else if c.op.isColl && c.sent && c.acked < c.toSend then { c' with sent := false, acked := 0, toSend := 0 }
  else c'

/-- The lanes that a store-queue entry's LMASK names; of a crew-uniform word the lowest active one (R426). -/
def StoreEnt.lmask (e : StoreEnt) : DWord :=
  match e.op with
  | .st ls => maskOf (ls.map fun x => x.1)
  | .atom _ _ _ ls => maskOf (ls.map fun x => x.lane)
  | .lnd _ _ _ => maskOf [e.lane]

/-- The TICKET field of a store-queue entry: its ticket, or a release's recorded sequence (R391). -/
def StoreEnt.ticketField (e : StoreEnt) : DWord :=
  match e.ticket with
  | some t => t
  | none => if e.release then BitVec.ofNat 64 (e.atSeq.toNat * 2 ^ 48) else 0

/-- A store-queue entry's manifest entry; before counts the loads issued before it (R391). -/
def storeEntry (loads : List Nat) (e : StoreEnt) : ManifestEnt :=
  { kind := 2, cls := 3, word := e.word, ticket := e.ticketField, prog := (loads.filter fun l => l < e.id).length, lmask := e.lmask, op := .storeQ e }

/-- A command's manifest entry, paused where it was, a collective's with the bytes that it had sent and received; of a crew-uniform word LMASK names the lowest active lane (R426). -/
def commandEntry (paused : Bool) (was c : FerryCmd) : ManifestEnt :=
  { kind := c.op.entryKind, cls := if c.op.entryKind = 7 then 1 else 2, paused := paused, word := c.word, ticket := c.ticket.getD c.handle
    prog := if c.op.isColl then was.acked + was.prog * 2 ^ 32 else c.prog, lmask := maskOf [c.lane], op := .engine c }

/-- The entry of an atomic or landing update past the store queue whose reply is owed. -/
def replyEntry (r : Reply) : ManifestEnt :=
  { kind := 6, cls := 2, word := r.ent.word, ticket := r.ticket.getD 0, lmask := r.ent.lmask, op := .reply r }

/-- A load's entry. -/
def loadEntry (l : LoadOp) : ManifestEnt := { kind := 1, cls := 1, word := l.word, lmask := maskOf (l.lanes.map fun x => x.1), op := .load l }

/-- A stream's entry; elements fetched ahead are discarded (R393). -/
def streamEntry (k : Nat) (st : StreamInst) : ManifestEnt := { kind := 8, cls := 1, word := st.word, lmask := maskOf [st.lane], op := .stream k { st with fetched := [] } }

/-- A tile operation's entry; one stopped at a row is marked and carries its rows (R202). -/
def tileEntry (e : TileEnt) : ManifestEnt :=
  { kind := 9, cls := 1, started := e.op.byRows && (e.started || e.rows != 0), word := e.word, prog := e.rows, lmask := maskOf [e.lane], op := .tile e.id }

/-- The place of an entry in the manifest: its order (R392) and the crew's issue number. -/
def entryKey (kind seq : Nat) : Nat × Nat := (if kind = 2 then 1 else if 3 ≤ kind && kind ≤ 6 then 2 else if kind = 10 then 4 else 3, seq)

/-- An entry put in its place. -/
def placeEntry (x : (Nat × Nat) × ManifestEnt) : List ((Nat × Nat) × ManifestEnt) → List ((Nat × Nat) × ManifestEnt)
  | [] => [x]
  | y :: ys => if x.1.1 < y.1.1 || (x.1.1 = y.1.1 && x.1.2 < y.1.2) then x :: y :: ys else y :: placeEntry x ys

/-- The entries of a manifest in their order (R392): the kinds in orders 1 to 3, each in issue order. -/
def orderEntries (xs : List (Nat × ManifestEnt)) : List ManifestEnt :=
  (xs.foldl (fun l x => placeEntry (entryKey x.2.kind x.1, x.2) l) []).map fun x => x.2

/-- A manifest entry that a replay has not come to is kept as it is, but for the loads that a store-queue entry follows; streams and tile operations are listed anew. -/
def keptEntry (loads : List Nat) (m : ManifestEnt) : Option (Nat × ManifestEnt) :=
  match m.op with
  | .storeQ e => some (e.id, storeEntry loads e)
  | .engine c => some (c.seq, m)
  | .reply r => some (r.id, m)
  | .load l => some (l.id, m)
  | .stream _ _ => none
  | .tile _ => none
  | .flits _ _ => none

/-- The issue numbers of the loads of a crew that have not returned, with those that its manifest still holds. -/
def Crew.loadIds (c : Crew) : List Nat :=
  (c.loads.map fun l => l.id) ++ c.replay.filterMap fun m => match m.op with
    | .load l => some l.id
    | _ => none

/-- A crew's manifest at capture (R391-R393); in recompute mode tile operations are left out (R405). -/
def State.manifestOf (s : State) (b : Block) (c : Crew) : List ManifestEnt :=
  let cmds := (s.commandsOf [c.id]).map fun x => x.2.2
  let tiles := if (s.recordOf c.launch).recompute then []
    else (b.side c.side).queue.filter fun e => e.crew == c.id && !e.guest
  orderEntries (c.replay.filterMap (keptEntry c.loadIds)
    ++ (c.storeQ.map fun e => (e.id, storeEntry c.loadIds e))
    ++ (cmds.map fun f => (f.seq, commandEntry f.paused.isSome f (s.capturedCmd f)))
    ++ (c.replies.map fun r => (r.id, replyEntry r))
    ++ (c.loads.map fun l => (l.id, loadEntry l))
    ++ (c.streams.map fun x => (x.2.setAt, streamEntry x.1 x.2))
    ++ tiles.map fun e => (e.seq, tileEntry e))

/-! ### Requests in flight (R387, R388) -/

/-- A store-queue entry whose places are fixed: every lane at its vault home. -/
def StoreEnt.atHomes (e : StoreEnt) (vs : List (Nat × Nat)) : StoreEnt :=
  { e with op := match e.op with
      | .st ls => .st ls
      | .atom op n rd ls => .atom op n rd (ls.map fun x => { x with loc := match tget vs x.lane with
          | some pa => .vault pa
          | none => x.loc })
      | .lnd op loc sd => .lnd op (match vs.head? with
          | some v => .vault v.2
          | none => loc) sd }

/-- The lanes of an entry. -/
def StoreEnt.laneCount (e : StoreEnt) : Nat :=
  match e.op with
  | .st _ => 0
  | .atom _ _ _ ls => ls.length
  | .lnd _ _ _ => 1

/-- The request of a crew's oldest store-queue entry, on its way to its vault homes while the crew is captured: it may be applied there before the replay sends it again under the same ticket (R387). -/
def State.inFlight (s : State) (c : Crew) : Option TicketedReq :=
  match c.storeQ.head? with
  | none => none
  | some e =>
    let vs := s.entVaults c e
    let blocked := vs.any fun v => (s.vaultView c.core).any fun u => u.meets v.2 e.size
    if s.storeHeld c e || vs.isEmpty || vs.length ≠ e.laneCount || blocked then none
    else e.ticket.map fun t => {
      ticket := t, horizon := e.hor, crew := c.id, core := c.core
      reply := { id := e.id, rd := e.dest.1, sd := e.dest.2, lanes := [], ticket := some t, gen := c.gen, ent := e.atHomes vs } }

/-! ### Capture (R382, R388, R390, R406) -/

/-- Whether what a command has sent may still land after its capture: it runs, and its destination is on this device (R390). -/
def State.strayable (s : State) (core : Nat) (c : FerryCmd) : Bool :=
  s.cmdRuns core c && c.prog < c.total && !s.cmdRemote c && match c.op with
    | .fcopy => true
    | .fgath => true
    | .fscat => true
    | .fget => true
    | .fput => true
    | .fputs => true
    | _ => false

/-- Whether a command has something outstanding on the fabric: bytes sent that no acknowledgement has answered, or a request without its data (R388, R389). -/
def FerryCmd.abroad (c : FerryCmd) : Bool :=
  !c.txns.isEmpty && (if c.op.isColl then c.acked < c.toSend else if c.op == .fget then c.prog < c.toSend else c.acked < c.prog)

/-- A crew as its capture leaves it: the manifest is the only record of its operations. -/
def Crew.captured (c : Crew) (m : List ManifestEnt) : Crew :=
  { c with
    storeQ := [], loads := [], replies := [], replay := m
    streams := c.streams.map fun x => (x.1, { x.2 with fetched := [] })
    regs := { c.regs with cnt := {} } }

/-- A side as its capture leaves it: operations stopped at a row boundary, twin MMAs that have not begun not engaged (R202). -/
def Side.captured (sd : Side) : Side :=
  { sd with queue := (sd.queue.filter fun e => !e.guest).map fun e => { e with started := false, engaged := false } }

/-- The debit of a block: the settle cycles past its quantum, with what it still owed (R406). -/
def State.debitOf (s : State) (u : FreezingUnit) (b : Block) : Nat :=
  let settle := (u.since.map fun x => (s.core x.1).clk - x.2).foldl max 0
  min (s.heldFor b - s.allowance b) settle + (b.debit - s.quantumOf ((b.side 0).core / 32) b.launch)

/-- A block as its capture leaves it; the tag of a pause is released (R410). -/
def State.capturedBlock (s : State) (u : FreezingUnit) (b : Block) : Block :=
  { b with
    sides := b.sides.map Side.captured, debit := s.debitOf u b
    pause := b.pause.map fun p => { p with ftag := none } }

/-- A unit captured: its operations stand in manifests, its commands leave their slots and its fault tags are released, and each of its cores has a new generation (R382, R388, R410). -/
def State.captureUnit (s : State) (u : FreezingUnit) : State :=
  let bs := s.unitMembers u
  let cs := s.crewsIn u.blocks
  let cids := cs.map fun c => c.id
  let cmds := s.commandsOf cids
  let cores := coresOf bs
  let txns := cmds.flatMap fun x => x.2.2.txns.map fun t => t.1
  let block (c : Crew) : Block := (tget s.blocks c.block).getD { id := 0, launch := 0 }
  let tagged (q : PausedRef) : Bool :=
    (cmds.any fun x => x.1 == q.core && x.2.1 == q.slot && x.2.2.ftag == some q.ftag) || (q.core == blockCore && u.blocks.contains q.slot)
  { s with
    requests := s.requests ++ cs.filterMap s.inFlight
    strays := s.strays ++ (cmds.filter fun x => s.strayable x.1 x.2.2 || x.2.2.abroad).map fun x => ({ core := x.1, cmd := x.2.2 } : Stray)
    crews := cs.foldl (fun t c => tput t c.id (c.captured (s.manifestOf (block c) c))) s.crews
    blocks := bs.foldl (fun t b => tput t b.id (s.capturedBlock u b)) s.blocks
    cores := cores.foldl (fun t k => tput t k { s.core k with
        ctxgen := (s.core k).ctxgen + 1
        ferry := (s.core k).ferry.filter fun f => !cids.contains f.2.crew }) s.cores
    slices := s.slices.map fun p => (p.1, { p.2 with
        paused := p.2.paused.filter fun q => !tagged q
        link := { p.2.link with inbound := p.2.link.inbound.map fun i => if i.kind = 3 && txns.contains (p.1 * 4096 + i.txn) then { i with skip := true, held := [] } else i } })
    landUpds := s.landUpds.map fun x : LandUpd => { x with
        owner := x.owner.filter fun o => !cmds.any fun y => y.1 == o.1 && y.2.1 == o.2 }
    freezing := s.freezing.map fun x : FreezingUnit => if x.id = u.id then { x with captured := true, pendMark := s.nextId } else x }

/-- The freezing unit with a number. -/
def State.freezingUnit? (s : State) (id : Nat) : Option FreezingUnit := s.freezing.find? fun u => u.id == id

/-- CAPTURE: a settled unit is captured, once no request carries the new generation (R382, R389). -/
def State.capture (s : State) (unit : Nat) : Option State :=
  match s.freezingUnit? unit with
  | none => none
  | some u =>
    if u.captured || u.blocks.isEmpty || !s.settled u || !(coresOf (s.unitMembers u)).all s.genFree then none
    else some (s.captureUnit u)

/-! ### The save area (R398-R402) -/

/-- The size of a core part (R398). -/
def partBytes : Nat := 6305 * 1024

/-- The physical ranges of a virtual range that is mapped to global memory. -/
def State.virtPieces (s : State) (pid va n : Nat) : List (Nat × Nat) :=
  let pages := ((tget s.partitions pid).map fun p : Partition => p.pages).getD []
  pages.filterMap fun g =>
    let lo := max va g.va
    let hi := min (va + n) (g.va + g.size)
    if !g.vault && lo < hi then some (g.pa + (lo - g.va), hi - lo) else none

/-- The physical ranges of a core part of a context. -/
def State.partPieces (s : State) (x : Context) (part : Nat) : List (Nat × Nat) :=
  s.virtPieces x.pid (x.area.toNat + (Config.partOffset part).toNat) partBytes

/-- Whether ranges cover a core part. -/
def wholePart (ps : List (Nat × Nat)) : Bool := (ps.map fun p => p.2).foldl (· + ·) 0 = partBytes

/-- Whether a byte lies in ranges. -/
def inPieces (ps : List (Nat × Nat)) (a : Nat) : Bool := ps.any fun p => p.1 ≤ a && a < p.1 + p.2

/-- Whether a sector meets ranges. -/
def sectorIn (ps : List (Nat × Nat)) (k : Nat) : Bool := ps.any fun p => rangesMeet p.1 p.2 (256 * k) 256

/-- The cells of ranges of global memory. -/
def GlobalMem.cellsIn (g : GlobalMem) (ps : List (Nat × Nat)) : Memory := g.mem.filter fun c => inPieces ps c.1

/-- The sections of a core part with the most bytes of each: header, crew records, scalar file, lane file, block images, scratchpad, tile storage, accumulators, check
slots, manifests, berth entries (R398). -/
def sectionSizes : List Nat := [4096, 8192, 16384, 1048576, 786432, 524288, 2101248, 1048576, 393216, manifestSection, 1024]

/-- Where a section begins: each where it would with those before it at their greatest (log 45). -/
def sectionAt (k : Nat) : Nat := (sectionSizes.take k).foldl (· + ·) 0

/-- A core part's contents: MODE, NCREW, and the bytes of the sections behind the header. -/
structure CorePart where
  recompute : Bool
  ncrew : Nat
  sections : List (List Byte)

/-- A list filled up to sixteen entries. -/
def sixteen (l : List Nat) : List Nat := l ++ List.replicate (16 - l.length) 0

/-- LENS of a part: zero for a section that is not there (R400). -/
def CorePart.lens (p : CorePart) : List Nat := 4096 :: p.sections.map List.length

/-- OFFS of a part (R400). -/
def CorePart.offs (p : CorePart) : List Nat := p.lens.zipIdx.map fun x => if x.1 = 0 then 0 else sectionAt x.2

/-- The header of a core part (R400): MAGIC, VERSION, CTX, SAVESEQ, MODE, NCREW, OFFS, LENS and zeros. -/
def headerBytes (ctx saveSeq : Nat) (p : CorePart) : List Byte :=
  bytesOfNat 8 0x53504C5741524541 ++ bytesOfNat 4 1 ++ bytesOfNat 4 ctx ++ bytesOfNat 8 saveSeq
    ++ bytesOfNat 1 p.recompute.toNat ++ bytesOfNat 3 0 ++ bytesOfNat 4 p.ncrew
    ++ (sixteen p.offs).flatMap (bytesOfNat 4) ++ (sixteen p.lens).flatMap (bytesOfNat 4) ++ List.replicate 3936 0

/-- The header of a manifest entry (R391). -/
def ManifestEnt.header (m : ManifestEnt) : List Byte :=
  bytesOfNat 8 (m.kind + m.cls * 2 ^ 8 + m.paused.toNat * 2 ^ 10 + m.started.toNat * 2 ^ 11 + m.op.len * 2 ^ 16 + m.word.toNat * 2 ^ 32)
    ++ bytesOfNat 8 m.ticket.toNat ++ bytesOfNat 8 m.prog ++ bytesOfNat 8 m.lmask.toNat

/-- The number that stands for a place in an address field; a vault place has its physical address, a berth place its berth-logical one (log 45). -/
def Loc.number : Loc → Nat
  | .spad off => off
  | .vault pa => pa
  | .berth _ _ _ _ a => a

/-- The number that stands for a landing in a reference field: bit 0 is set for one in vault (R242). -/
def FerryCmd.landNumber (c : FerryCmd) : Nat :=
  match c.landVa, c.landing with
  | some va, _ => va.toNat + 1
  | none, some (.spad _ _ off) => off
  | none, some (.vault pa) => pa + 1
  | none, none => 0

/-- The operand of a landing update. -/
def LandOp.operand : LandOp → Nat
  | .init e => e
  | .expectIn n => n
  | .expectOut n => n
  | .arrive => 0
  | .countIn n => n
  | .countOut n => n
  | .status k => k

/-- Bytes filled up with zeros. -/
def padTo (n : Nat) (bs : List Byte) : List Byte := bs.take n ++ List.replicate (n - bs.length) 0

/-- The payload of a store-queue entry: per lane the address, the data and the second operand (R392). -/
def StoreEnt.payload (e : StoreEnt) : List Byte :=
  match e.op with
  | .st ls => ls.flatMap fun x => bytesOfNat 8 x.2.1.number ++ padTo 16 x.2.2 ++ bytesOfNat 8 0
  | .atom _ _ _ ls => ls.flatMap fun x => bytesOfNat 8 x.loc.number ++ bytesOfNat 16 x.operand.bits.toNat ++ bytesOfNat 8 x.second.bits.toNat
  | .lnd op l _ => bytesOfNat 8 l.number ++ bytesOfNat 16 0 ++ bytesOfNat 8 op.operand

/-- Where in a lane's result queue the value of an operation stands. -/
def Crew.queuePlace (c : Crew) (lane op : Nat) : Nat := ((c.regs.lane lane).q.findIdx? fun v => v.pend == some op).getD 0

/-- The payload of an entry (R392); tile operations are those of the side's queue. -/
def ManifestEnt.payload (m : ManifestEnt) (c : Crew) (queue : List TileEnt) : List Byte :=
  match m.op with
  | .storeQ e => e.payload
  | .engine f =>
    if f.op.entryKind = 4 then padTo 32 f.desc ++ bytesOfNat 8 f.recordOff ++ bytesOfNat 8 f.landNumber
    else if f.op.entryKind = 5 then padTo 64 f.desc
    else padTo 64 f.desc ++ bytesOfNat 8 f.landNumber
      ++ bytesOfNat 8 (if f.op.entryKind = 3 then f.sd else (f.berthBase.map fun x : Bool × DWord => x.2.toNat).getD 0)
  | .reply r => match r.ent.op with
    | .atom _ _ rd ls => ls.flatMap fun x => bytesOfNat 8 x.loc.number ++ bytesOfNat 16 x.operand.bits.toNat ++ bytesOfNat 8 (0x10 + rd)
    | .lnd op l sd => bytesOfNat 8 l.number ++ bytesOfNat 16 op.operand ++ bytesOfNat 8 (sd.getD 0)
    | .st _ => []
  | .load l => l.lanes.flatMap fun x => bytesOfNat 8 x.2.number ++ bytesOfNat 8 (l.dest.toNat + 2 ^ 8 * c.queuePlace x.1 l.id)
  | .stream _ st => padTo (16 * m.op.len) (padTo 32 st.desc ++ bytesOfNat 8 st.width ++ st.pos.flatMap (bytesOfNat 4))
  | .tile id => ((queue.find? fun e => e.id == id).map fun e => e.op.payload).getD (List.replicate 80 0)
  | .flits _ ps => ps.flatMap fun q =>
      bytesOfNat 16 (q.ftype + q.len * 2 ^ 8 + q.seq.toNat * 2 ^ 16 + q.dest * 2 ^ 32 + q.txn * 2 ^ 48 + q.fidx * 2 ^ 64) ++ padTo 224 q.payload

/-- The manifest of a crew as it stands in the save area. -/
def Crew.manifestImage (c : Crew) (queue : List TileEnt) : List Byte := c.replay.flatMap fun m => m.header ++ m.payload c queue

/-- A part's sectors written anew, with new ECC: no mark or error is left in them (R402). -/
def GlobalMem.freshPart (g : GlobalMem) (ps : List (Nat × Nat)) : GlobalMem :=
  { g with
    poison := ndrop g.poison (sectorIn ps), uncorr := ndrop g.uncorr (sectorIn ps), corr := ndrop g.corr (sectorIn ps)
    behind := g.behind.filter (fun x => !sectorIn ps (x.1 / 8)), badCheck := g.badCheck.filter (fun c => !sectorIn ps c.1), sealed := g.sealed.filter (fun c => !sectorIn ps c.1)
    broken := g.broken.filter (fun c => !sectorIn ps c.1) }

/-- Part numbers of a context that no saved unit holds. -/
def State.freeParts (s : State) (ctx n : Nat) : List Nat :=
  let used := (s.saved.filter fun u => u.ctx == ctx).flatMap fun u => u.parts.map fun p => p.1
  ((List.range (used.length + n)).filter fun k => !used.contains k).take n

/-- The sections of a part written at their places. -/
def State.writeSections (s : State) (pid va : Nat) : List (Nat × List Byte) → Option State
  | [] => some s
  | (off, bs) :: rest => (s.writeVirtual pid (va + off) bs).bind fun s => s.writeSections pid va rest

/-- The integrity tag of a sector of a core part, under the partition's save key, over its address, SAVESEQ and bytes as they are stored, and for a world under the world's
key too (R402, R424, log 45). -/
def GlobalMem.partTag (g : GlobalMem) (key : BitVec 256) (seq : Nat) (world : Option Seal) (k : Nat) : BitVec 96 :=
  let ct := g.stored k
  Config.saveTag key (256 * k) seq ct ^^^ match world with
    | none => 0
    | some q => q.tag k ct

/-- The sectors of a part's pieces. -/
def partSectors (ps : List (Nat × Nat)) : List Nat := ps.flatMap fun p => sectorsOf p.1 p.2

/-- The tags of a part left in its sectors, over what it now holds (R402); for a world its sectors are sealed under the world's key too (R424). -/
def GlobalMem.tagPart (g : GlobalMem) (key : BitVec 256) (ps : List (Nat × Nat)) (seq : Nat) (world : Option Seal) : GlobalMem :=
  let ks := partSectors ps
  let g := match world with
    | none => g
    | some q => { g with sealed := ks.foldl (fun t k => tput t k q) g.sealed }
  { g with itags := ks.foldl (fun t k => tput t k (g.partTag key seq world k)) g.itags }

/-- One core part written: its SAVESEQ rises by one, and its sectors are sealed (R402, R424); none where the area is not mapped. -/
def State.writePart (s : State) (ctx part : Nat) (world : Option Seal) (p : CorePart) : Option State :=
  match tget s.contexts ctx with
  | none => none
  | some x =>
    let ps := s.partPieces x part
    if !wholePart ps then none
    else
      let q := (tget x.saveSeq part).getD 0 + 1
      let s := s.modContext ctx fun x => { x with saveSeq := tput x.saveSeq part q }
      let s := s.modPartition x.pid fun p => { p with gm := p.gm.freshPart ps }
      let body := (p.sections.zipIdx 1).filterMap fun x => if x.1.isEmpty then none else some (sectionAt x.2, x.1)
      (s.writeSections x.pid (x.area.toNat + (Config.partOffset part).toNat) ((0, headerBytes (ctx % 2 ^ 32) q p) :: body)).map fun s =>
        s.modPartition x.pid fun p => { p with gm := p.gm.tagPart ((tget s.harbour.saveKeys x.pid).getD 0) ps q world }

/-- Parts written one after another. -/
def State.writeParts (s : State) (ctx : Nat) (world : Option Seal) : List (Nat × CorePart) → Option State
  | [] => some s
  | (part, p) :: rest => (s.writePart ctx part world p).bind fun s => s.writeParts ctx world rest

/-- The berth entries of a block with their side and number. -/
def State.berthsOf (s : State) (b : Block) : List (Nat × Nat × Berth) :=
  b.sides.zipIdx.flatMap fun x => ((s.core x.1.core).berths.filter fun e => e.2.block == b.id).map fun e => (x.2, e.1, e.2)

/-- What a core of a captured unit writes into its core part (R398, R401): scratchpad and manifests have the bytes that the spec gives them; the other sections have their
sizes, and hold the contents that it names in a form that it does not give (log 45). -/
def State.corePart (s : State) (u : FreezingUnit) (core : Nat) : CorePart :=
  let cs := (s.crewsIn u.blocks).filter fun c => c.core == core
  let sides := (s.unitMembers u).flatMap fun b => (b.sides.zipIdx.filter fun x => x.1.core == core).map fun x => (b, x.2, x.1)
  let r := ((s.unitMembers u).head?.map fun b => s.recordOf b.launch).getD {}
  let sum (ns : List Nat) : Nat := ns.foldl (· + ·) 0
  let images := sides.filterMap fun x => if x.2.1 != 0 then none else (tget s.launches x.1.launch).bind fun l => tget l.blockImages x.1.id
  let berths := (s.core core).berths.filter fun e => u.blocks.contains e.2.block
  let queue (c : Crew) : List TileEnt := ((tget s.blocks c.block).map fun b : Block => (b.side c.side).queue).getD []
  { recompute := r.recompute, ncrew := cs.length
    sections := [
      saveSection 1 (256 * cs.length) (cs.flatMap Crew.recordNums)
    , saveSection 2 (512 * cs.length) (cs.flatMap Crew.scalarNums)
    , saveSection 3 (512 * sum (cs.map fun c => c.width)) (cs.flatMap fun c => c.regs.lanes.flatMap fun l => l.saveNums c.shared)
    , saveSection 4 (24576 * images.length) (images.flatMap Image.nums)
    , sides.flatMap fun x => s.spadBytes x.1 x.2.1 0 x.1.spadSize
    , saveSection 6 (sum (sides.map fun x => x.2.2.tiles.length * r.tileBytes + 128)) (sides.flatMap fun x => x.2.2.tileNums)
    , saveSection 7 (if r.recompute then 0 else sum (sides.map fun x => accBytes x.1 r)) (sides.flatMap fun x => x.2.2.acc.nums)
    , saveSection 8 (if r.recompute || !r.mcheck then 0 else 12288 * sides.length) (sides.flatMap fun x => x.2.2.checkNums)
    , cs.flatMap fun c => c.manifestImage (queue c)
    , saveSection 10 (64 * berths.length) (berths.flatMap fun e => e.2.nums e.1) ] }

/-- The seal of the world that a unit belongs to (R424). -/
def State.unitSeal (s : State) (bs : List Block) : Option Seal := bs.head?.bind fun b => s.worldSeal b.launch

/-- The flits that a cut has recorded for a context, with their ports (R443). -/
def State.cutFlits (s : State) (ctx : Nat) : List (Nat × PlainFlit) := s.slices.flatMap fun p => (p.2.link.recorded ctx).map fun q => (p.1, q)

/-- Recorded flits as manifest entries of KIND 0x0A, one for each (R392, R443). -/
def flitEntries (fs : List (Nat × PlainFlit)) : List ManifestEnt := fs.map fun f => { kind := 10, cls := 0, op := .flits f.1 [f.2] }

/-- Of a context's recorded flits those stay with the ports that stand in no manifest yet. -/
def State.keepCut (s : State) (ctx : Nat) (left : List (Nat × PlainFlit)) : State :=
  { s with slices := s.slices.map fun p => (p.1, { p.2 with link := { p.2.link with cut := p.2.link.cut.map fun c =>
      if c.1 = ctx then (c.1, c.2.1, (left.filter fun f => f.1 == p.1).map fun f => f.2) else c } }) }

/-- The unit as its save holds it. -/
def State.savedUnit (s : State) (u : FreezingUnit) (x : Context) (parts : List Nat) : SavedUnit :=
  let bs := s.unitMembers u
  let clk (b : Block) : Nat := ((tget s.launches b.launch).map s.homeClock).getD 0
  { id := u.id, ctx := x.ctx, unit := u.unit, blocks := bs.map fun b => { b with dispatchedAt := clk b }, crews := s.crewsIn u.blocks
    groups := (s.stageGroups.filter fun g => g.2.blocks.any u.blocks.contains).map fun g => g.2
    berths := bs.flatMap s.berthsOf, cores := coresOf bs
    parts := parts.map fun k => (k, (tget x.saveSeq k).getD 0)
    gone := (coresOf bs).foldl (fun t k => (s.core k).berthGone.foldl (fun t e => tput t e.1 e.2) t) [] }

/-- The resources of a saved unit released (R232, R382, R423). -/
def State.releaseUnit (s : State) (bids : List Nat) : State :=
  State.dropCopies { s with
    blocks := s.blocks.filter fun p => !bids.contains p.1
    crews := s.crews.filter fun p => !bids.contains p.2.block
    stageGroups := s.stageGroups.filter fun g => !g.2.blocks.any bids.contains
    cores := s.cores.map fun e => (e.1, { e.2 with berths := e.2.berths.filter fun p => !bids.contains p.2.block }) }

/-- The context of a unit's blocks. -/
def State.unitCtx (s : State) (u : FreezingUnit) : Nat := ((s.unitMembers u).head?.map fun b => s.ctxOfLaunch b.launch).getD 0

/-- The flits that a cut has recorded join the manifest of a unit's first crew, as many as its section takes; those of a context with several units go on with the next one's (R392, R399,
R443). -/
def State.takeCut (s : State) (u : FreezingUnit) (ctx : Nat) : State :=
  match (s.crewsIn u.blocks).head? with
  | none => s
  | some c =>
    let fs := s.cutFlits ctx
    let n := flitRoom (s.recordCrews u)
    (s.modCrew c.id fun w => { w with replay := w.replay ++ flitEntries (fs.take n) }).keepCut ctx (fs.drop n)

/-- Whether a store that a captured unit's cores saw before its capture, its own or another's, is still on its way to its vault home (R318, R336). -/
def State.pendsLeft (s : State) (u : FreezingUnit) : Bool :=
  (coresOf (s.unitMembers u)).any fun k => (s.vaultView k).any fun v => v.seq < u.pendMark

/-- CONTEXT_SAVE: a captured unit is written and sealed in the save area of its context once nothing is on its way that its crews have seen, and for a context that is being moved every
channel's marker has come; only then its resources are released (R382, R402, R443). -/
def State.contextSave (s : State) (unit : Nat) : Option State :=
  match s.freezingUnit? unit with
  | none => none
  | some u =>
    let bs := s.unitMembers u
    let cids := (s.crewsIn u.blocks).map fun c => c.id
    let ctx := s.unitCtx u
    if !u.captured || bs.isEmpty || s.pendsLeft u || !s.cutComplete ctx then none
    else
      let s := s.takeCut u ctx
      let cores := coresOf bs
      let parts := s.freeParts ctx cores.length
      match s.writeParts ctx (s.unitSeal bs) (parts.zip (cores.map (s.corePart u))) with
      | none => none
      | some s => (tget s.contexts ctx).map fun x =>
        let saved := s.savedUnit u x parts
        let worlds := (bs.map fun b => (s.recordOf b.launch).key).eraseDups.filter fun h => h ≠ 0
        let s := worlds.foldl State.dropLines (s.releaseUnit u.blocks)
        { s with
          saved := s.saved ++ [saved], freezing := s.freezing.filter fun x => x.id != unit
          strays := s.strays.filter fun x => !cids.contains x.cmd.crew || !x.cmd.txns.isEmpty }

/-! ### The watchdog (R407) -/

/-- The blocks of other contexts on a failed core stand frozen where they can at once, to be restored elsewhere; FREEZE_SIGNAL takes the others (R407). -/
def State.leaveCore (s : State) (core ctx : Nat) : State :=
  let bs := (s.blocks.filter fun p => s.ctxOfLaunch p.2.launch != ctx && p.2.sides.any fun sd => sd.core == core).map fun p => p.2
  (bs.map s.unitOf).eraseDups.foldl (fun s u => (s.freezeSignal u).getD s) s

/-- WATCHDOG: a core whose capture is not done 65,536 cycles after the freeze signal is failed; the unit's context is killed, a record goes to the log and to the owner,
and the blocks of other contexts leave the core. A context whose blocks a core that has failed already cannot capture is lost under R404. -/
def State.watchdog (s : State) (core : Nat) : Option State :=
  match s.freezing.find? fun u => !u.captured && match tget u.since core with
      | some t => decide (t + 65536 ≤ (s.core core).clk)
      | none => false with
  | none => none
  | some u =>
    let ctx := s.unitCtx u
    let drop (s : State) : State := { s with freezing := s.freezing.filter fun x => x.id != u.id }
    if (s.core core).failed then some (drop (s.loseContext ctx none))
    else
      let pid := ((tget s.contexts ctx).map fun x : Context => x.pid).getD 0
      let s := s.modCore core fun c => { c with failed := true }
      let s := (s.killContext ctx).report [pid] { type := 8, fatal := true, slice := core / 32, core := core % 32, ctx := ctx }
      some ((drop s).leaveCore core ctx)

end Sys2Proof.Machine
end

