-- ==== Sys2Proof/Machine/Restore.lean ====
section
/-! DEFINITION. The restore of a saved unit (R403-R405, R410), the replay of manifests (R394-R397), and the life of contexts, their rosters and their cut (R302, R387, R398, R443). -/

namespace Sys2Proof.Machine

/-! ### Restore (R403-R405) -/

/-- Bytes of a core part as the Slipway reads them, plain (R402, R424). -/
def State.rawVirtual (s : State) (pid va n : Nat) : List Byte :=
  (List.range n).map fun i => match s.xlate pid (va + i) false with
    | .ok (false, pa) => ((tget s.partitions pid).map fun p : Partition => (readBytes p.gm.mem pa 1).headD 0).getD 0
    | _ => 0

/-- Whether a core part's header is valid: MAGIC, VERSION, the context, and a section table whose sections lie apart in the part, none longer than it may be (R400). -/
def headerOk (ctx : Nat) (h : List Byte) : Bool :=
  leAt h 0 8 == 0x53504C5741524541 && leAt h 8 4 == 1 && leAt h 12 4 == ctx % 2 ^ 32 && leAt h 24 1 < 2 && leAt h 25 3 == 0
    && (List.range 16).all (fun k =>
      let off := leAt h (32 + 4 * k) 4
      let len := leAt h (96 + 4 * k) 4
      if len = 0 then off == 0 else off == sectionAt k && len ≤ sectionSizes.getD k 0)
    && leAt h 160 3936 == 0

/-- Whether a manifest entry's KIND is one of R392 with the CLASS and the LEN that belong to it, PAUSED on engine commands alone and STARTED on tile operations alone
(R391, R392). -/
def entryOk (w lmask : Nat) : Bool :=
  let kind := w % 2 ^ 8
  let cls := w / 2 ^ 8 % 4
  let len := w / 2 ^ 16 % 2 ^ 16
  let lanes := ((List.range 64).filter fun i => lmask.testBit i).length
  w / 2 ^ 12 % 16 == 0 && (!w.testBit 10 || [3, 4, 5, 7].contains kind) && (!w.testBit 11 || kind == 9) && match kind with
    | 1 => cls == 1 && len == lanes
    | 2 => cls == 3 && len == 2 * lanes
    | 3 => cls == 2 && len == 5
    | 4 => cls == 2 && len == 3
    | 5 => cls == 2 && len == 4
    | 6 => cls == 2 && len == 2 * lanes
    | 7 => cls == 1 && len == 5
    | 8 => cls == 1 && 3 ≤ len
    | 9 => cls == 1 && len == 5
    | 10 => cls == 0
    | _ => false

/-- Whether the entries of a manifest section are valid, one after another (R403 check 5). -/
def manifestOk : Nat → List Byte → Bool
  | 0, bs => bs.isEmpty
  | n + 1, bs => bs.isEmpty || (entryOk (leAt bs 0 8) (leAt bs 24 8) && 32 + 16 * leAt bs 2 2 ≤ bs.length && manifestOk n (bs.drop (32 + 16 * leAt bs 2 2)))

/-- Whether every tag of a part verifies, over what its sectors hold, with the SAVESEQ of its header; a world's under its key, which a live handle gives, as well (R402, R421, R424). -/
def GlobalMem.tagsVerify (g : GlobalMem) (key : BitVec 256) (ps : List (Nat × Nat)) (seq : Nat) (world : Option Seal) : Bool :=
  (partSectors ps).all fun k => tget g.itags k == some (g.partTag key seq world k) && ((tget g.sealed k).isNone || world.any (g.verifies k))

/-- The errors in a core part that the restore's reads detect (R403, R460). -/
def State.detectPart (s : State) (x : Context) (part : Nat) : State :=
  match tget s.partitions x.pid with
  | none => s
  | some p => ((p.gm.uncorr ++ p.gm.corr).filter (sectorIn (s.partPieces x part))).foldl (fun s k => s.detectSector x.pid k) s

/-- The first check of R403 that a core part fails, 0 for none. -/
def State.partCheck (s : State) (x : Context) (part : Nat) (world : Option Seal) : Nat :=
  let ps := s.partPieces x part
  let va := x.area.toNat + (Config.partOffset part).toNat
  match tget s.partitions x.pid with
  | none => 1
  | some p =>
    let head := s.rawVirtual x.pid va 4096
    if !wholePart ps || p.gm.uncorr.any (sectorIn ps) || p.gm.poison.any (sectorIn ps) then 1
    else if !p.gm.tagsVerify ((tget s.harbour.saveKeys x.pid).getD 0) ps (leAt head 16 8) world then 2
    else if leAt head 16 8 != (tget x.saveSeq part).getD 0 then 3
    else if !headerOk x.ctx head then 4
    else if !manifestOk manifestSection (s.rawVirtual x.pid (va + sectionAt 9) (leAt head 132 4)) then 5
    else 0

/-- The first check of R403, in their order, that a core part of a saved unit fails, and the first part that fails it. -/
def State.badPart (s : State) (x : Context) (u : SavedUnit) : Option (Nat × Nat) :=
  let fails := u.parts.map fun p => (p.1, s.partCheck x p.1 (s.unitSeal u.blocks))
  [1, 2, 3, 4, 5].findSome? fun k => fails.find? fun f => f.2 == k

/-- What is restored onto one core, or one twin: a stage group, or a launch's template block. -/
def Block.placeKey (b : Block) : Nat := if b.template then b.id else b.group

/-- A block in recompute mode: no accumulators, check state or tile operations (R405). -/
def Side.recompute (sd : Side) : Side := { sd with acc := {}, slots := [], mchk := {}, queue := [] }

/-- The operations whose results a crew waits for and that recompute mode does not bring back. -/
def recomputeLost (b : Block) (c : Crew) : List Nat :=
  b.sides.flatMap fun sd => (sd.queue.filter fun e => e.crew == c.id && match e.op with
    | .mchk _ => true
    | _ => false).map fun e => e.seq

/-- A crew in recompute mode: unless a handler, a pending trap or the block halt holds it, it starts a new run at its %restart with empty queues (R405). -/
def Crew.recompute (c : Crew) (lost : List Nat) : Crew :=
  let c := lost.foldl (fun (c : Crew) k => c.settle k) c
  if c.handler.isSome || c.groups.any (fun g => g.trap.isSome || g.halted) then c
  else match c.groups with
    | [] => c
    | g :: gs =>
      let c := { c with shadow := c.shadow.map fun p : ShadowPart => { p with lvq := [], trail := [], held := none, granted := false } }
      let m := gs.foldl Group.merge g
      let c := (c.groupLanes m).foldl (fun (c : Crew) l => c.modLane l fun ln => { ln with q := [] }) c
      { c with groups := [({ id := m.id, lanes := m.lanes, packet := c.regs.restart, runStart := c.regs.restart, passed := m.passed, owed := m.owed } : Group)] }

/-- A block put on its new cores: it stages where it had no crews yet, else it runs. -/
def restoredBlock (b : Block) (core : Nat) (halves : List Nat) (staging recompute : Bool) (clk : Nat) : Block :=
  { b with
    sides := b.sides.zipIdx.map fun x : Side × Nat =>
      let sd := if recompute then x.1.recompute else x.1
      { sd with core := core + x.2, half0 := halves.getD x.2 0 }
    state := if staging then .staging else .running, dispatchedAt := clk
    pause := b.pause.map fun p : Pause => { p with ftag := none, waiting := false } }

/-- A crew put on its new core: its slot takes the core's generation (R388, R403). -/
def State.restoredCrew (s : State) (r : Record) (old b : Block) (c : Crew) : Crew :=
  let sd := b.side c.side
  let k := if b.template then 0 else c.idx % r.sideCrews / r.perSlot
  let c := if r.recompute then c.recompute (recomputeLost old c) else c
  { c with
    core := sd.core, half := (sd.half0 + k) % 2, gen := (s.core sd.core).ctxgen, frozen := false
    shadow := c.shadow.map fun p : ShadowPart => { p with held := p.held.map fun h : HeldChain => { h with since := (s.core sd.core).clk } } }

/-- One stage group or template block of a saved unit put on a core, where all that it declares is free, its berth entry numbers are too, and a manifest section can record what is outstanding (R399, R403); twin blocks on the two cores of one twin (R234). -/
def State.placeSaved (s : State) (u : SavedUnit) (key core : Nat) : Option State :=
  let bs := u.blocks.filter fun b => b.placeKey == key
  match bs.head?.bind fun b => (tget s.launches b.launch).map fun l => (b, l) with
  | none => none
  | some (b0, l) =>
    let r := { l.record with stages := bs.length }
    let ks := if b0.template then [core] else r.cores core
    let halves : Option (List (List Nat)) :=
      if !b0.template then s.groupPlace r l.id core
      else
        let h := (s.coreUse core).half
        if ((s.coreUse core).template r h).ok then some [[h]] else none
    let mine (x : Nat × Nat × Berth) : Bool := bs.any fun b => b.id == x.2.2.block
    let berths := u.berths.filter mine
    let paired := b0.template || !r.twin || core % 2 = 0
    let free := paired && ks.all fun k => s.coreTakes k && (s.slicesOf l.pid).contains (k / 32) && !s.reservedFrom k l fun n => bs.any fun b => b.beta == n
    if !free || berths.any (fun x => (tget (s.core (core + x.1)).berths x.2.1).isSome) then none
    else Option.filter (fun t : State => ks.all fun k => t.manifestBytes k ≤ manifestSection) <| halves.map fun hs =>
      let news := bs.zipIdx.map fun x : Block × Nat =>
        (x.1, restoredBlock x.1 core (hs.map fun h => h.getD x.2 0) (!u.crews.any fun c => c.block == x.1.id) r.recompute (s.slice (core / 32)).clk)
      let crews := news.flatMap fun n => (u.crews.filter fun c => c.block == n.1.id).map (s.restoredCrew r n.1 n.2)
      let gs := u.groups.filter fun g => bs.any fun b => !b.template && b.group == g.id
      let s := { s with
        blocks := news.foldl (fun t n => tput t n.2.id n.2) s.blocks
        crews := crews.foldl (fun t c => tput t c.id c) s.crews
        stageGroups := gs.foldl (fun t g => tput t g.id g) s.stageGroups }
      let s := if b0.template then s else s.takeCopies ks l.id
      let s := (ks.foldl (fun (s : State) k => s.modCore k fun c => { c with
        berthGone := u.gone.foldl (fun t e => tput t e.1 e.2) c.berthGone }) s).unreserve l.id fun n => bs.any fun b => b.beta == n
      berths.foldl (fun (s : State) x => s.modCore (core + x.1) fun c => { c with berths := tput c.berths x.2.1 x.2.2 }) s

/-- The parts of a unit put on their cores one after another. -/
def State.placeAllSaved (s : State) (u : SavedUnit) : List (Nat × Nat) → Option State
  | [] => some s
  | (key, core) :: rest => (s.placeSaved u key core).bind fun s => s.placeAllSaved u rest

/-- The keys of a saved unit, in the order in which cores are named for them. -/
def SavedUnit.keys (u : SavedUnit) : List Nat := (u.blocks.map fun b => b.placeKey).eraseDups

/-- The cores on which the parts of a unit fit now, each on the first that takes it; none where one fits nowhere. -/
def State.seats (s : State) (u : SavedUnit) (cores : List Nat) : List Nat → Option (List Nat)
  | [] => some []
  | key :: rest => (cores.findSome? fun k => (s.placeSaved u key k).map fun t => (k, t)).bind fun x => (x.2.seats u cores rest).map (x.1 :: ·)

/-- The cores of a partition. -/
def State.coresIn (s : State) (pid : Nat) : List Nat := (s.slicesOf pid).flatMap fun k => (List.range 32).map (32 * k + ·)

/-- The rank of a saved unit among those that wait to resume: effective priority, the age of its launch, its lowest block index (R353). -/
def State.resumeRank (s : State) (u : SavedUnit) : List Nat :=
  let l := u.blocks.head?.bind fun b => tget s.launches b.launch
  [32 - (l.map s.effPrio).getD 0, (l.map fun l : Launch => l.id).getD 0, u.blocks.foldl (fun n b => min n b.beta) ((u.blocks.head?.map fun b => b.beta).getD 0)]

/-- Whether a saved unit of the same partition that goes before another has room now (R353): of another queue at the same level it does not go before. -/
def State.resumesBefore (s : State) (x : Context) (u v : SavedUnit) : Bool :=
  let launch (u : SavedUnit) : Option Launch := u.blocks.head?.bind fun b => tget s.launches b.launch
  let a := s.resumeRank v
  let b := s.resumeRank u
  v.id != u.id && (tget s.contexts v.ctx).map (fun y : Context => (y.pid, y.lost || y.killed)) == some (x.pid, false)
    && (a.headD 0 < b.headD 0 || (a.headD 0 == b.headD 0 && ((launch v).map fun l => l.quid) == ((launch u).map fun l => l.quid) && keysBefore a b))
    && (s.seats v (s.coresIn x.pid) v.keys).isSome

/-- The flits that a unit's manifests hold, with their ports (R443). -/
def SavedUnit.recorded (u : SavedUnit) : List (Nat × PlainFlit) :=
  u.crews.flatMap fun c => c.replay.flatMap fun m => match m.op with
    | .flits k ps => ps.map fun p => (k, p)
    | _ => []

/-- A unit whose recorded flits are delivered apart from its replay. -/
def SavedUnit.withoutFlits (u : SavedUnit) : SavedUnit :=
  { u with crews := u.crews.map fun c => { c with replay := c.replay.filter fun m => m.kind != 10 } }

/-- What a move has recorded for a context is delivered with the first of its units that is restored, before any new flit on the channels (R443). -/
def State.endCut (s : State) (ctx : Nat) (flits : List (Nat × PlainFlit)) : Option State :=
  let s := (s.modContext ctx fun x => { x with cutting := none })
  let s := { s with
    saved := s.saved.map fun u : SavedUnit => if u.ctx = ctx then u.withoutFlits else u
    slices := s.slices.map fun p : Nat × Slice => (p.1, { p.2 with link := { p.2.link with cut := p.2.link.cut.filter fun c => c.1 != ctx } }) }
  s.deliverFlits flits

/-- RESTORE: a saved unit is checked and loaded whole onto cores of its partition, and its replay begins; a check that fails loses its context (R403, R404, R443, R480). Units resume in
the order of R353. -/
def State.restore (s : State) (unit : Nat) (cores : List Nat) : Option State :=
  match (s.saved.find? fun u => u.id == unit).bind fun u => (tget s.contexts u.ctx).map fun x => (u, x) with
  | none => none
  | some (u, x) =>
    let held := ((tget s.partitions x.pid).map fun p : Partition => p.needSession).getD true
    if held || x.lost || x.killed || cores.length ≠ u.keys.length || s.saved.any (s.resumesBefore x u) then none
    else
      let s := u.parts.foldl (fun s p => s.detectPart x p.1) s
      match s.badPart x u with
      | some bad => some (s.loseContext u.ctx (some bad))
      | none =>
        let flits := (s.saved.filter fun y => y.ctx == u.ctx).flatMap SavedUnit.recorded ++ s.cutFlits u.ctx
        (s.placeAllSaved u.withoutFlits (u.keys.zip cores)).bind fun s =>
          ({ s with saved := s.saved.filter fun y => y.id != unit } : State).endCut u.ctx flits

/-! ### Replay (R394-R397) -/

/-- The manifest entry of a crew at a place removed. -/
def State.dropEntry (s : State) (cid k : Nat) : State := s.modCrew cid fun w => { w with replay := w.replay.eraseIdx k }

/-- A load issued again (R393, R394). -/
def State.replayLoad (s : State) (c : Crew) (k : Nat) (l : LoadOp) : State :=
  let s := (s.dropEntry c.id k).modCrew c.id fun w => { w with loads := w.loads ++ [{ l with gen := w.gen }] }
  s.count c.id fun n => { n with loads := n.loads + 1 }

/-- A store-queue entry put into the queue again (R394 step 1). -/
def State.replayStore (s : State) (c : Crew) (k : Nat) (e : StoreEnt) : State :=
  let s := (s.dropEntry c.id k).modCrew c.id fun w => { w with storeQ := w.storeQ ++ [e] }
  s.count c.id fun n => match e.op with
    | .st _ => { n with stores := n.stores + 1 }
    | .atom _ _ _ _ => { n with loads := n.loads + 1, stores := n.stores + 1 }
    | .lnd _ _ _ => n

/-- An engine command sent again from its progress, with its ticket and handle, in a free slot (R283, R394). -/
def State.replayCommand (s : State) (c : Crew) (k : Nat) (f : FerryCmd) : Option State :=
  let r := s.core c.core
  match (List.range ferrySlots).find? fun n => (tget r.ferry n).isNone with
  | none => none
  | some slot =>
    let own (u : LandUpd) : Bool := u.after == some (c.id, f.seq)
    let f := { f with gen := c.gen, side := c.side, updates := (s.landUpds.filter own).length }
    let s := (s.dropEntry c.id k).modCore c.core fun r => { r with ferry := tput r.ferry slot f }
    let s := { s with landUpds := s.landUpds.map fun u : LandUpd => if own u then { u with owner := some (c.core, slot) } else u }
    some (s.count c.id fun n => { n with copies := n.copies + 1 })

/-- A vault atomic or landing update sent again with its ticket: the filter answers it, or it is applied once (R387, R396). An entry that went to scratchpad keeps the values that it had. -/
def State.replayReply (s : State) (c : Crew) (k : Nat) (r : Reply) : Option State :=
  let e := r.ent
  let vs := s.entVaults c e
  let s := (((s.openVaults c e).map fun v => vaultHome v.2 / 32).eraseDups).foldl (fun s n => s.filterRetire n .vault (s.ticketKey c.launch e.ticket) e.hor) s
  if !s.filtersHaveRoom c e (s.openVaults c e) then none
  else
    let again := if vs.length = e.laneCount then s.applyEnt c e else (r.lanes, s)
    let s := (again.2.dropEntry c.id k).modCrew c.id fun w => { w with replies := w.replies ++ [{ r with lanes := again.1, gen := w.gen }] }
    let isAtom : Bool := match e.op with
      | .atom _ _ _ _ => true
      | _ => false
    some (s.count c.id fun n => if isAtom then { n with loads := n.loads + 1, stores := n.stores + 1 } else n)

/-- Whether the targets of a crew's ticketed commands have accepted them (R394 step 3): a collective's bytes are sent, every other one is done. -/
def State.commandsAccepted (s : State) (c : Crew) : Bool :=
  ((s.core c.core).ferry.filter fun f => f.2.crew == c.id && f.2.op.entryKind ≠ 7).all fun f =>
    f.2.done || (f.2.op.isColl && f.2.sent && f.2.toSend ≤ f.2.acked)

/-- The load entry that step 1 issues again before a store-queue entry. -/
def ManifestEnt.loadBefore (id : Nat) (m : ManifestEnt) : Bool :=
  match m.op with
  | .load l => l.id < id
  | _ => false

/-- The ticketed command that step 2 sends before a release-ordered store-queue entry. -/
def ManifestEnt.commandBefore (id : Nat) (m : ManifestEnt) : Bool :=
  match m.op with
  | .engine f => m.cls == 2 && f.seq < id
  | _ => false

/-- The entry of a crew's manifest at a place issued again. -/
def State.replayEntry (s : State) (c : Crew) (k : Nat) : Option State :=
  match c.replay[k]? with
  | none => none
  | some m => match m.op with
    | .storeQ e => some (s.replayStore c k e)
    | .engine f => s.replayCommand c k f
    | .reply r => s.replayReply c k r
    | .load l => some (s.replayLoad c k l)
    | .stream _ _ => some (s.dropEntry c.id k)
    | .tile _ => some ((s.dropEntry c.id k).count c.id fun n => { n with tileops := n.tileops + 1 })
    | .flits _ _ => some (s.dropEntry c.id k)

/-- The next step of a crew's replay (R394): which entry is issued again, none while it waits. -/
def State.replayNext (s : State) (c : Crew) : Option Nat :=
  match c.replay.head? with
  | none => none
  | some m => match m.op with
    | .storeQ e =>
      match c.replay.findIdx? (ManifestEnt.loadBefore e.id) with
      | some k => some k
      | none =>
        if c.loads.any fun l => l.id < e.id then none
        else match if e.release then c.replay.findIdx? (ManifestEnt.commandBefore e.id) else none with
          | some k => some k
          | none => if c.storeQ.isEmpty then some 0 else none
    | .engine f => if c.storeQ.isEmpty && (f.op.entryKind ≠ 7 || s.commandsAccepted c) then some 0 else none
    | .reply _ => if c.storeQ.isEmpty then some 0 else none
    | _ => if c.storeQ.isEmpty && s.commandsAccepted c then some 0 else none

/-- MANIFEST_REPLAY_STEP: a restored crew advances its replay by one entry (R394). -/
def State.replayStep (s : State) (cid : Nat) : Option State :=
  match tget s.crews cid with
  | none => none
  | some c => if c.frozen then none else (s.replayNext c).bind (s.replayEntry c)

/-! ### Contexts (R302, R387, R398, R443) -/

/-- CONTEXT_CREATE: the partition runtime creates a context with its save area; node is this device's own fabric node (R302, R398). -/
def State.contextCreate (s : State) (ctx pid node : Nat) (area : DWord) : Option State :=
  let key := ctxKey pid ctx
  if (tget s.contexts key).isSome || (tget s.partitions pid).isNone || 2 ^ 32 ≤ ctx then none
  else some { s with contexts := tput s.contexts key { ctx := key, pid := pid, node := node, area := area }, node := node }

/-- CONTEXT_DESTROY: what still runs of the context ends with ABORTED, its filter entries retire, and its roster and save area are gone (R387, R398). -/
def State.contextDestroy (s : State) (ctx : Nat) : Option State :=
  if (tget s.contexts ctx).isNone then none
  else
    let s := s.killContext ctx
    some { s with contexts := tdel s.contexts ctx, saved := s.saved.filter fun u => u.ctx != ctx }

/-- ROSTER_ESTABLISH: a roster of 1 to 1024 ranks; a rank that the runtime marks usable stays so only where its peer is on this device or some route to it leaves by a mode-0 port of the
partition (R302, R445, R453). -/
def State.rosterEstablish (s : State) (ctx own : Nat) (ranks : List RosterEntry) : Option State :=
  if (tget s.contexts ctx).isNone || ranks.isEmpty || 1024 < ranks.length then none
  else some (s.modContext ctx fun x => { x with
    own := own, roster := ranks.map fun e : RosterEntry => { e with ctx := ctxKey x.pid e.ctx, usable := e.usable && (e.node == s.node || e.ports.any fun k => (s.slice k.1).fwPid == x.pid && (s.portLink k.1).mode == 0) } })

/-- The payload of a CUT flit: it names the context (log 41). -/
def cutPayload (ctx : Nat) : List Byte := bytesOfNat 4 ctx ++ bytesOfNat 12 0

/-- MIGRATION_CUT: the Slipway begins to move the context; once every unit of it is captured a marker goes out on each fabric channel that it uses. From that capture on, what comes for
it is recorded until the channel's own marker (R443). -/
def State.migrationCut (s : State) (ctx : Nat) : Option State :=
  match tget s.contexts ctx with
  | none => none
  | some x =>
    let sent := x.cutting.getD []
    let due := (s.channels x).filter fun k => !sent.contains k
    if !s.contextCaptured ctx then (if x.cutting.isSome then none else some (s.modContext ctx fun x => { x with cutting := some [] }))
    else if x.cutting.isSome && due.isEmpty then none
    else some (due.foldl (fun (s : State) k => s.queueFlits k.1 [({ ftype := 4, len := 1, dest := k.2, payload := cutPayload ctx } : PlainFlit)])
      (s.modContext ctx fun x => { x with cutting := some (sent ++ due) }))

end Sys2Proof.Machine
end

