-- ==== Sys2Proof/Machine/Displace.lean ====
section
/-! DEFINITION. Displacement: the units that a candidate without room may have frozen (R354), and the causes of a freeze signal (R354, R382, R407, R440, R443). -/

namespace Sys2Proof.Machine

/-! ### Assignment and resumption in order (R353) -/

/-- Whether a saved unit of higher effective priority than a launch, in the launch's partition, has room now: it resumes first (R353). -/
def State.resumesFirst (s : State) (l : Launch) : Bool :=
  s.saved.any fun u =>
    ((u.blocks.head?.bind fun b => tget s.launches b.launch).any fun m => m.pid == l.pid && s.effPrio l < s.effPrio m)
      && ((tget s.contexts u.ctx).any fun x => !x.lost && !x.killed) && (s.seats u (s.coresIn l.pid) u.keys).isSome

/-- BLOCK_ASSIGN in the strict order of effective priority. -/
def State.assignGiven (s : State) (slice : Nat) : Option State :=
  if (s.served slice).any s.resumesFirst then none else s.blockAssign slice

/-- Whether a block of a launch of higher effective priority than a saved unit's, in its partition, can be assigned now: it goes first (R353). -/
def State.assignsFirst (s : State) (u : SavedUnit) : Bool :=
  match u.blocks.head?.bind fun b => tget s.launches b.launch with
  | none => false
  | some m => (s.slicesOf m.pid).any fun k => s.sliceRuns k && (s.served k).any fun l => s.effPrio m < s.effPrio l && (l.record.coop || (s.chooseCore l).isSome)

/-- RESTORE in the strict order of effective priority. -/
def State.restoreGiven (s : State) (unit : Nat) (cores : List Nat) : Option State :=
  if (s.saved.find? fun u => u.id == unit).any s.assignsFirst then none else s.restore unit cores

/-! ### What fits, and what may go -/

/-- The state in which blocks have left their cores. -/
def State.without (s : State) (bids : List Nat) : State := s.releaseUnit bids

/-- How many stage groups of a launch fit on a core, or the twin it leads, one beside the other, up to a number. -/
def State.groupsOn (s : State) (l : Launch) (core : Nat) : Nat → Table (Nat × List CoreUse) → Nat
  | 0, _ => 0
  | n + 1, used => match s.placeNext l used core with
    | none => 0
    | some gs => 1 + s.groupsOn l core n (tput used core (0, gs.map fun g => g.2))

/-- The cores on which a launch's blocks may be put: of its partition, in service, for twin blocks the leaders, not reserved from it (R233, R355). -/
def State.openCores (s : State) (l : Launch) : List Nat :=
  ((s.slicesOf l.pid).flatMap (s.coresFor l.record)).filter fun k => (l.record.cores k).all fun j => !s.reservedFrom j l fun _ => true

/-- The key by which units are taken: the lowest effective priority, and of equal ones the most recently dispatched (R354). -/
def State.preyKey (s : State) (b : Block) : List Nat :=
  [((tget s.launches b.launch).map s.effPrio).getD 0, (s.slice ((b.side 0).core / 32)).clk - b.dispatchedAt]

/-- A block put in its place in a list that stands in the order of its keys. -/
def State.insertPrey (s : State) (b : Block) : List Block → List Block
  | [] => [b]
  | x :: xs => if keysBefore (s.preyKey b) (s.preyKey x) then b :: x :: xs else x :: s.insertPrey b xs

/-- The units of lower effective priority than a launch's that stand on cores, in the order in which they are taken (R354). -/
def State.prey (s : State) (l : Launch) (cores : List Nat) : List FreezeUnit :=
  let bs := (s.blocks.filter fun p => p.2.onCore && p.2.freezable && (p.2.sides.any fun sd => cores.contains sd.core)
    && (((tget s.launches p.2.launch).map s.effPrio).getD 0) < s.effPrio l).map fun p => p.2
  ((bs.foldl (fun t b => s.insertPrey b t) []).map s.unitOf).eraseDups

/-- The blocks of a unit by number. -/
def State.unitIds (s : State) (u : FreezeUnit) : List Nat := (s.unitBlocks u).map fun b => b.id

/-- The fewest of a list of units, from its first on, whose leaving makes a number rise, with the state after. -/
def State.fewestGone (s : State) (room : State → Nat) : List FreezeUnit → Option (List FreezeUnit × State)
  | [] => none
  | u :: us =>
    let t := s.without (s.unitIds u)
    if room s < room t then some ([u], t) else (t.fewestGone room us).map fun r => (u :: r.1, r.2)

/-- The units that leave so that a number of stage groups fits on cores: core by core, each time where the fewest units leave, and none at all when they do not make room for
every one (R354, log 29). -/
def State.makeRoom (s : State) (l : Launch) (cores : List Nat) (need : Nat) : Nat → List FreezeUnit
  | 0 => []
  | fuel + 1 =>
    let room (t : State) (k : Nat) : Nat := t.groupsOn l k (min need 32) []
    if need ≤ (cores.map (room s)).foldl (· + ·) 0 then []
    else
      let tries := cores.filterMap fun k => s.fewestGone (fun t => room t k) (s.prey l (l.record.cores k))
      let best := tries.foldl (fun (m : Option (List FreezeUnit × State)) x => match m with
        | none => some x
        | some y => some (if x.1.length < y.1.length then x else y)) none
      match best with
      | none => []
      | some (us, t) =>
        let rest := t.makeRoom l cores need fuel
        if rest.isEmpty && (cores.map (room t)).foldl (· + ·) 0 < need then [] else us ++ rest

/-! ### Candidates (R354) -/

/-- The units that make room for a number of stage groups of a launch on some of the partition's cores, when those that are leaving already do not: a launch or unit that must
stand whole needs all of them at once, a single one is a candidate only where it fits on no core. -/
def State.roomFor (s : State) (l : Launch) (cores : List Nat) (need : Nat) : List FreezeUnit :=
  let s := s.without ((s.blocks.filter fun p => p.2.state == .frozen).map fun p => p.1)
  if need = 1 && (s.openCores l).any fun k => 0 < s.groupsOn l k 1 [] then [] else s.makeRoom l cores need (s.blocks.length + 1)

/-- The units that a launch's candidates have frozen: its block at the head of a block queue, makes room on that core; a saved unit, on any; a cooperative launch not yet
dispatched, on as many as it needs. -/
def State.displaces (s : State) (l : Launch) : List FreezeUnit :=
  let open' := s.openCores l
  let queued := open'.filter fun k => (((s.core k).blockQueue.head?.bind (tget s.blocks)).map fun b : Block => b.launch) == some l.id
  let saved := s.saved.filter fun u => u.blocks.any fun b => b.launch == l.id && !b.template
  let whole := if l.record.coop && l.unassigned && !s.unitHeld l.id then s.roomFor l open' l.record.grid else []
  whole ++ (queued.flatMap fun k => s.roomFor l [k] 1) ++ saved.flatMap fun u => s.roomFor l open' u.keys.length

/-- Whether a candidate of the unit's partition may have it frozen. -/
def State.displaced (s : State) (u : FreezeUnit) : Bool := s.launches.any fun p => (s.displaces p.2).contains u

/-- Whether a unit has a block on a core that has failed (R407). -/
def State.onFailed (s : State) (u : FreezeUnit) : Bool :=
  (s.unitBlocks u).any fun b => b.sides.any fun sd => (s.core sd.core).failed

/-- Whether a unit may be signalled now: it is displaced, it stands on a failed core, or it is what a context has on a slice, which is frozen when the slice is vacated, when the
firmware is activated and when the context is moved (R354, R407, R440, R443). The expiry of a quantum is an event of its own. -/
def State.freezeDue (s : State) (u : FreezeUnit) : Bool :=
  match u with
  | .contextOnSlice _ _ => true
  | u => s.displaced u || s.onFailed u

/-- FREEZE_SIGNAL as the scheduler gives it. -/
def State.freezeGiven (s : State) (u : FreezeUnit) : Option State := if s.freezeDue u then s.freezeSignal u else none

end Sys2Proof.Machine
end

