-- ==== Sys2Proof/Machine/Shadow.lean ====
section
/-! DEFINITION. The comparison of a lead with its shadow: agreement, the SHADOW trap, and the retry of a block (R463-R467). -/

namespace Sys2Proof.Machine

/-- The lowest lane of a mask. -/
def lowLane (m : DWord) : Nat := ((List.range 64).find? fun l => m.getLsbD l).getD 0

/-- Whether a word is an engine or tile operation, whose operands and descriptor bytes are compared as such (R465 DETAIL 5); of the other crew-uniform words the operands are data. -/
def comparesDescriptor (i : Instr) : Bool :=
  match i with
  | .csrw _ _ _ => false
  | .csrs _ _ _ => false
  | .csrc _ _ _ => false
  | .launch _ _ _ _ => false
  | .lndInit _ _ _ _ => false
  | .lndExpectIn _ _ _ _ => false
  | .lndExpectOut _ _ _ _ => false
  | .lndArrive _ _ _ _ => false
  | _ => true

/-- Whether a word's first scalar operand is the address that it updates. -/
def scalarAddress (i : Instr) : Bool :=
  match i with
  | .lndInit _ _ _ _ => true
  | .lndExpectIn _ _ _ _ => true
  | .lndExpectOut _ _ _ _ => true
  | .lndArrive _ _ _ _ => true
  | _ => false

/-- In which terms a held word names its addresses: vault words and references to a landing in vault, or offsets. -/
def leadSpace (i : Instr) (a : DWord) : RecAddr :=
  match i with
  | .ld _ _ _ p _ _ _ _ => if p = 1 then .guest else .plain
  | .st _ _ _ p _ _ _ _ => if p = 1 then .guest else .plain
  | .atom _ _ _ p _ _ _ _ => if p = 1 then .guest else .plain
  | _ => if scalarAddress i && a.getLsbD 0 then .guest else .plain

/-- A disagreement: the lead's word, DETAIL, the lowest lane that disagreed, and the lead's address where DETAIL has one. -/
structure Mismatch where
  word : HeldWord
  detail : Nat
  lane : Nat
  addr : Option DWord := none
  deriving DecidableEq, Repr

/-- Whether two values differ, in their bits or in their tag. -/
def RegVal.differs (v w : RegVal) : Bool := v.bits != w.bits || v.tag != w.tag

/-- The lanes of a word in which address or data differ, ascending, each with whether the address does (R465). -/
def HeldWord.laneDiffs (a b : HeldWord) : List (Nat × Bool) :=
  a.data.filterMap fun x =>
    let addr := tget a.addrs x.1 != tget b.addrs x.1
    let y := (tget b.data x.1).getD []
    if addr || x.2.length != y.length || (x.2.zip y).any fun p => p.1.differs p.2 then some (x.1, addr) else none

/-- The first difference between a word of a lead and its shadow's: the word or its position, the lane mask, the lowest lane whose address or data differ, an operand or the
descriptor (R464, R465). -/
def compareWord (a b : HeldWord) : Option Mismatch :=
  let i := instrOf a.word
  let low := lowLane a.mask
  let differ (n : Nat) : Bool := ((a.operands.zip b.operands).take n).any fun p => p.1.differs p.2
  let first : DWord := (a.operands.head?.map fun v : RegVal => v.toAddress).getD 0
  if a.word ≠ b.word || a.packet ≠ b.packet || a.wpos ≠ b.wpos then some { word := a, detail := 3, lane := low }
  else if a.mask ≠ b.mask then some { word := a, detail := 4, lane := lowLane (a.mask ^^^ b.mask) }
  else match a.laneDiffs b with
    | (l, addr) :: _ => some { word := a, detail := if addr then 1 else 2, lane := l, addr := some ((tget a.addrs l).getD 0) }
    | [] =>
      if !differ a.operands.length && (a.descr == b.descr || !comparesDescriptor i) then none
      else if comparesDescriptor i then some { word := a, detail := 5, lane := low }
      else if scalarAddress i then some { word := a, detail := if differ 1 then 1 else 2, lane := low, addr := some first }
      else some { word := a, detail := 2, lane := low }

/-- The first difference between what a lead holds and its shadow's chain group: of the words in turn, or in their number (R464, R465). -/
def compareHeld (a b : List HeldWord) : Option Mismatch :=
  ((a.zip b).findSome? fun p => compareWord p.1 p.2).orElse fun _ =>
    if a.length = b.length then none else a.head?.map fun h => { word := h, detail := 3, lane := lowLane h.mask }

/-- What a lead holds is dropped. -/
def State.dropHeld (s : State) (lead : Nat) (granted : Bool) : State :=
  s.modCrew lead fun w => { w with shadow := w.shadow.map fun p : ShadowPart => { p with held := none, granted := granted } }

/-- A side as a fresh dispatch has it (R207, R228). -/
def Side.scrubbed (r : Record) (sd : Side) : Side :=
  { core := sd.core, half0 := sd.half0, pool := r.budget, shapes := List.replicate r.tiles 0 }

/-- A block begun again from cargo staging: its crews, commands and berths are gone, its resources scrubbed (R466); a template crew's begins again as such. -/
def State.retryBlock (s : State) (b : Block) : State :=
  let r := s.recordOf b.launch
  let cs := s.crewsOf b.id
  let cids := cs.map fun c => c.id
  let home (h : LandHome) : Bool := match h with
    | .spad k _ _ => k == b.id
    | .vault _ => false
  let s := (s.removeCrews cs).clearBerths b.id
  let s := { s with
    cores := s.cores.map fun e : Nat × Core => (e.1, { e.2 with ferry := e.2.ferry.filter fun f => !cids.contains f.2.crew })
    landUpds := s.landUpds.filter fun u : LandUpd => !home u.home }
  let s := s.modLaunch b.launch fun l => { l with blockImages := tdel l.blockImages b.id, phase := if b.template then .ready else l.phase }
  s.modBlock b.id fun b => { b with
    sides := b.sides.map (if b.template then fun sd => { core := sd.core, half0 := sd.half0 } else Side.scrubbed r), state := .staging, halted := false, brk := false, retried := true, released := false }

/-- A mismatch: its record, and either the retry of the block or the SHADOW trap of the lead, at its chain group (R465, R466). -/
def State.mismatch (s : State) (c : Crew) (b : Block) (h : HeldChain) (m : Mismatch) : State :=
  let r := s.recordOf c.launch
  let retry := r.retry && !b.retried && !b.released
  let info := trapDetail m.word.word m.detail m.lane
  let l := tget s.launches c.launch
  let s := s.report [s.pidOf c.launch] {
    type := 5, retried := retry, aval := m.addr.isSome, slice := c.core / 32, core := c.core % 32, ctx := s.ctxOfLaunch c.launch
    launch := (l.map fun l : Launch => l.lid).getD 0, addr := m.addr.getD 0, info := info } (leadSpace (instrOf m.word.word) (m.addr.getD 0))
  if retry then s.retryBlock b
  else
    let s := s.dropHeld c.id false
    let owed : Deferred := { cause := .shadow, addr := m.addr, info := info, guest := leadSpace (instrOf m.word.word) (m.addr.getD 0) == .guest }
    match c.groups.find? fun g => g.lanes &&& h.lanes != 0 && g.wait == some .shadow with
    | some g => if c.handler.isSome then s.owe c.id owed else s.raiseTrap c.id g.id (c.deferredAt g owed)
    | none => s.owe c.id owed

/-- A lead with what it holds, its block and its shadow. -/
def State.leadHeld (s : State) (cid : Nat) : Option (Crew × Block × HeldChain × Crew) :=
  match tget s.crews cid with
  | none => none
  | some c => match c.shadow, tget s.blocks c.block with
    | some p, some b =>
      if p.isShadow || c.frozen || b.state != .running then none
      else p.held.bind fun h => (tget s.crews p.partner).map fun d => (c, b, h, d)
    | _, _ => none

/-- What a shadow that has taken every step of its lead would release next in the group whose chain group the lead holds, once its registers have their values (R464). -/
def State.shadowReached (s : State) (c d : Crew) (h : HeldChain) : Option (List HeldWord) :=
  if ((s.follower d).map fun p : ShadowPart => p.trail.isEmpty) != some true then none
  else match d.groups.find? fun g => g.lanes &&& h.lanes != 0 && g.final.isSome && !g.atEnd with
    | none => none
    | some g => match (s.groupWord d g).bind fun w => s.ctxOf { core := d.core, half := d.half, stream := 0 } d.id g.id w with
      | none => none
      | some x =>
        let words := x.chainWords 2 (instrOf x.word)
        if words.any fun y => y.2.unready y.1 then none
        else some (((words.filter fun y => releasing y.1).zipIdx).map fun y =>
          s.heldWord y.1.1 y.1.2 c (((h.words[y.2]?).map fun k : HeldWord => k.data).getD []))

/-- SHADOW_COMPARE: what the lead holds is compared with what its shadow would release; agreement releases it (R464, R465). -/
def State.shadowCompare (s : State) (cid : Nat) : Option State :=
  match s.leadHeld cid with
  | none => none
  | some (c, b, h, d) => match s.shadowReached c d h with
    | none => none
    | some k => match compareHeld h.words k with
      | none => some (s.dropHeld c.id true)
      | some m => some (s.mismatch c b h m)

/-- The mismatch of a shadow that is late (R465). -/
def HeldChain.late (h : HeldChain) : Mismatch :=
  let w := h.words.headD { word := 0, packet := 0, wpos := 0, mask := 0 }
  { word := w, detail := 6, lane := lowLane w.mask }

/-- SHADOW_TIMEOUT: the shadow has not reached its matching word 2^24 cycles after the lead's (R465). -/
def State.shadowTimeout (s : State) (cid : Nat) : Option State :=
  match s.leadHeld cid with
  | none => none
  | some (c, b, h, d) =>
    if (s.shadowReached c d h).isSome || (s.core c.core).clk < h.since + 2 ^ 24 then none
    else some (s.mismatch c b h h.late)

end Sys2Proof.Machine
end

