-- ==== Sys2Proof/Machine/PreemptEvents.lean ====
section
/-! DEFINITION. The meanings of the events of pre-emption, contexts and shadow mode (R302, R380, R382, R387, R394, R398, R402, R403, R407, R443, R464, R465). -/

namespace Sys2Proof.Machine

/-- FREEZE_SIGNAL (R354, R382). -/
def execFreezeSignal (u : FreezeUnit) (s : State) : Host.Outcome State Fault Refusal := enabledEvent (s.freezeGiven u)

/-- CAPTURE (R382). -/
def execCapture (unit : Nat) (s : State) : Host.Outcome State Fault Refusal := enabledEvent (s.capture unit)

/-- CONTEXT_SAVE (R402). -/
def execContextSave (unit : Nat) (s : State) : Host.Outcome State Fault Refusal := enabledEvent (s.contextSave unit)

/-- BLOCK_ASSIGN (R353, R356). -/
def execBlockAssign (slice : Nat) (s : State) : Host.Outcome State Fault Refusal := enabledEvent (s.assignGiven slice)

/-- RESTORE (R353, R403, R404). -/
def execRestore (unit : Nat) (cores : List Nat) (s : State) : Host.Outcome State Fault Refusal := enabledEvent (s.restoreGiven unit cores)

/-- MANIFEST_REPLAY_STEP (R394). -/
def execManifestReplayStep (crew : Nat) (s : State) : Host.Outcome State Fault Refusal := enabledEvent (s.replayStep crew)

/-- WATCHDOG (R407). -/
def execWatchdog (core : Nat) (s : State) : Host.Outcome State Fault Refusal := enabledEvent (s.watchdog core)

/-- SHADOW_COMPARE (R464). -/
def execShadowCompare (crew : Nat) (s : State) : Host.Outcome State Fault Refusal := enabledEvent (s.shadowCompare crew)

/-- SHADOW_TIMEOUT (R465). -/
def execShadowTimeout (crew : Nat) (s : State) : Host.Outcome State Fault Refusal := enabledEvent (s.shadowTimeout crew)

/-- SACT_KILL_BLOCK (R380). -/
def execSactKillBlock (crew : Nat) (s : State) : Host.Outcome State Fault Refusal := enabledEvent (s.sactKillBlock crew)

/-- SACT_KILL_CONTEXT (R380). -/
def execSactKillContext (crew : Nat) (s : State) : Host.Outcome State Fault Refusal := enabledEvent (s.sactKillContext crew)

/-- CONTEXT_CREATE (R398). -/
def execContextCreate (ctx pid node : Nat) (area : DWord) (s : State) : Host.Outcome State Fault Refusal := enabledEvent (s.contextCreate ctx pid node area)

/-- CONTEXT_DESTROY (R387). -/
def execContextDestroy (ctx : Nat) (s : State) : Host.Outcome State Fault Refusal := enabledEvent (s.contextDestroy ctx)

/-- ROSTER_ESTABLISH (R302). -/
def execRosterEstablish (ctx own : Nat) (ranks : List RosterEntry) (s : State) : Host.Outcome State Fault Refusal := enabledEvent (s.rosterEstablish ctx own ranks)

/-- MIGRATION_CUT (R443). -/
def execMigrationCut (ctx : Nat) (s : State) : Host.Outcome State Fault Refusal := enabledEvent (s.migrationCut ctx)

end Sys2Proof.Machine
end

