-- ==== Sys2Proof/Machine/Windows.lean ====
section
/-! DEFINITION. What host cores and PCIe functions do from outside: the slice windows and their registers (R4, R358, R409, R418, R436, R453, R457, R473), accesses to memory through the firewall (R422, R430, R462), and interrupt sources (R435, R487). -/

namespace Sys2Proof.Machine

/-! ### Partition info (R433, R436) -/

/-- The slices that ITAB may name, and how many entries each holds. -/
def entriesOf (itab : List Nat) (slice : Nat) : Nat := (itab.filter fun k => k == slice).length

/-- The size of the space of an ITAB in 16 MB blocks: Floor(1,032,192 / e_max) (R433). -/
def sgBlocks (itab : List Nat) : Nat := 1032192 / ((List.range 16).map (entriesOf itab)).foldl max 1

/-- PINFO (R436). -/
def State.pinfo (s : State) (slice : Nat) : Nat :=
  let pid := (s.slice slice).fwPid
  match tget s.partitions pid with
  | none => pid
  | some p =>
    pid + ((s.slicesOf pid).map fun k => 2 ^ (16 + k)).foldl (· + ·) 0 + p.sg / 2 ^ 24 % 2 ^ 16 * 2 ^ 32 + p.rseq % 256 * 2 ^ 48

/-! ### Window reads (R4, R436) -/

/-- A mailbox's status doubleword (R473). -/
def Mailbox.status (m : Mailbox) : Nat := (!m.queue.isEmpty).toNat + m.last % 256 * 2 + m.bootStep % 128 * 512

/-- A privileged register of a core as the window shows it: %shandler is the core's own value, %ctxgen is read, every other number reads zero (R436). -/
def Core.windowReg (c : Core) (n : Nat) : Nat :=
  if n = 0x801 then c.shandler.toNat % 2 ^ 56 else if n = 0x802 then c.ctxgen.toNat else 0

/-- The doubleword at an offset of a slice's window; what is write-only, reserved or absent reads zero (R4, R358, R409, R418, R436, R453, R457, R473). -/
def State.windowRead (s : State) (slice off : Nat) : Nat :=
  let x := s.slice slice
  let p : Partition := (tget s.partitions x.fwPid).getD { pid := 0, itab := [], sg := 0 }
  if 0x100 ≤ off && off < 0x1C0 then x.quantum.getD ((off - 0x100) / 8) 0
  else if 0x8000 ≤ off && off < 0x10000 then
    (s.core (slice * 32 + (off - 0x8000) / 0x400)).windowReg (0x800 + (off - 0x8000) % 0x400 / 8)
  else match off with
    | 0x1C0 => x.balance
    | 0x200 => x.fqBase.toNat
    | 0x208 => x.fqLog2n
    | 0x210 => x.fqProd.toNat
    | 0x218 => x.fqCons.toNat
    | 0x300 => x.pwTarget
    | 0x308 => x.pwBusy.toNat
    | 0x400 => s.pinfo slice
    | 0x500 => x.link.reg500
    | 0x508 => x.link.reg508
    | 0x600 => p.vqBase.toNat
    | 0x608 => p.vqLog2n
    | 0x610 => p.vqProd.toNat
    | 0x618 => p.vqCons.toNat
    | 0x620 => p.vqLost
    | 0x628 => x.cecnt
    | 0x700 => p.mailbox.addr.toNat
    | 0x708 => p.mailbox.code
    | 0x718 => p.mailbox.status
    | _ => 0

/-! ### Window writes -/

/-- PWAYS_WRITE: the new count; a lower one is in force when the released ways are sealed, and PWBUSY is 1 until then (R418). -/
def State.pwaysWrite (s : State) (slice : Nat) (v : DWord) : State :=
  let n := min (v.toNat % 16) 8
  s.modSlice slice fun x =>
    if n < x.pways then { x with pwTarget := n, pwBusy := true } else { x with pwTarget := n, pways := n, pwBusy := false }

/-- PWAYS_CHANGE_COMPLETE: the released ways are sealed and written back (R418). Lines may leave protected ways at any time, so all of the slice's do. A sector
stands sealed from its fill on, so what is written back is its sealed form (R420). -/
def State.pwaysDone (s : State) (slice : Nat) : Option State :=
  if !(s.slice slice).pwBusy then none
  else
    let s := s.modPartition (s.slice slice).fwPid fun p => { p with gm := p.gm.settleSectors fun k => (tget p.gm.sealed k).isSome }
    some (s.modSlice slice fun x => { x with pways := x.pwTarget, pwBusy := false, plines := [] })

/-- The command codes of a partition's mailbox and of the owner's (R474). -/
def mailboxCodes (owner : Bool) : List Nat := if owner then [0x01, 0x02, 0x03, 0x04, 0x05, 0x06] else [0x10, 0x11, 0x12]

/-- The command that executes in a mailbox ends with a status, and the next one that was rung executes (R473). -/
def Mailbox.finish (m : Mailbox) (status : Nat) : Mailbox := { m with queue := m.queue.drop 1, last := status % 256 }

/-- A write to MB_DOOR with bit 0 set: the command executes when those rung before it have ended (R473). -/
def Mailbox.ring (m : Mailbox) : Mailbox := { m with queue := m.queue ++ [(m.code, m.addr)] }

/-- Whether a command with a code is the one that executes in a mailbox. -/
def Mailbox.executes (m : Mailbox) (code : Nat) : Bool := (m.queue.head?.map fun x => x.1) == some code

/-- Where the command that executes lies: MB_ADDR of its doorbell, whose low four bits name nothing (R473). -/
def Mailbox.command (m : Mailbox) : Nat := ((m.queue.head?.map fun x : Nat × DWord => x.2).getD 0).toNat / 16 * 16

/-- Whether the owner's mailbox executes a command with a code. -/
def State.ownerRung (s : State) (code : Nat) : Bool := s.harbour.mailbox.executes code

/-- Whether a partition's mailbox executes a command with a code. -/
def State.mailRung (s : State) (pid code : Nat) : Bool := ((tget s.partitions pid).map fun p : Partition => p.mailbox.executes code).getD false

/-- A doubleword written at an offset of a slice's window where the register has no behaviour of its own (R4); a read-only, reserved or absent one ignores it. -/
def State.registerWrite (s : State) (slice off : Nat) (v : DWord) : State :=
  let pid := (s.slice slice).fwPid
  let low : Word := v.truncate 32
  if 0x100 ≤ off && off < 0x1C0 && off % 8 = 0 then
    s.modSlice slice fun x => { x with quantum := x.quantum.set ((off - 0x100) / 8) (max low.toNat 0x10000) }
  else if 0x8000 ≤ off && off < 0x10000 then
    (if (off - 0x8000) % 0x400 = 8 then s.modCore (slice * 32 + (off - 0x8000) / 0x400) fun c => { c with shandler := v &&& 0x00FFFFFFFFFFFFFF#64 } else s)
  else match off with
    | 0x1C0 => s.modSlice slice fun x => { x with balance := v.toNat % 16 }
    | 0x200 => s.modSlice slice fun x => { x with fqBase := v }
    | 0x208 => s.modSlice slice fun x => { x with fqLog2n := v.toNat % 16 }
    | 0x218 =>
      let s := s.modSlice slice fun x => { x with fqCons := low }
      if (s.slice slice).fqProd = low then s else s.raiseSource pid slice 0
    | 0x600 => s.modPartition pid fun p => { p with vqBase := v }
    | 0x608 => s.modPartition pid fun p => { p with vqLog2n := v.toNat % 16 }
    | 0x618 => s.modPartition pid fun p => { p with vqCons := low }
    | 0x620 => s.modPartition pid fun p => { p with vqLost := p.vqLost &&& (0xFFFFFFFF ^^^ low.toNat) }
    | 0x628 => s.modSlice slice fun x => { x with cecnt := x.cecnt &&& (0xFFFFFFFF ^^^ low.toNat) }
    | 0x700 => s.modPartition pid fun p => { p with mailbox := { p.mailbox with addr := v } }
    | 0x708 => s.modPartition pid fun p => { p with mailbox := { p.mailbox with code := v.toNat % 256 } }
    | _ => s

/-- A doubleword written at an offset of a slice's window, with the behaviour of every register (R340, R350, R409, R418, R473). -/
def State.windowWrite (s : State) (slice off : Nat) (v : DWord) : State :=
  match off with
  | 0x000 => (s.schedQdesc slice v).getD s
  | 0x008 => (s.schedQstop slice v).getD s
  | 0x220 => if v.getLsbD 16 then s.resolveStop slice (v.toNat % 65536) else s.resolveGo slice (v.toNat % 65536)
  | 0x300 => s.pwaysWrite slice v
  | 0x710 => if v.getLsbD 0 then s.modPartition (s.slice slice).fwPid fun p => { p with mailbox := p.mailbox.ring } else s
  | _ => s.registerWrite slice off v

/-- What a write of part of a doubleword leaves of the rest: the register's value, or nothing where a 1 would act (R4). -/
def State.windowKeep (s : State) (slice off : Nat) : Nat :=
  if off = 0x620 || off = 0x628 then 0 else s.windowRead slice off

/-- Bytes written at an offset of a block of registers, doubleword by doubleword: what a part leaves of each, and how each is written (R4). -/
def State.registerBytes (s : State) (keep : State → Nat → Nat) (put : State → Nat → DWord → State) (off : Nat) (bs : List Byte) : State :=
  let first := off / 8
  let n := (off % 8 + bs.length + 7) / 8
  (List.range n).foldl (fun (s : State) i =>
    let d := 8 * (first + i)
    let old := bytesOfNat 8 (keep s d)
    let new := (List.range 8).map fun k => if off ≤ d + k && d + k < off + bs.length then bs.getD (d + k - off) 0 else old.getD k 0
    put s d (BitVec.ofNat 64 (natOfBytes new))) s

/-- Bytes written into a window. -/
def State.windowBytes (s : State) (slice off : Nat) (bs : List Byte) : State :=
  s.registerBytes (fun s d => s.windowKeep slice d) (fun s d v => s.windowWrite slice d v) off bs

/-! ### The owner's mailbox (R473) -/

/-- The doubleword at an offset of the owner's mailbox; what is write-only or absent reads zero (R4, R473). -/
def State.ownerRead (s : State) (off : Nat) : Nat :=
  match off with
  | 0x00 => s.harbour.mailbox.addr.toNat
  | 0x08 => s.harbour.mailbox.code
  | 0x18 => s.harbour.mailbox.status
  | _ => 0

/-- The owner's mailbox changed. -/
def State.modOwner (s : State) (f : Mailbox → Mailbox) : State := { s with harbour := { s.harbour with mailbox := f s.harbour.mailbox } }

/-- A doubleword written at an offset of the owner's mailbox (R473). -/
def State.ownerWrite (s : State) (off : Nat) (v : DWord) : State :=
  match off with
  | 0x00 => s.modOwner fun m => { m with addr := v }
  | 0x08 => s.modOwner fun m => { m with code := v.toNat % 256 }
  | 0x10 => if v.getLsbD 0 then s.modOwner Mailbox.ring else s
  | _ => s

/-- The 16 bytes of the owner's command that executes, in its own memory (R473, log 47). -/
def State.ownerCmd (s : State) : BitVec 128 := BitVec.ofNat 128 (natOfBytes (readBytes s.harbour.ownerMem s.harbour.mailbox.command 16))

/-- The 16 bytes of a partition's command that executes, in the partition's memory (R473). -/
def State.mailCmd (s : State) (pid : Nat) : List Byte := s.readGlobal pid (((tget s.partitions pid).map fun p : Partition => p.mailbox.command).getD 0) 16

/-- Bytes read from the owner's mailbox. -/
def State.ownerRange (s : State) (off n : Nat) : List Byte :=
  (List.range n).map fun i => BitVec.ofNat 8 (s.ownerRead ((off + i) / 8 * 8) / 2 ^ (8 * ((off + i) % 8)))

/-- Bytes read from a window. -/
def State.windowRange (s : State) (slice off n : Nat) : List Byte :=
  (List.range n).map fun i => BitVec.ofNat 8 (s.windowRead slice ((off + i) / 8 * 8) / 2 ^ (8 * ((off + i) % 8)))

/-! ### Global memory from outside (R422, R430, R460-R462) -/

/-- The granules of 64 KB that a range touches (R432). -/
def homeGranules (a n : Nat) : List Nat := if n = 0 then [] else (List.range ((a + n - 1) / 65536 - a / 65536 + 1)).map fun i => (a / 65536 + i) * 65536

/-- The first slice whose firewall refuses a transaction on a range of a partition's global space. -/
def State.globalRefused (s : State) (src pid a n : Nat) : Option Nat :=
  ((homeGranules a n).map (s.homeSlice pid)).find? fun h => !s.firewallOk src h pid

/-- The lines of a sealed sector of a partition leave the protected ways, sealed, and reach the memory-side cache before anyone else reaches it (R419). -/
def State.expelLine (s : State) (pid k : Nat) : State :=
  let s := s.modPartition pid fun p => if (tget p.gm.sealed k).isNone then p else { p with gm := p.gm.settleSectors (· == k) }
  { s with slices := s.slices.map fun p => (p.1, if p.2.fwPid = pid then { p.2 with plines := p.2.plines.filter fun x => x.1 != k } else p.2) }

/-- One sector read from outside: its errors are detected and reported; at the PCIe exit its check is verified too (R460, R462). Whether it leaves poisoned. -/
def State.outsideSector (s : State) (pid k : Nat) (pcie : Bool) : Bool × State :=
  let s := s.expelLine pid k
  match tget s.partitions pid with
  | none => (false, s)
  | some p =>
    let home := s.homeSlice pid (256 * k)
    let found := p.gm.uncorr.contains k
    let bad := (p.gm.badAt k none).filter fun b => b.1 = 1 || pcie
    let s := (s.modPartition pid fun p => { p with gm := p.gm.detect k }).correctSector pid k
    let s := match bad with
      | some b => if b.1 = 1 && !found then s else s.report [pid] { type := b.1, aval := true, slice := home, addr := BitVec.ofNat 64 (256 * k), info := b.2 } .global
      | none => s
    (bad.isSome, s)

/-- The sectors of a range read from outside. -/
def State.outsideSectors (s : State) (pid : Nat) (pcie : Bool) : List Nat → Bool × State
  | [] => (false, s)
  | k :: ks =>
    let r := s.outsideSector pid k pcie
    let t := r.2.outsideSectors pid pcie ks
    (r.1 || t.1, t.2)

/-- The bytes of a range as an outside agent sees them: a sealed sector as its ciphertext (R422); for a PCIe function, which lies beyond partition scope, what the
memory-side caches hold (R335). -/
def GlobalMem.outside (g : GlobalMem) (pcie : Bool) (a n : Nat) : List Byte :=
  (List.range n).map fun i =>
    let k := (a + i) / 256
    ((if pcie then g.outer k else g).view k none).getD ((a + i) % 256) 0

/-- The parts of a write within single sectors. -/
def sectorParts (a : Nat) (bs : List Byte) : List (Nat × List Byte) :=
  (sectorsOf a bs.length).map fun k =>
    let lo := max a (256 * k)
    let hi := min (a + bs.length) (256 * k + 256)
    (lo, (bs.drop (lo - a)).take (hi - lo))

/-- A write of an outside agent into a partition's global memory; from a TLP with EP set its sectors are poisoned (R422, R462). -/
def State.outsideWrite (s : State) (pid a : Nat) (bs : List Byte) (ep : Bool) : State :=
  let s := (sectorsOf a bs.length).foldl (fun s k => s.expelLine pid k) s
  s.modPartition pid fun p =>
    let g := (sectorParts a bs).foldl (fun (g : GlobalMem) w => g.outsideWrite w.1 w.2) p.gm
    { p with gm := if ep then g.markPoison a bs.length else g }

/-! ### Accesses (R335, R422, R430, R479) -/

/-- Whether a package-wide vault range meets a vault window of a live handle of the partition (R422). -/
def State.vaultWindowed (s : State) (pid pa n : Nat) : Bool :=
  let pages := (((tget s.partitions pid).map fun p : Partition => p.pages).getD []).filter fun g => g.vault
  s.harbour.handles.any fun h => h.2.live && h.2.pid == pid && h.2.vwin.any fun w => pages.any fun g =>
    let lo := max w.1 g.va
    let hi := min (w.1 + w.2) (g.va + g.size)
    lo < hi && rangesMeet (g.pa + (lo - g.va)) (hi - lo) pa n

/-- What an access came to: nothing (an access fault), or the bytes, and whether they are poisoned. -/
def State.answer (s : State) (bs : Option (List Byte)) (ep : Bool) : State := { s with hostAnswer := bs, hostEp := ep }

/-- In which terms an access names its address. -/
def accessSpace : HostTarget → RecAddr
  | .global _ => .global
  | .vault _ _ => .vault
  | .window _ _ => .plain
  | .owner _ => .plain
  | .frame _ _ _ => .plain
  | .blockSpad _ _ _ _ => .plain
  | .sbi _ _ => .plain
  | .imsic _ => .plain
  | .ownerMem _ => .plain

/-- An access refused by a slice's firewall (R430). -/
def State.refuseHost (s : State) (q : HostReq) (target a : Nat) : State := (s.firewallRecord q.srcSlice target q.pid (BitVec.ofNat 64 a) (accessSpace q.target)).answer none false

/-- Whether an agent is a PCIe function. -/
def agentIsPcie : HostAgent → Bool
  | .pcie _ _ => true
  | .hart _ => false

/-- The slice that an access reaches first. -/
def State.accessSlice (s : State) (q : HostReq) : Nat :=
  match q.target with
  | .global a => s.homeSlice q.pid a
  | .vault core _ => core / 32
  | .window slice _ => slice
  | .owner _ => 0
  | .frame _ crew _ => ((tget s.crews crew).map fun c : Crew => c.core / 32).getD 0
  | .sbi hart _ => hart / 8
  | .imsic hart => hart / 8
  | .ownerMem _ => 0
  | .blockSpad _ block side _ => ((tget s.blocks block).map fun b : Block => (b.side side).core / 32).getD 0

/-- The address that a refusal's record names. -/
def targetAddr : HostTarget → Nat
  | .global a => a
  | .vault core off => core * 2 ^ 23 + off
  | .window slice off => 0x7F0000000000 + 65536 * slice + off
  | .owner off => off
  | .frame _ _ off => off
  | .blockSpad _ _ _ off => off
  | .sbi hart _ => hart
  | .imsic hart => hart
  | .ownerMem a => a

/-- An access to global memory; outside the partition's space nothing answers. -/
def State.accessGlobal (s : State) (q : HostReq) (a : Nat) (ep : Bool) : State :=
  let n := (q.data.map List.length).getD q.len
  match s.globalRefused q.srcSlice q.pid a n with
  | some t => s.refuseHost q t a
  | none =>
    if (homeGranules a n).any fun g => !s.sliceRuns (s.homeSlice q.pid g) then s.answer none false
    else if ((tget s.partitions q.pid).map fun p : Partition => p.sg).getD 0 < a + n then s.answer none false
    else match q.data with
      | some bs => (s.outsideWrite q.pid a bs ep).answer (some []) false
      | none =>
        let r := s.outsideSectors q.pid (agentIsPcie q.agent) (sectorsOf a n)
        r.2.answer ((tget r.2.partitions q.pid).map fun p : Partition => p.gm.outside (agentIsPcie q.agent) a n) r.1

/-- The sectors of a vault range that a PCIe read finds failing their checks, each with a record (R290, R462). -/
def State.vaultChecks (s : State) (q : HostReq) (core pa n : Nat) : Bool × State :=
  (sectorsOf pa n).foldl (fun (x : Bool × State) k => match x.2.vault.badAt (256 * k) 256 with
    | some b => (true, x.2.report [q.pid] { type := b.1, aval := true, slice := core / 32, core := core % 32, addr := BitVec.ofNat 64 (256 * k), info := b.2 } .vault)
    | none => x) (false, s)

/-- A write from outside into a vault: an inbound PCIe write computes the checks of the sectors that it brings whole, and with EP set its granules come poisoned (R201, R462). -/
def Store.inbound (st : Store) (pcie : Bool) (pa : Nat) (bs : List Byte) (ep : Bool) : Store :=
  let v := st.write pa bs
  let v := if pcie then ((sectorsOf pa bs.length).filter fun k => pa ≤ 256 * k && 256 * k + 256 ≤ pa + bs.length).foldl Store.setCheck v else v
  if ep then v.markPoison (granulesOf pa bs.length) else v

/-- An access to a vault; a world's window reads zero and discards a write, with a record (R422). -/
def State.accessVault (s : State) (q : HostReq) (core off : Nat) (ep : Bool) : State :=
  let n := (q.data.map List.length).getD q.len
  let pa := core * 2 ^ 23 + off
  if !s.firewallOk q.srcSlice (core / 32) q.pid then s.refuseHost q (core / 32) pa
  else if 2 ^ 23 < off + n || 512 ≤ core || !s.sliceRuns (core / 32) then s.answer none false
  else if s.vaultWindowed q.pid pa n then
    (s.refusalRecord q.srcSlice (core / 32) q.pid (BitVec.ofNat 64 pa) .vault).answer (some (if q.data.isSome then [] else List.replicate n 0)) false
  else match q.data with
    | some bs => ({ s with vault := s.vault.inbound (agentIsPcie q.agent) pa bs ep } : State).answer (some []) false
    | none =>
      let s := s.detect core q.pid 0 (.vault pa) n
      let r := if agentIsPcie q.agent then s.vaultChecks q core pa n else (false, s)
      r.2.answer (some (r.2.vault.bytes pa n)) (r.2.vault.poisoned pa n || r.1)

/-- An access to a slice window (R436). -/
def State.accessWindow (s : State) (q : HostReq) (slice off : Nat) : State :=
  let n := (q.data.map List.length).getD q.len
  if !s.firewallOk q.srcSlice slice q.pid then s.refuseHost q slice (targetAddr q.target)
  else if 65536 < off + n || 16 ≤ slice || !s.sliceRuns slice then s.answer none false
  else match q.data with
    | some bs => (s.windowBytes slice off bs).answer (some []) false
    | none => s.answer (some (s.windowRange slice off n)) false

/-- An access to the owner's mailbox: it is in BAR0 of physical function 0 of PCIe port 0, and nobody else reaches it (R473). The spec ties no port to a slice, and the model
lets port 0's accesses carry source slice 0 only: a DESIGN CHOICE (log 47). -/
def State.accessOwner (s : State) (q : HostReq) (off : Nat) : State :=
  let n := (q.data.map List.length).getD q.len
  if q.agent != .pcie 0 0 || q.srcSlice != 0 || 32 < off + n then s.answer none false
  else match q.data with
    | some bs => (s.registerBytes State.ownerRead State.ownerWrite off bs).answer (some []) false
    | none => s.answer (some (s.ownerRange off n)) false

/-- The system owner's access to its own memory, in which the commands of its mailbox lie: no slice and no firewall stands before it (R473, R474, log 47). -/
def State.accessOwnerMem (s : State) (q : HostReq) (a : Nat) : State :=
  if q.agent != .pcie 0 0 then s.answer none false
  else match q.data with
    | some bs => ({ s with harbour := { s.harbour with ownerMem := writeBytes s.harbour.ownerMem a bs } } : State).answer (some []) false
    | none => s.answer (some (readBytes s.harbour.ownerMem a q.len)) false

/-! ### The debug function (R482) -/

/-- Whether a tenant has a partition's runtime, or its attached host: a living session of theirs is that tenant's (R482, log 55). -/
def State.runtimeOf (s : State) (pid tenant : Nat) : Bool := s.harbour.sessions.any fun y => y.pid == pid && y.role != .tenantSession && y.tenant == tenant

/-- Whether an unlocked debug function sees a block: the runtime of its context, or the handle of its launch, belongs to the session's tenant (R482). -/
def State.debugSees (s : State) (port : Nat) (b : Block) : Bool :=
  s.harbour.unlocks.any fun u => u.1 == port && s.harbour.sessions.any fun x => x.id == u.2 && match tget s.launches b.launch with
    | none => false
    | some l => if l.record.key = 0 then s.runtimeOf l.pid x.tenant else x.pid == l.pid && ((s.handle? l.record.key).map fun k : KeyHandle => k.tenant) == some x.tenant

/-- Whether an agent is the debug function of a port: its physical function 1 (R482). -/
def debugAgent (q : HostReq) (port : Nat) : Bool := q.agent == .pcie port 1

/-- Whether a crew serves BRK in a supervisor handler, which hands its block over (R374, R482). -/
def Crew.servesBrk (c : Crew) : Bool := (c.handler.map fun h : Serving => h.supervisor && h.info.cause == .brk).getD false

/-- An access by the debug function to the trap frame of a crew of a block that was handed over on BRK (R370, R482, log 55). -/
def State.accessFrame (s : State) (q : HostReq) (port crew off : Nat) : State :=
  let n := (q.data.map List.length).getD q.len
  match (tget s.crews crew).bind fun c => (tget s.blocks c.block).map fun b => (c, b) with
  | none => s.answer none false
  | some (c, b) =>
    if !debugAgent q port || !b.brk || !s.debugSees port b || !c.servesBrk || frameSize c.width < off + n then s.answer none false
    else match q.data with
      | none => s.answer (some (((s.readFrame c).drop off).take n)) false
      | some bs =>
        let f := s.readFrame c
        match s.writeFrame c (f.take off ++ bs ++ f.drop (off + n)) with
        | none => s.answer none false
        | some s => s.answer (some []) false

/-- An access by the debug function to the scratchpad of a block that was handed over on BRK (R482, log 55). -/
def State.accessBlockSpad (s : State) (q : HostReq) (port block side off : Nat) : State :=
  let n := (q.data.map List.length).getD q.len
  match tget s.blocks block with
  | none => s.answer none false
  | some b =>
    if !debugAgent q port || !b.brk || !s.debugSees port b || b.sides.length ≤ side || off < b.ts || b.spadSize < off + n then s.answer none false
    else match q.data with
      | none => s.answer (some (s.placeBytes (b.side side).core (.spad block side off) n)) false
      | some bs => (s.spadWrite block side off bs).answer (some []) false

/-- An SBI call: a host core of the partition is stopped or started (R438, log 47). -/
def State.accessSbi (s : State) (q : HostReq) (hart : Nat) (runs : Bool) : State :=
  if agentIsPcie q.agent || !(s.slicesOf q.pid).contains (hart / 8) then s.answer none false
  else
    let change (l : List Nat) : List Nat := if runs then (ninsert l (hart % 8)) else (ndrop l (· == hart % 8))
    (s.modSlice (hart / 8) fun x => { x with harts := change x.harts }).answer (some []) false

/-- A host core claims the lowest identity pending at its own interrupt file, which clears it there (R435, log 47). -/
def State.accessImsic (s : State) (q : HostReq) (hart : Nat) : State :=
  if q.agent != .hart hart || !s.sliceRuns (hart / 8) || !(s.slicesOf q.pid).contains (hart / 8) then s.answer none false
  else
    let ids := (tget (s.slice (hart / 8)).imsic (hart % 8)).getD []
    (s.modSlice (hart / 8) fun x => { x with imsic := tput x.imsic (hart % 8) (ids.drop 1) }).answer (some (bytesOfNat 8 (ids.headD 0))) false

/-- The host cores of a partition released at its reset vector: PORTMODE is no longer valid (R474, R476 step 6). -/
def State.release (s : State) (pid : Nat) : State :=
  let s := s.modPartition pid fun p => { p with booting := false }
  (s.slicesOf pid).foldl (fun (s : State) k => s.modSlice k fun x => { x with harts := List.range 8 }) s

/-- The host cores of a partition whose owner still chose port modes are released when the first of them acts (log 47). -/
def State.releaseHarts (s : State) (pid : Nat) : State :=
  if ((tget s.partitions pid).map fun p : Partition => p.booting).getD false then s.release pid else s

/-- Whether an access goes to the owner's mailbox or to the debug function, which belong to no partition's interface. -/
def ownerTarget (q : HostReq) : Bool :=
  match q.target with
  | .owner _ => true
  | .frame _ _ _ => true
  | .blockSpad _ _ _ _ => true
  | .ownerMem _ => true
  | _ => false

/-- Whether a partition attached to an external host lets a PCIe function's request through: its interface is in RUN with an IDE stream, and the request comes through the
virtual function of the slice that it names as its source (R431, R479, log 47). -/
def Partition.lets (p : Partition) (q : HostReq) : Bool :=
  match q.agent with
  | .hart _ => true
  | .pcie _ fn => !p.attached || (p.tdisp == .run && p.ide.isSome && fn == 2 + q.srcSlice)

/-- Whether a request comes from a host core whose slice has halted or been gated (R484, R485). -/
def State.hartStands (s : State) (q : HostReq) : Bool :=
  match q.agent with
  | .hart h => !s.sliceRuns (h / 8)
  | .pcie _ _ => false

/-- An access from outside the cores: an interface that is not in RUN lets none of the external host's through (R479), the firewall decides (R430), and the access is performed. -/
def State.hostAccess (s : State) (q : HostReq) (ep : Bool) : State :=
  let s := if (agentIsPcie q.agent) then s else s.releaseHarts q.pid
  if s.hartStands q then s.answer none false
  else if !ownerTarget q && (s.partition? q.pid).any fun p => !p.lets q then s.refuseHost q (s.accessSlice q) (targetAddr q.target)
  else match q.target with
    | .global a => s.accessGlobal q a ep
    | .vault core off => s.accessVault q core off ep
    | .window slice off => s.accessWindow q slice off
    | .owner off => s.accessOwner q off
    | .sbi hart runs => s.accessSbi q hart runs
    | .imsic hart => s.accessImsic q hart
    | .ownerMem a => s.accessOwnerMem q a
    | .frame port crew off => s.accessFrame q port crew off
    | .blockSpad port block side off => s.accessBlockSpad q port block side off

/-- INTERRUPT_SOURCE_ENABLE: the OS sets a source's target hart in its partition, its identity and its enable bit; one that is pending is delivered once when it is enabled (R435, R487). -/
def State.enableSource (s : State) (pid : Nat) (src : SourceSetting) : Option State :=
  if !(s.slicesOf pid).contains (sourceSlice src.src) || (tget (s.slice (sourceSlice src.src)).sources src.src).isNone || !(s.slicesOf pid).contains (src.target / 8) then none
  else
    let x := s.source src.src
    let now := src.enable && x.pending
    let s := s.putSource src.src { pending := x.pending && !now, enabled := src.enable, target := src.target, identity := src.identity }
    some (if now then s.deliver src.target src.identity else s)

end Sys2Proof.Machine
end

