-- ==== Sys2Proof/Machine/Resize.lean ====
section
/-! DEFINITION. Partitions fused and resized: ITAB and Sg (R433, R434), interrupt sources at fusing and moving (R435, R487), measurements (R477), and the MOVE command (R437-R442, R486). -/

namespace Sys2Proof.Machine

/-! ### Interleave tables (R433, R434) -/

/-- The ITAB of a partition when it is first fused: the slices in ascending order, one after another (R433). -/
def freshItab (slices : List Nat) : List Nat := (List.range 256).map fun e => slices.getD (e % max 1 slices.length) 0

/-- The slice of a list that holds the fewest entries, the lowest id first on a tie. -/
def fewestEntries (itab : List Nat) : List Nat → Nat
  | [] => 0
  | [k] => k
  | k :: ks =>
    let m := fewestEntries itab ks
    if entriesOf itab k < entriesOf itab m || (entriesOf itab k = entriesOf itab m && k < m) then k else m

/-- The slice of a list that holds the most entries, the lowest id first on a tie. -/
def mostEntries (itab : List Nat) : List Nat → Nat
  | [] => 0
  | [k] => k
  | k :: ks =>
    let m := mostEntries itab ks
    if entriesOf itab m < entriesOf itab k || (entriesOf itab k = entriesOf itab m && k < m) then k else m

/-- A slice leaves: each of its entries, in ascending order, passes to the remaining slice with the fewest (R434). -/
def leaveItab (itab : List Nat) (slice : Nat) (rest : List Nat) : List Nat :=
  (List.range itab.length).foldl (fun (t : List Nat) e => if t.getD e 0 = slice then t.set e (fewestEntries t rest) else t) itab

/-- One entry taken for a joining slice: the highest-numbered one of the slice that holds the most (R434). -/
def takeEntry (slice : Nat) (others : List Nat) (itab : List Nat) : List Nat :=
  let m := mostEntries itab others
  match (List.range itab.length).reverse.find? fun e => itab.getD e 0 == m with
  | none => itab
  | some e => itab.set e slice

/-- A slice joins a partition with the given other slices: it takes Floor(256 / n) entries (R434). -/
def joinItab (itab : List Nat) (slice : Nat) (others : List Nat) : List Nat :=
  (List.range (256 / (others.length + 1))).foldl (fun t _ => takeEntry slice others t) itab

/-- The size of a partition's space in bytes (R433). -/
def sgOf (itab : List Nat) : Nat := sgBlocks itab * 2 ^ 24

/-! ### Connection (R428) -/

/-- Whether two slices of the 4 × 4 grid are neighbours. -/
def adjacent (a b : Nat) : Bool :=
  (a / 4 = b / 4 && (a % 4 + 1 = b % 4 || b % 4 + 1 = a % 4)) || (a % 4 = b % 4 && (a / 4 + 1 = b / 4 || b / 4 + 1 = a / 4))

/-- The slices of a set that a part of it reaches. -/
def reachOf (set : List Nat) : Nat → List Nat → List Nat
  | 0, r => r
  | n + 1, r => reachOf set n (set.filter fun k => r.contains k || r.any (adjacent k))

/-- Whether a set of slices is connected (R428). -/
def connected (set : List Nat) : Bool := set.isEmpty || (reachOf set 16 (set.take 1)).length = set.length

/-! ### Sources and measurements -/

/-- The lowest-numbered host core of a set of slices. -/
def bootHart (slices : List Nat) : Nat := 8 * slices.foldl min 15

/-- The retained measurement blocks 4 and 5 of a partition brought up to date: slice set, port modes, PWAYS and ITAB; the unlocking tenant (R477). -/
def State.remeasure (s : State) (pid : Nat) : State :=
  let ks := s.slicesOf pid
  let tenant := s.harbour.unlocks.findSome? fun u => (s.harbour.sessions.find? fun x => x.id == u.2 && x.pid == pid).map fun x => x.tenant
  s.modPartition pid fun p => { p with
    meas4 := ks ++ (ks.map fun k => (s.portLink k).mode) ++ (ks.map fun k => (s.slice k).pways) ++ p.itab, meas5 := tenant }

/-! ### The checks of a MOVE (R437, R438) -/

/-- A resize command (R437). -/
structure ResizeCmd where
  op : Nat
  slice : Nat
  src : Nat
  dst : Nat
  flags : Nat
  reserved : Nat
  deriving DecidableEq, Repr

/-- The fields of a resize command. -/
def resizeCmd (cmd : BitVec 128) : ResizeCmd :=
  let v := cmd.toNat
  { op := bitsAt v 0 8, slice := bitsAt v 8 8, src := bitsAt v 16 8, dst := bitsAt v 24 8, flags := bitsAt v 32 8, reserved := bitsAt v 40 24 }

/-- The interleave table of a partition. -/
def State.itabOf (s : State) (pid : Nat) : List Nat := ((tget s.partitions pid).map fun p : Partition => p.itab).getD []

/-- The slices that stay in FROM. -/
def State.restOf (s : State) (c : ResizeCmd) : List Nat := (s.slicesOf c.src).filter fun k => k != c.slice

/-- Order 1: whether a command is invalid (R438). -/
def State.resizeInvalid (s : State) (c : ResizeCmd) : Bool :=
  c.op ≠ 1 || c.reserved ≠ 0 || 2 ≤ c.flags || 16 ≤ c.slice || 16 ≤ c.src || 16 ≤ c.dst || (s.slice c.slice).fwPid ≠ c.src || c.src = c.dst
    || (c.dst ≠ 0 && (tget s.partitions c.dst).isNone) || (c.src ≠ 0 && (s.restOf c).isEmpty)
    || !connected (s.restOf c) || (c.dst ≠ 0 && !connected (c.slice :: s.slicesOf c.dst))

/-- The cooperative launches that are resident in a partition; one that is parked in the save area is not (R438, R441). -/
def State.residentCoop (s : State) (pid : Nat) : List Launch :=
  (s.launches.filter fun p => p.2.pid == pid && p.2.record.coop && (s.blocksOf p.1).any fun b => b.resident).map fun p => p.2

/-- The refusal of a MOVE: STATUS and detail (R438). -/
def State.resizeRefusal (s : State) (c : ResizeCmd) : Option (Nat × Nat) :=
  if s.resizeInvalid c then some (4, 0)
  else match (s.slice c.slice).harts.head? with
    | some h => some (3, 8 * c.slice + h)
    | none =>
      let itab := leaveItab (s.itabOf c.src) c.slice (s.restOf c)
      let mapped := (((tget s.partitions c.src).map fun p : Partition => p.pages).getD []).any fun g => !g.vault && sgOf itab < g.pa + g.size
      if c.src ≠ 0 && mapped then some (2, sgBlocks itab)
      else
        let left := s.modSlice c.slice fun x => { x with fwPid := 0 }
        if c.src = 0 || c.flags % 2 = 1 then none
        else (((s.residentCoop c.src).find? fun l => !left.coopFits c.src l.record).map fun l => (1, l.lid.toNat))

/-! ### The MOVE (R440, R442, R486, R487) -/

/-- The blocks of a slice's block queues that no core has been given go back to the unassigned blocks of their launches (R486). -/
def State.unassign (s : State) (slice : Nat) : State :=
  let queued := (s.cores.filter fun e => e.1 / 32 == slice).flatMap fun e => e.2.blockQueue
  let bs := queued.filterMap (tget s.blocks)
  let back (lid : Nat) : List Nat := ((bs.filter fun b => b.launch == lid).map fun b => b.beta).eraseDups
  let s : State := { s with
    blocks := s.blocks.filter fun p => !queued.contains p.1
    stageGroups := s.stageGroups.filter fun g => !g.2.blocks.any queued.contains
    cores := s.cores.map fun e => (e.1, if e.1 / 32 = slice then { e.2 with blockQueue := [] } else e.2)
    launches := s.launches.map fun p => (p.1, { p.2 with back := (back p.1).foldl ninsert p.2.back }) }
  s.dropCopies

/-- The vault of a leaving slice destroyed; it is zero when the slice joins (R239, R439). What was translated to it before is refused by its firewall when it comes (R430). -/
def State.destroyVault (s : State) (slice : Nat) : State := { s with vault := s.vault.zeroRange (slice * 2 ^ 28) (2 ^ 28) }

/-- Filter entries put with those that a filter has, each ticket and lane once. -/
def joinFilter (a b : List FilterEnt) : List FilterEnt := a ++ b.filter fun e => !a.any fun x => x.ticket == e.ticket && x.lane == e.lane

/-- The filters of granules that move go with them: those of one slice's L2, memory-side cache and collective endpoint are known at others (R387, R442, log 48). -/
def State.shareFilters (s : State) (src : Nat) (dst : List Nat) : State :=
  let x := s.slice src
  dst.foldl (fun (s : State) k => s.modSlice k fun y => { y with
    l2Filter := joinFilter y.l2Filter x.l2Filter, mscFilter := joinFilter y.mscFilter x.mscFilter, collFilter := joinFilter y.collFilter x.collFilter }) s

/-- A partition under a new interleave table: what an L2 holds of a granule whose home changes is written back first (R433, R440). -/
def Partition.reinterleave (p : Partition) (itab : List Nat) : Partition :=
  let moved (k : Nat) : Bool := let e := fold8 (256 * k / 65536); itab.getD e 0 != p.itab.getD e 0
  { p with itab := itab, sg := sgOf itab, gm := p.gm.settleSectors moved }

/-- Step 2: the interleave tables change; the granules keep their bytes and metadata under their partition's addresses (R440). -/
def State.migrate (s : State) (c : ResizeCmd) : State :=
  let rest := s.restOf c
  let others := s.slicesOf c.dst
  let s := s.shareFilters c.slice rest
  let s := s.modSlice c.slice fun x => { x with l2Filter := [], mscFilter := [], vaultFilter := [], collFilter := [], plines := [] }
  let s := others.foldl (fun (s : State) k => s.shareFilters k [c.slice]) s
  let s := s.modPartition c.src fun p => p.reinterleave (leaveItab p.itab c.slice rest)
  s.modPartition c.dst fun p => p.reinterleave (joinItab p.itab c.slice others)

/-- Step 4: every slice of both partitions learns who owns which slice (R429, R440). -/
def State.reprogram (s : State) (c : ResizeCmd) : State :=
  let s := (s.modSlice c.slice fun x => { x with fwPid := c.dst, harts := [] }).endTransfers c.slice
  let tab := (List.range 16).map fun k => (s.slice k).fwPid
  ((c.slice :: s.slicesOf c.src ++ s.slicesOf c.dst).eraseDups).foldl (fun (s : State) k => s.modSlice k fun x => { x with fwTab := tab }) s

/-- A source as it enters a partition's domain: disabled, aimed at the lowest-numbered host core under its own number (R435, R487). -/
def freshSource (slices : List Nat) (n : Nat) (pending : Bool) : IntSource := { pending := pending, target := bootHart slices, identity := n }

/-- An interrupt that is pending at a leaving host core's file sent again: a moved source holds it pending until TO enables it, any other one of FROM goes to FROM's lowest-numbered
host core (R440, R487). -/
def State.resend (s : State) (c : ResizeCmd) (hart identity : Nat) : State :=
  match ((s.slice c.slice).sources.filter fun x => x.2.target == hart && x.2.identity == identity).head? with
  | some x => s.putSource x.1 { x.2 with pending := true }
  | none => if c.src = 0 then s else s.deliver (bootHart (s.restOf c)) identity

/-- Step 4: the slice's sources pass to TO's domain, disabled and pending as they were; sources of FROM that went to a leaving host core go to its lowest one, and what was pending
at the leaving cores' files is sent again (R440, R487). -/
def State.moveSources (s : State) (c : ResizeCmd) : State :=
  let s := ((s.slice c.slice).imsic.flatMap fun h => h.2.map fun id => (8 * c.slice + h.1, id)).foldl (fun (s : State) x => s.resend c x.1 x.2) s
  let s := s.modSlice c.slice fun x => { x with
    imsic := [], sources := (sourcesOf c.slice).foldl (fun t n => tput t n (freshSource (c.slice :: s.slicesOf c.dst) n (s.source n).pending)) [] }
  (s.restOf c).foldl (fun (s : State) k => s.modSlice k fun x => { x with
    sources := x.sources.map fun y => (y.1, if y.2.target / 8 = c.slice then { y.2 with target := bootHart (s.restOf c) } else y.2) }) s

/-- Step 4: the queues and launches of FROM whose home was the slice go to its lowest remaining slice, and DBELL is rewritten (R486). -/
def State.rehome (s : State) (c : ResizeCmd) : State :=
  let home := (s.slicesOf c.src).foldl min 15
  let moved := s.queues.filter fun q => q.home == c.slice && q.pid == c.src && !q.stopped
  let s := moved.foldl (fun (s : State) q => s.writeGlobal q.pid (q.desc.toNat + 24) (bytesOfNat 8 (Config.doorbell home q.pid q.qnum).toNat)) s
  let shift : Int := ((s.slice c.slice).clk : Int) - (s.slice home).clk
  { s with
    queues := s.queues.map fun q : Queue => if q.home = c.slice && q.pid = c.src && !q.stopped then { q with
      home := home, dbell := Config.doorbell home q.pid q.qnum, oldBells := q.oldBells ++ [(c.slice, q.dbell)] } else q
    launches := s.launches.map fun p => (p.1, if p.2.home = c.slice && p.2.pid = c.src then { p.2 with
      home := home, clkShift := p.2.clkShift + shift } else p.2) }

/-- Step 5: RSEQ rises and the partition-change sources of a partition fire (R440). -/
def State.changed (s : State) (pid : Nat) : State :=
  let s := (s.modPartition pid fun p => { p with rseq := (p.rseq + 1) % 256 }).remeasure pid
  (s.slicesOf pid).foldl (fun (s : State) k => s.raiseSource pid k 2) s

/-- The owner's mailbox when a command has ended: RESULT stands in its bytes 15:8 (R437, R469, R473, R483). -/
def State.ownerDone (s : State) (status detail : Nat) : State :=
  let v : Nat := status % 256 + detail * 2 ^ 32
  let h := s.harbour
  { s with harbour := { h with
      mailbox := { h.mailbox.finish status with result := BitVec.ofNat 64 v }
      ownerMem := writeBytes h.ownerMem (h.mailbox.command + 8) (bytesOfNat 8 v) } }

/-- The owner's mailbox when a command without a RESULT has ended (R473, R474). -/
def State.ownerEnd (s : State) (status : Nat) : State := s.modOwner fun m => m.finish status

/-- Whether a block stands on a slice. -/
def State.sliceOccupied (s : State) (slice : Nat) : Bool := s.blocks.any fun p => p.2.sides.any fun sd => sd.core / 32 == slice

/-- The interleave tables of FROM and of TO as step 2 makes them. -/
def State.newItabs (s : State) (c : ResizeCmd) : List (Nat × List Nat) :=
  [(c.src, leaveItab (s.itabOf c.src) c.slice (s.restOf c)), (c.dst, joinItab (s.itabOf c.dst) c.slice (s.slicesOf c.dst))]

/-- Whether a near-memory command that has begun stands on a granule whose home the MOVE changes: step 2 waits for it (R440). -/
def State.nmcOn (s : State) (c : ResizeCmd) : Bool :=
  s.cores.any fun e => e.2.ferry.any fun f =>
    f.2.op == .nmc && !f.2.done && f.2.prog != 0 && match s.engPlace f.2 (s.launchOf f.2.crew) (.virt none (s.pidOf (s.launchOf f.2.crew)) (BitVec.ofNat 64 (nmcDesc f.2.desc).granule)) 1 false with
      | .ok (.glob p pa _) => (s.newItabs c).any fun t => t.1 == p && t.2.getD (fold8 (pa / 65536)) 0 != s.homeSlice p pa
      | _ => false

/-- Steps 2 to 5 of a MOVE, its slice vacated (R440, R486, R487). -/
def State.moveOn (s : State) (c : ResizeCmd) : State :=
  let s := ((s.migrate c).destroyVault c.slice).reprogram c
  let s := (s.moveSources c).rehome c
  (({ s with harbour := { s.harbour with moving := none } }.changed c.src).changed c.dst).ownerDone 0 0

/-- RESIZE_MOVE: a command that is refused ends at once; one that passes its checks begins to vacate the slice, to which no block is dispatched from then on and whose queued blocks
become unassigned; once every unit with crews on the slice is saved it goes through its other steps (R438-R442, R486, R487). -/
def State.resizeMove (s : State) (cmd : BitVec 128) : Option State :=
  let c := resizeCmd cmd
  if s.harbour.moving = some cmd then (if s.sliceOccupied c.slice || s.nmcOn c then none else some (s.moveOn c))
  else match s.resizeRefusal c with
    | some r => some (s.ownerDone r.1 r.2)
    | none => some ((({ s with harbour := { s.harbour with moving := some cmd } } : State).unassign c.slice))

end Sys2Proof.Machine
end

