-- ==== Sys2Proof/Machine/Trust.lean ====
section
/-! DEFINITION. The Harbourmaster: boot (R476, R481), keys (R411-R413, R475), ports (R445), firmware (R480), sessions, measurements and the debug function (R477-R479, R482), power (R483, R484), trips (R444, R485), and the memory's patrol and tests (R458, R460, R461, R469-R472). -/

namespace Sys2Proof.Machine

/-! ### Mailboxes (R473, R474) -/

/-- A partition's mailbox when a command has ended (R473). -/
def State.mailDone (s : State) (pid status : Nat) (result : Nat := 0) : State :=
  s.modPartition pid fun p => { p with mailbox := { p.mailbox.finish status with result := BitVec.ofNat 64 result } }

/-- Whether the Harbourmaster executes the owner's command now: boot has completed, a command with that code was rung and is the next one (R473, R476), and
its 16 bytes are these, or were when its first step was taken. -/
def State.ownerTakes (s : State) (code : Nat) (cmd : BitVec 128) : Bool :=
  s.harbour.booted && s.ownerRung code && (s.ownerCmd == cmd || s.harbour.moving == some cmd || (s.harbour.emptying.map fun e => e.1) == some cmd)

/-- Whether the Harbourmaster executes a partition's command now: one with that code is the next of its mailbox, and no firmware is being activated (R473, R480). -/
def State.mailTakes (s : State) (pid code : Nat) : Bool := s.harbour.booted && s.mailRung pid code && !(s.harbour.emptying.any fun e => s.ownerRung 0x06 && e.1 == 0)

/-- The bytes of a partition's command hold a number in a field (R474, log 47). -/
def State.mailField (s : State) (pid off n v : Nat) : Bool := leAt (s.mailCmd pid) off n == v

/-- A partition's command that executes with a condition on its bytes; one that lies outside the partition's space is invalid (R432, R473). -/
def State.mailRun (s : State) (pid code : Nat) (fields : Bool) (o : Option State) : Option State :=
  if !s.mailTakes pid code then none
  else if !s.inGlobal pid (((tget s.partitions pid).map fun p : Partition => p.mailbox.command).getD 0) 16 then some (s.mailDone pid 4)
  else if fields then o else none

/-- MAILBOX_INVALID_CODE: a code that is not valid in the mailbox completes with LAST = 4 and has no effect (R474). -/
def State.invalidCode (s : State) (owner : Bool) (pid code : Nat) : Option State :=
  if (mailboxCodes owner).contains code then none
  else if owner then (if s.harbour.booted && s.ownerRung code then some (s.modOwner fun m => m.finish 4) else none)
  else if s.mailRung pid code then some (s.mailDone pid 4)
  else none

/-! ### Boot (R433, R435, R476, R481) -/


/-- A partition first fused (R433, R476 step 5). -/
def fusedPartition (c : FusePart) : Partition :=
  let itab := freshItab c.slices
  { pid := c.pid, itab := itab, sg := sgOf itab, attached := c.attached, booting := true, vector := c.vector }

/-- The partitions of the configuration block, with the slices that trained; one of which none trained is not fused. -/
def flashParts (f : Flash) (untrained : List Nat) : List FusePart :=
  (f.config.map fun c : FusePart => { c with slices := (List.range 16).filter fun k => c.slices.contains k && !untrained.contains k }).filter fun c => !c.slices.isEmpty

/-- Whether the configuration block's partitions can be fused with the slices that trained: ids from 1 to 15, each once; each slice in one partition at most; and each
set connected (R428, log 54). -/
def flashFuses (f : Flash) (untrained : List Nat) : Bool :=
  let ids := f.config.map fun c : FusePart => c.pid
  let all := f.config.flatMap fun c : FusePart => c.slices
  ids.all (fun k => 1 ≤ k && k ≤ 15) && ids.eraseDups.length == ids.length && all.all (· < 16) && all.eraseDups.length == all.length
    && (flashParts f untrained).all fun c => connected c.slices

/-- Whether step 1 accepts the root image: both signatures verify, and its version is at least the fused one (R481). -/
def flashAccepted (f : Flash) (fuse : BitVec 16) : Bool := f.prafelOk && f.ownerOk && fuse.toNat ≤ f.version.toNat

/-- The step at which a boot fails, 0 for none: the root image's signatures and version are step 1, and a configuration that cannot be fused is step 5. -/
def bootFailStep (f : Flash) (fuse : BitVec 16) (t : BootTrial) : Nat :=
  if !flashAccepted f fuse then 1
  else if 1 ≤ t.failStep && t.failStep < 5 then t.failStep
  else if !flashFuses f t.untrained then 5
  else if t.failStep ≤ 6 then t.failStep else 0

/-- A slice after boot, in the partition that holds it or in none; its sources stand as R435 starts them, and its port is in Ethernet mode (R435, R476 step 5). -/
def fusedSlice (ps : List FusePart) (k : Nat) : Slice :=
  let owner (k : Nat) : Nat := (ps.findSome? fun c => if c.slices.contains k then some c.pid else none).getD 0
  let mates := ((ps.find? fun c => c.slices.contains k).map fun c => c.slices).getD []
  { fwPid := owner k, fwTab := if owner k = 0 then List.replicate 16 0 else (List.range 16).map owner, link := { mode := 1 }
    sources := if owner k = 0 then [] else (sourcesOf k).map fun n => (n, freshSource mates n false) }

/-- COLD_RESET: the Harbourmaster's boot (R476): every store starts anew, the partitions are fused, and their host cores are released at the reset vector, those last whose owner still chooses port
modes (log 47); a failing step stops it and holds every host core in reset. The boot that accepts the image raises the fused version (R481). -/
def State.coldReset (s : State) (t : BootTrial) : State :=
  let f := t.staged.getD s.harbour.flash
  let step := bootFailStep f s.harbour.fuse t
  let fuse := if flashAccepted f s.harbour.fuse then f.version else s.harbour.fuse
  let bare : State := { agenda := s.agenda, nextId := s.nextId, freeCtr := s.freeCtr, harbour := { flash := f, fuse := fuse, ownerMem := s.harbour.ownerMem } }
  if step ≠ 0 then { bare with harbour := { bare.harbour with mailbox := { bootStep := step } } }
  else
    let ps := flashParts f t.untrained
    let s : State := { bare with
      partitions := ps.foldl (fun t c => tput t c.pid (fusedPartition c)) []
      slices := (List.range 16).map fun k => (k, fusedSlice ps k)
      harbour := { bare.harbour with
        saveKeys := ps.foldl (fun t c => tput t c.pid (Config.saveKey c.pid)) []
        booted := true, firmware := f.image
        meas1 := Config.rom, meas2 := (f.image, f.version), meas3 := f.image, measConfig := f.config } }
    let s := (ps.map fun c => c.pid).foldl State.remeasure s
    let s := ((ps.map fun c => c.pid).filter fun k => !t.held.contains k).foldl State.release s
    (t.untrained.filter fun k => k < 16).foldl (fun (s : State) k => s.report [] { type := 0x0A, slice := k, info := 3 }) s

/-! ### Keys (R411-R413, R475) -/

/-- The windows of a binding record from a byte on. -/
def bindWindows (b : List Byte) (off n : Nat) : List (Nat × Nat) :=
  ((List.range n).map fun k => (leAt b (off + 16 * k) 8, leAt b (off + 16 * k + 8) 8)).filter fun w => w.2 != 0

/-- Whether no two ranges of a list meet. -/
def apart : List (Nat × Nat) → Bool
  | [] => true
  | w :: ws => !(ws.any fun x => rangesMeet w.1 w.2 x.1 x.2) && apart ws

/-- Whether a binding record is refused (R412). -/
def State.bindBad (s : State) (pid : Nat) (b : List Byte) : Bool :=
  let all := (List.range 12).map fun k => (leAt b (8 + 16 * k) 8, leAt b (16 + 16 * k) 8)
  let g := bindWindows b 8 8
  let v := bindWindows b 136 4
  let others := (s.harbour.handles.filter fun h => h.2.live && h.2.pid == pid).flatMap fun h => h.2.gwin ++ h.2.vwin
  let pages := (((tget s.partitions pid).map fun p : Partition => p.pages).getD []).filter fun x => x.vault && (s.slice (vaultSlice x.pa)).fwPid == pid
  let covered (w : Nat × Nat) : Nat := (pages.map fun x => min (w.1 + w.2) (x.va + x.size) - max w.1 x.va).foldl (· + ·) 0
  2 ≤ leAt b 4 1 || leAt b 5 3 ≠ 0 || (b.drop 200).any (fun x => x != 0) || all.any (fun w => w.1 % 65536 != 0 || w.2 % 65536 != 0)
    || !apart (g ++ v) || (g ++ v).any (fun w => others.any fun x => rangesMeet w.1 w.2 x.1 x.2) || v.any fun w => covered w != w.2

/-- The lowest free slot of the key table (R411). -/
def State.keySlot (s : State) : Option Nat :=
  ((List.range 4095).map (· + 1)).find? fun k => !((tget s.harbour.handles k).map fun h : KeyHandle => h.live).getD false

/-- BIND: a key that came wrapped over a living session of its tenant is bound, and the handle written into the command's bytes 15:12 (R411, R412, R475). -/
def State.bindKey (s : State) (pid : Nat) (addr : DWord) (session : Nat) (wrapped : WrappedKey) : Option State :=
  match tget s.partitions pid with
  | none => none
  | some p =>
    let s := s.detectGlobal pid addr.toNat 256
    let b := s.readGlobal pid addr.toNat 256
    match (s.harbour.sessions.find? fun x => x.id == session && x.pid == pid && x.role == .tenantSession && x.tenant == wrapped.tenant && wrapped.session == session), s.keySlot with
    | some x, some slot =>
      if addr.toNat % 64 ≠ 0 || !s.inGlobal pid addr.toNat 256 || s.bindBad pid b then some (s.mailDone pid 4)
      else
        let gen := ((tget s.harbour.handles slot).map fun h : KeyHandle => h.gen).getD 0
        let k : KeyHandle := {
          gen := gen, live := true, ctx := leAt b 0 4, pid := pid, scrubV := leAt b 4 1 % 2 == 1, key := wrapped.key, tenant := x.tenant
          gwin := bindWindows b 8 8, vwin := bindWindows b 136 4 }
        let h := handleWord slot k
        let s := { s with harbour := { s.harbour with handles := tput s.harbour.handles slot k } }
        some ((s.writeGlobal pid (p.mailbox.command + 12) (bytesOfNat 4 h.toNat)).mailDone pid 0 h.toNat)
    | _, _ => some (s.mailDone pid 5)

/-- RELEASE: a handle is released, at once or when the last launch that uses it has completed (R413). -/
def State.releaseKey (s : State) (pid : Nat) (handle : Word) : Option State :=
  if (tget s.partitions pid).isNone then none
  else match (s.handle? handle).filter fun k => k.pid == pid with
    | none => some (s.mailDone pid 4)
    | some k =>
      let slot := handle.toNat % 4096
      let s := { s with harbour := { s.harbour with handles := tput s.harbour.handles slot { k with releaseWanted := true } } }
      some ((s.releaseDue handle).mailDone pid 0)

/-- PORTMODE: valid between the partition's boot and the release of its host cores (R445, R474). -/
def State.portMode (s : State) (pid slice mode : Nat) : Option State :=
  match tget s.partitions pid with
  | none => none
  | some p =>
    if !p.booting || !(s.slicesOf pid).contains slice || 2 ≤ mode then some (s.mailDone pid 4)
    else some (((s.modLink slice fun _ => { mode := mode }).remeasure pid).mailDone pid 0)

/-! ### Firmware (R480) -/

/-- The image that an FWSTAGE command names by address and length (R474). -/
def State.stagedImage (s : State) : List Byte := readBytes s.harbour.ownerMem (s.ownerCmd.toNat % 2 ^ 64) (s.ownerCmd.toNat / 2 ^ 64)

/-- FWSTAGE: an image is copied from the owner's memory and its signature checked; one that does not verify is denied (R480). -/
def State.fwStage (s : State) : State :=
  let image := s.stagedImage
  if Config.prafelSigned image then ({ s with harbour := { s.harbour with staged := some image } } : State).ownerEnd 0 else s.ownerEnd 5

/-- Whether a partition's units may be restored again after an activation: a new session, and the interface back in RUN (R480 step 4). -/
def State.sessionAgain (s : State) (pid : Nat) : State :=
  let has := s.harbour.sessions.any fun x => x.pid == pid && x.role != .tenantSession
  s.modPartition pid fun p => if has && (!p.attached || p.tdisp == .run) then { p with needSession := false } else p

/-- Steps 2 to 4 of FWACTIVATE, its units saved: the staged image runs, every session, unlock and IDE stream ends, and every interface is unlocked (R480). -/
def State.fwLoad (s : State) (image : List Byte) : State :=
  let s := { s with
    harbour := { s.harbour with firmware := image, meas3 := image, staged := none, sessions := [], unlocks := [], emptying := none }
    partitions := s.partitions.map fun p : Nat × Partition => (p.1, { p.2 with needSession := true, tdisp := .configUnlocked, ide := none }) }
  ((s.partitions.map fun p : Nat × Partition => p.1).foldl State.remeasure s).ownerEnd 0

/-- FWACTIVATE: from its start no block is dispatched, and every unit that is on a core is frozen and saved; then the staged image is loaded (R480). -/
def State.fwActivate (s : State) : Option State :=
  match s.harbour.staged with
  | none => some (s.ownerEnd 4)
  | some image =>
    if !s.blocks.any (fun p : Nat × Block => p.2.resident) then some (s.fwLoad image)
    else if s.harbour.emptying.isSome then none
    else some { s with harbour := { s.harbour with emptying := some (0, List.range 16) } }

/-! ### Sessions, measurements, the interface and debug (R477-R479, R482) -/

/-- SPDM_SESSION_ESTABLISH: over a session of the runtime or of the attached host the Harbourmaster programs the key of the interface's IDE stream (R475, R479, R480, R482). -/
def State.sessionStart (s : State) (session pid tenant : Nat) (role : SpdmRole) : Option State :=
  if (s.harbour.sessions.any fun x => x.id == session) || (tget s.partitions pid).isNone then none
  else
    let s := { s with harbour := { s.harbour with sessions := s.harbour.sessions ++ [({ id := session, pid := pid, tenant := tenant, role := role } : Session)] } }
    some ((s.modPartition pid fun p => if p.attached && role != .tenantSession then { p with ide := some (session, Config.ideKey session) } else p).sessionAgain pid)

/-- SPDM_SESSION_END: the debug unlock on the session ends with it (R482). -/
def State.sessionEnd (s : State) (session : Nat) : Option State :=
  match s.harbour.sessions.find? fun x => x.id == session with
  | none => none
  | some x =>
    let h := s.harbour
    some (({ s with harbour := { h with
      sessions := h.sessions.filter fun y => y.id != session, unlocks := h.unlocks.filter fun u => u.2 != session } }).remeasure x.pid)

/-- TDISP_REQUEST: lock, start and stop move the interface; a request that its state does not allow has no effect (R479). -/
def State.tdispMove (s : State) (pid : Nat) (r : TdispMove) : Option State :=
  match tget s.partitions pid with
  | none => none
  | some p =>
    if !p.attached then none
    else
      let t : TdispState := match r, p.tdisp with
        | .lock, .configUnlocked => .configLocked
        | .start, .configLocked => .run
        | .stop, _ => .configUnlocked
        | _, x => x
      some ((s.modPartition pid fun p => { p with tdisp := t }).sessionAgain pid)

/-- IDE_INTEGRITY_FAILURE: the interface goes to ERROR (R479). -/
def State.ideFailure (s : State) (pid : Nat) : Option State :=
  match tget s.partitions pid with
  | none => none
  | some p => if !p.attached then none else some (s.modPartition pid fun p => { p with tdisp := .error })

/-- MEASUREMENT_REQUEST: the retained blocks with the requester's nonce, signed with the device key, whatever the state of the partition (R477, R478). -/
def State.measure (s : State) (pid : Nat) (nonce : DWord) : State :=
  let h := s.harbour
  let p : Partition := (tget s.partitions pid).getD { pid := pid, itab := [], sg := 0 }
  let blocks : List (List Byte) := [
    h.meas1, h.meas2.1 ++ bytesOfNat 2 h.meas2.2.toNat, h.meas3, p.meas4.flatMap (bytesOfNat 2),
    (match p.meas5 with
      | none => [0]
      | some t => 1 :: bytesOfNat 4 t),
    bytesOfNat 1 p.powerFlag, bytesOfNat 8 nonce.toNat]
  { s with measAnswer := blocks ++ [Config.deviceSign blocks] }

/-- DEBUG_UNLOCK: accepted on a port over a session authenticated with a tenant's key; block 5 records it, and that an unlock which it replaces is over (R477, R482). -/
def State.unlock (s : State) (port session : Nat) : State :=
  match s.harbour.sessions.find? fun x => x.id == session && x.role == .tenantSession with
  | none => s
  | some _ =>
    let s := { s with harbour := { s.harbour with unlocks := (s.harbour.unlocks.filter fun u : Nat × Nat => u.1 != port) ++ [((port, session) : Nat × Nat)] } }
    (s.partitions.map fun p : Nat × Partition => p.1).foldl State.remeasure s

/-- DEBUG_BLOCK_RESUME: a block that a supervisor handler handed over on BRK goes on behind its BRK word (R374, R482). -/
def State.debugResume (s : State) (port bid : Nat) : Option State :=
  match tget s.blocks bid with
  | none => none
  | some b =>
    let served (c : Crew) : Bool := c.servesBrk && c.storeQ.isEmpty && !c.frozen
    if !b.brk || !s.debugSees port b then none
    else ((s.crewsOf bid).find? served).bind fun c => (c.groups.find? fun g => c.inHandler g).map fun g => s.returnFrom c.id g.id .skip

/-! ### Power and trips (R444, R483-R485) -/

/-- The slices that a POWER command's target names: a slice id, or 0x80 + a partition id (R483). -/
def State.powerTarget (s : State) (t : Nat) : Option (Option Nat × List Nat) :=
  if t < 16 then some (none, [t])
  else if 0x80 < t && t < 0x90 && (tget s.partitions (t - 0x80)).isSome then some (some (t - 0x80), s.slicesOf (t - 0x80))
  else none

/-- The power flag of a partition: gated while any of its slices is (R477). -/
def State.powered (s : State) (pid : Nat) : State :=
  let gated := (s.slicesOf pid).any fun k => (s.slice k).pstate == 3
  (s.modPartition pid fun x => { x with powerFlag := if gated then 2 else 0 }).remeasure pid

/-- POWER_PSTATE: P0, P1 or P2 for a slice or a partition; it wakes what was gated, whose saved units may then be restored, and puts a tripped slice back into
service (R483-R485). A STATE above 3 is invalid. -/
def State.powerState (s : State) (cmd : BitVec 128) : State :=
  let v := cmd.toNat
  match s.powerTarget (bitsAt v 0 8) with
  | none => s.ownerDone 4 0
  | some (_, ks) =>
    let st := bitsAt v 8 8
    if 3 ≤ st || bitsAt v 16 48 ≠ 0 then s.ownerDone 4 0
    else
      let s := ks.foldl (fun (s : State) k => s.modSlice k fun x => { x with pstate := st, tripped := false }) s
      (((ks.map fun k => (s.slice k).fwPid).eraseDups).foldl State.powered s).ownerDone 0 0

/-- POWER_GATE: a whole partition or an unassigned slice; INVALID for a partition's single slice, HARTS while a host core runs. From its start no block is dispatched to the
target, and every unit with crews there is frozen and saved; then the clocks stop (R484). -/
def State.powerGate (s : State) (cmd : BitVec 128) : Option State :=
  let v := cmd.toNat
  match s.powerTarget (bitsAt v 0 8) with
  | none => some (s.ownerDone 4 0)
  | some (pid, ks) =>
    if bitsAt v 16 48 ≠ 0 || (pid.isNone && ks.any fun k => (s.slice k).fwPid != 0) then some (s.ownerDone 4 0)
    else if ks.any fun k => !(s.slice k).harts.isEmpty then some (s.ownerDone 3 0)
    else if ks.any s.sliceOccupied then (if s.harbour.emptying.isSome then none else some { s with harbour := { s.harbour with emptying := some (cmd, ks) } })
    else
      let s := ks.foldl (fun (s : State) k => s.modSlice k fun x => { x with pstate := 3 }) { s with harbour := { s.harbour with emptying := none } }
      some ((match pid with
        | none => s
        | some p => s.powered p).ownerDone 0 0)

/-- Whether a POWER command asks for the gated state (R483). -/
def gateCommand (cmd : BitVec 128) : Bool := bitsAt cmd.toNat 8 8 == 3

/-- INFO of a TYPE 0x0A record (R456). -/
def tripCode : TripKind → Nat
  | .electrical => 1
  | .thermal => 2
  | .reset => 3
  | .dieBridge => 4

/-- The contexts that have crews or blocks on a slice. -/
def State.contextsOn (s : State) (slice : Nat) : List Nat :=
  ((s.blocks.filter fun p => p.2.resident && p.2.sides.any fun sd => sd.core / 32 == slice).map fun p => s.ctxOfLaunch p.2.launch).eraseDups

/-- SLICE_TRIP: the slice halts with its host cores, every unit with crews on it is lost with its context, a record is written, and the interface of its partition goes to ERROR (R479, R485). -/
def State.trip (s : State) (slice : Nat) (why : TripKind) : State :=
  let pid := (s.slice slice).fwPid
  let s := s.modSlice slice fun x => { x with tripped := true, harts := [] }
  let s := (s.modPartition pid Partition.ideError).report (if pid = 0 then [] else [pid]) { type := 0x0A, slice := slice, info := BitVec.ofNat 64 (tripCode why) }
  (s.contextsOn slice).foldl (fun (s : State) c => s.loseContext c none) s

/-- SLICE_TRIP, of a slice that is in service (R485). -/
def State.sliceTrip (s : State) (slice : Nat) (why : TripKind) : Option State := if 16 ≤ slice || (s.slice slice).tripped then none else some (s.trip slice why)

/-- DIE_BRIDGE_FAILURE: the slices that the bridge serves go out of service (R444). -/
def State.bridgeFailure (s : State) (slices : List Nat) : Option State :=
  let ks := (slices.filter fun k => k < 16 && !(s.slice k).tripped).eraseDups
  if ks.isEmpty then none else some (ks.foldl (fun (s : State) k => s.trip k .dieBridge) s)

/-! ### Memory (R458, R460, R461, R469-R472) -/

/-- PATROL_READ: a sector is corrected and rewritten, or its error reported; what stands in a cache above HBM the base die does not see (R460, R461). -/
def State.patrol (s : State) (pid sector : Nat) : Option State :=
  match tget s.partitions pid with
  | none => none
  | some p =>
    if p.sg ≤ 256 * sector then none else some (if p.gm.errCode sector = 0 then s.detectSector pid sector else s)

/-- Where a bank begins in a stack of 64 GB with 64 pseudo-channels of 64 banks (log 49). -/
def bankBase (slice pch bank : Nat) : Nat := slice * 2 ^ 36 + (pch * 64 + bank) * 2 ^ 24

/-- HBMTEST: refused, or parking region occupied, or a test that passes and changes nothing, or one that fails and retires the bank (R469-R472). -/
def State.bankTest (s : State) (cmd : BitVec 128) (failRow : Option Nat) : State :=
  let v := cmd.toNat
  let slice := bitsAt v 0 8
  let pch := bitsAt v 8 8
  let bank := bitsAt v 16 8
  if 16 ≤ slice || 64 ≤ pch || 64 ≤ bank || 3 ≤ bitsAt v 24 8 || bitsAt v 32 32 ≠ 0 then s.ownerDone 2 0
  else
    let status := if (s.slice slice).parking then 3 else if failRow.isSome then 1 else 0
    let s := s.logRecord {
      type := 0x0F, aval := true, slice := slice, addr := BitVec.ofNat 64 (bankBase slice pch bank), info := BitVec.ofNat 64 status
      pid := (s.slice slice).fwPid }
    if (s.slice slice).parking then s.ownerDone 3 0
    else match failRow with
    | none => s.ownerDone 0 0
    | some row =>
      let s := s.modSlice slice fun x => { x with parking := true, retiredBanks := x.retiredBanks ++ [(pch, bank)] }
      (s.virtualRecord (s.slice slice).fwPid { type := 0x0F, slice := slice, info := 1 }).ownerDone 1 row

/-- LOGREAD: the physical error log, oldest first, copied to the owner's buffer (R458, R474). -/
def State.readLog (s : State) (buf : DWord) (count : Nat) : State :=
  ({ s with harbour := { s.harbour with
      ownerMem := writeBytes s.harbour.ownerMem buf.toNat ((s.harbour.log.take count).flatMap ErrRec.bytes) } } : State).ownerEnd 0

end Sys2Proof.Machine
end

