-- ==== Sys2Proof/Machine/TrustEvents.lean ====
section
/-! DEFINITION. The meanings of the events of the slice windows, of the host side, of resizing, of the Harbourmaster, of trust and of power (R4, R335, R413, R418, R440, R444, R445, R458, R461, R462, R470, R474-R480, R482, R484, R485, R487). -/

namespace Sys2Proof.Machine

/-- A command of the owner's mailbox, where it is the one that executes and its bytes are these (R473, R474). -/
def ownerCommand (code : Nat) (cmd : BitVec 128) (s : State) (o : Option State) : Host.Outcome State Fault Refusal := enabledEvent (if s.ownerTakes code cmd then o else none)

/-- PWAYS_WRITE (R418). -/
def execPwaysWrite (slice : Nat) (v : DWord) (s : State) : Host.Outcome State Fault Refusal := if slice < 16 then .next (s.pwaysWrite slice v) else .refused .notEnabled

/-- PWAYS_CHANGE_COMPLETE (R418). -/
def execPwaysChangeComplete (slice : Nat) (s : State) : Host.Outcome State Fault Refusal := enabledEvent (s.pwaysDone slice)

/-- REGISTER_WRITE (R4). -/
def execRegisterWrite (slice off : Nat) (v : DWord) (s : State) : Host.Outcome State Fault Refusal := if slice < 16 then .next (s.registerWrite slice off v) else .refused .notEnabled

/-- RESIZE_MOVE (R440, R441). -/
def execResizeMove (cmd : BitVec 128) (s : State) : Host.Outcome State Fault Refusal := ownerCommand 0x01 cmd s (s.resizeMove cmd)

/-- INTERRUPT_SOURCE_ENABLE (R435, R487). -/
def execInterruptSourceEnable (pid : Nat) (src : SourceSetting) (s : State) : Host.Outcome State Fault Refusal := enabledEvent (s.enableSource pid src)

/-- HOST_MEMORY_ACCESS (R335, R336). -/
def execHostMemoryAccess (q : HostReq) (s : State) : Host.Outcome State Fault Refusal := .next (s.hostAccess q false)

/-- PCIE_INBOUND_WRITE (R462): a write by a function of the external host, poisoned where its EP bit is set. -/
def execPcieInboundWrite (q : HostReq) (ep : Bool) (s : State) : Host.Outcome State Fault Refusal := if agentIsPcie q.agent && q.data.isSome then .next (s.hostAccess q ep) else .refused .notEnabled

/-- IDE_INTEGRITY_FAILURE (R479). -/
def execIdeIntegrityFailure (pid : Nat) (s : State) : Host.Outcome State Fault Refusal := enabledEvent (s.ideFailure pid)

/-- DIE_BRIDGE_FAILURE (R444). -/
def execDieBridgeFailure (slices : List Nat) (s : State) : Host.Outcome State Fault Refusal := enabledEvent (s.bridgeFailure slices)

/-- SLICE_TRIP (R485). -/
def execSliceTrip (slice : Nat) (why : TripKind) (s : State) : Host.Outcome State Fault Refusal := enabledEvent (s.sliceTrip slice why)

/-- PATROL_READ (R461). -/
def execPatrolRead (pid sector : Nat) (s : State) : Host.Outcome State Fault Refusal := enabledEvent (s.patrol pid sector)

/-- HBMTEST (R470, R471). -/
def execHbmtest (cmd : BitVec 128) (failRow : Option Nat) (s : State) : Host.Outcome State Fault Refusal := ownerCommand 0x02 cmd s (some (s.bankTest cmd failRow))

/-- LOGREAD (R458, R474): the records are copied to the owner's buffer, which lies in the owner's own memory; the command holds the buffer's address and the count. -/
def execLogread (buf : DWord) (count : Nat) (s : State) : Host.Outcome State Fault Refusal := ownerCommand 0x03 (BitVec.ofNat 128 (buf.toNat + count * 2 ^ 64)) s (some (s.readLog buf count))

/-- POWER_PSTATE: a POWER command for a state other than gated (R483, R484). -/
def execPowerPstate (cmd : BitVec 128) (s : State) : Host.Outcome State Fault Refusal := ownerCommand 0x04 cmd s (if gateCommand cmd then none else some (s.powerState cmd))

/-- POWER_GATE: a POWER command for the gated state (R484). -/
def execPowerGate (cmd : BitVec 128) (s : State) : Host.Outcome State Fault Refusal := ownerCommand 0x04 cmd s (if gateCommand cmd then s.powerGate cmd else none)

/-- FWSTAGE: the event names the image that the command's address and length hold in the owner's memory (R480). -/
def execFwstage (image : List Byte) (s : State) : Host.Outcome State Fault Refusal :=
  ownerCommand 0x05 s.ownerCmd s (if s.stagedImage == image then some s.fwStage else none)

/-- FWACTIVATE (R480). -/
def execFwactivate (s : State) : Host.Outcome State Fault Refusal := ownerCommand 0x06 s.ownerCmd s s.fwActivate

/-- BIND: the command holds the binding record's address in bytes 7:0 and the session id in bytes 11:8 (R411, R412, R474, R475). -/
def execBind (pid : Nat) (addr : DWord) (session : Nat) (wrapped : WrappedKey) (s : State) : Host.Outcome State Fault Refusal :=
  enabledEvent (s.mailRun pid 0x10 (s.mailField pid 0 8 addr.toNat && s.mailField pid 8 4 session) (s.bindKey pid addr session wrapped))

/-- RELEASE: the command holds the handle in bytes 3:0 (R413, R474). -/
def execRelease (pid : Nat) (handle : Word) (s : State) : Host.Outcome State Fault Refusal := enabledEvent (s.mailRun pid 0x11 (s.mailField pid 0 4 handle.toNat) (s.releaseKey pid handle))

/-- PORTMODE: the command holds the slice id in byte 0 and the mode in byte 1 (R445, R474). -/
def execPortmode (pid slice mode : Nat) (s : State) : Host.Outcome State Fault Refusal :=
  enabledEvent (s.mailRun pid 0x12 (s.mailField pid 0 1 slice && s.mailField pid 1 1 mode) (s.portMode pid slice mode))

/-- COLD_RESET (R476). -/
def execColdReset (t : BootTrial) (s : State) : Host.Outcome State Fault Refusal := .next (s.coldReset t)

/-- MEASUREMENT_REQUEST (R477, R478): the answer is the same on every port. -/
def execMeasurementRequest (_port _fn pid : Nat) (nonce : DWord) (s : State) : Host.Outcome State Fault Refusal := .next (s.measure pid nonce)

/-- DEBUG_UNLOCK (R482). -/
def execDebugUnlock (port session : Nat) (s : State) : Host.Outcome State Fault Refusal := .next (s.unlock port session)

/-- SPDM_SESSION_ESTABLISH (R480). -/
def execSpdmSessionEstablish (session pid tenant : Nat) (role : SpdmRole) (s : State) : Host.Outcome State Fault Refusal := enabledEvent (s.sessionStart session pid tenant role)

/-- SPDM_SESSION_END (R482). -/
def execSpdmSessionEnd (session : Nat) (s : State) : Host.Outcome State Fault Refusal := enabledEvent (s.sessionEnd session)

/-- TDISP_REQUEST (R479). -/
def execTdispRequest (pid : Nat) (r : TdispMove) (s : State) : Host.Outcome State Fault Refusal := enabledEvent (s.tdispMove pid r)

/-- DEBUG_BLOCK_RESUME (R482). -/
def execDebugBlockResume (port block : Nat) (s : State) : Host.Outcome State Fault Refusal := enabledEvent (s.debugResume port block)

/-- MAILBOX_INVALID_CODE (R474). -/
def execMailboxInvalidCode (owner : Bool) (pid code : Nat) (s : State) : Host.Outcome State Fault Refusal := enabledEvent (s.invalidCode owner pid code)

end Sys2Proof.Machine
end

