-- ==== Sys2Proof/Machine/Dispatch.lean ====
section
/-! DEFINITION. The meaning of each constructor of Instr, one arm each. -/

namespace Sys2Proof.Machine

/-- What an instruction word or an event does to the machine. -/
def exec (i : Instr) (s : State) : Host.Outcome State Fault Refusal :=
  match i with
  | .nop c => Sys2Proof.Machine.execNop c s
  | .trl c x y z => Sys2Proof.Machine.execTrl c x y z s
  | .grd c p n k => Sys2Proof.Machine.execGrd c p n k s
  | .waitc c l sc y t => Sys2Proof.Machine.execWaitc c l sc y t s
  | .yield c => Sys2Proof.Machine.execYield c s
  | .exit c => Sys2Proof.Machine.execExit c s
  | .freeze c l => Sys2Proof.Machine.execFreeze c l s
  | .setrl c imm => Sys2Proof.Machine.execSetrl c imm s
  | .elect c p => Sys2Proof.Machine.execElect c p s
  | .br c imm => Sys2Proof.Machine.execBr c imm s
  | .brc c k a imm => Sys2Proof.Machine.execBrc c k a imm s
  | .brp c p n imm => Sys2Proof.Machine.execBrp c p n imm s
  | .call c imm => Sys2Proof.Machine.execCall c imm s
  | .jmpi c a => Sys2Proof.Machine.execJmpi c a s
  | .ret c => Sys2Proof.Machine.execRet c s
  | .jmpiL c a => Sys2Proof.Machine.execJmpiL c a s
  | .sadd c d a b => Sys2Proof.Machine.execSadd c d a b s
  | .ssub c d a b => Sys2Proof.Machine.execSsub c d a b s
  | .smul c d a b => Sys2Proof.Machine.execSmul c d a b s
  | .smulh c d a b => Sys2Proof.Machine.execSmulh c d a b s
  | .smulhn c d a b => Sys2Proof.Machine.execSmulhn c d a b s
  | .sand c d a b => Sys2Proof.Machine.execSand c d a b s
  | .sor c d a b => Sys2Proof.Machine.execSor c d a b s
  | .sxor c d a b => Sys2Proof.Machine.execSxor c d a b s
  | .sshl c d a b => Sys2Proof.Machine.execSshl c d a b s
  | .sshr c d a b => Sys2Proof.Machine.execSshr c d a b s
  | .ssra c d a b => Sys2Proof.Machine.execSsra c d a b s
  | .smin c d a b => Sys2Proof.Machine.execSmin c d a b s
  | .smax c d a b => Sys2Proof.Machine.execSmax c d a b s
  | .sminn c d a b => Sys2Proof.Machine.execSminn c d a b s
  | .smaxn c d a b => Sys2Proof.Machine.execSmaxn c d a b s
  | .seq c d a b => Sys2Proof.Machine.execSeq c d a b s
  | .slt c d a b => Sys2Proof.Machine.execSlt c d a b s
  | .sltn c d a b => Sys2Proof.Machine.execSltn c d a b s
  | .smov c d a t => Sys2Proof.Machine.execSmov c d a t s
  | .saddi c d a imm => Sys2Proof.Machine.execSaddi c d a imm s
  | .sandi c d a imm => Sys2Proof.Machine.execSandi c d a imm s
  | .sori c d a imm => Sys2Proof.Machine.execSori c d a imm s
  | .sxori c d a imm => Sys2Proof.Machine.execSxori c d a imm s
  | .sshli c d a n => Sys2Proof.Machine.execSshli c d a n s
  | .sshri c d a n => Sys2Proof.Machine.execSshri c d a n s
  | .ssrai c d a n => Sys2Proof.Machine.execSsrai c d a n s
  | .slti c d a imm => Sys2Proof.Machine.execSlti c d a imm s
  | .sli c d imm => Sys2Proof.Machine.execSli c d imm s
  | .slih c d imm => Sys2Proof.Machine.execSlih c d imm s
  | .vadd c d a b => Sys2Proof.Machine.execVadd c d a b s
  | .vsub c d a b => Sys2Proof.Machine.execVsub c d a b s
  | .vmul c d a b => Sys2Proof.Machine.execVmul c d a b s
  | .vmulh c d a b => Sys2Proof.Machine.execVmulh c d a b s
  | .vmulhn c d a b => Sys2Proof.Machine.execVmulhn c d a b s
  | .vand c d a b => Sys2Proof.Machine.execVand c d a b s
  | .vor c d a b => Sys2Proof.Machine.execVor c d a b s
  | .vxor c d a b => Sys2Proof.Machine.execVxor c d a b s
  | .vandn c d a b => Sys2Proof.Machine.execVandn c d a b s
  | .vshl c d a b => Sys2Proof.Machine.execVshl c d a b s
  | .vshr c d a b => Sys2Proof.Machine.execVshr c d a b s
  | .vsra c d a b => Sys2Proof.Machine.execVsra c d a b s
  | .vmin c d a b => Sys2Proof.Machine.execVmin c d a b s
  | .vmax c d a b => Sys2Proof.Machine.execVmax c d a b s
  | .vminn c d a b => Sys2Proof.Machine.execVminn c d a b s
  | .vmaxn c d a b => Sys2Proof.Machine.execVmaxn c d a b s
  | .vabs c d a b => Sys2Proof.Machine.execVabs c d a b s
  | .vneg c d a b => Sys2Proof.Machine.execVneg c d a b s
  | .vclz c d a b => Sys2Proof.Machine.execVclz c d a b s
  | .vpopc c d a b => Sys2Proof.Machine.execVpopc c d a b s
  | .vadds c d a b => Sys2Proof.Machine.execVadds c d a b s
  | .vsubs c d a b => Sys2Proof.Machine.execVsubs c d a b s
  | .vbfe c d a b => Sys2Proof.Machine.execVbfe c d a b s
  | .vbfi c d a b => Sys2Proof.Machine.execVbfi c d a b s
  | .vpack c d a b => Sys2Proof.Machine.execVpack c d a b s
  | .vunpk c d a b => Sys2Proof.Machine.execVunpk c d a b s
  | .vadda c d a b => Sys2Proof.Machine.execVadda c d a b s
  | .vaddi c d a imm => Sys2Proof.Machine.execVaddi c d a imm s
  | .vandi c d a imm => Sys2Proof.Machine.execVandi c d a imm s
  | .vori c d a imm => Sys2Proof.Machine.execVori c d a imm s
  | .vxori c d a imm => Sys2Proof.Machine.execVxori c d a imm s
  | .vshli c d a n => Sys2Proof.Machine.execVshli c d a n s
  | .vshri c d a n => Sys2Proof.Machine.execVshri c d a n s
  | .vsrai c d a n => Sys2Proof.Machine.execVsrai c d a n s
  | .vmuli c d a imm => Sys2Proof.Machine.execVmuli c d a imm s
  | .vli c d t imm => Sys2Proof.Machine.execVli c d t imm s
  | .fadd c d a b r => Sys2Proof.Machine.execFadd c d a b r s
  | .fsub c d a b r => Sys2Proof.Machine.execFsub c d a b r s
  | .fmul c d a b r => Sys2Proof.Machine.execFmul c d a b r s
  | .fdiv c d a b r => Sys2Proof.Machine.execFdiv c d a b r s
  | .fsqrt c d a b r => Sys2Proof.Machine.execFsqrt c d a b r s
  | .fmin c d a b => Sys2Proof.Machine.execFmin c d a b s
  | .fmax c d a b => Sys2Proof.Machine.execFmax c d a b s
  | .fabs c d a b => Sys2Proof.Machine.execFabs c d a b s
  | .fneg c d a b => Sys2Proof.Machine.execFneg c d a b s
  | .fcopysign c d a b => Sys2Proof.Machine.execFcopysign c d a b s
  | .fminnum c d a b => Sys2Proof.Machine.execFminnum c d a b s
  | .fmaxnum c d a b => Sys2Proof.Machine.execFmaxnum c d a b s
  | .ffma c d a b e x => Sys2Proof.Machine.execFfma c d a b e x s
  | .ffman c d a b e x => Sys2Proof.Machine.execFfman c d a b e x s
  | .vimad c d a b e x => Sys2Proof.Machine.execVimad c d a b e x s
  | .frcp c d a b => Sys2Proof.Machine.execFrcp c d a b s
  | .frsq c d a b => Sys2Proof.Machine.execFrsq c d a b s
  | .fexp2 c d a b => Sys2Proof.Machine.execFexp2 c d a b s
  | .flog2 c d a b => Sys2Proof.Machine.execFlog2 c d a b s
  | .fsinpi c d a b => Sys2Proof.Machine.execFsinpi c d a b s
  | .fcospi c d a b => Sys2Proof.Machine.execFcospi c d a b s
  | .ftanh c d a b => Sys2Proof.Machine.execFtanh c d a b s
  | .vcvt c d a p t m sc => Sys2Proof.Machine.execVcvt c d a p t m sc s
  | .vcmp c p a b m k => Sys2Proof.Machine.execVcmp c p a b m k s
  | .vsel c d a b p x => Sys2Proof.Machine.execVsel c d a b p x s
  | .vdot c d a b e x => Sys2Proof.Machine.execVdot c d a b e x s
  | .pand c d a b => Sys2Proof.Machine.execPand c d a b s
  | .por c d a b => Sys2Proof.Machine.execPor c d a b s
  | .pxor c d a b => Sys2Proof.Machine.execPxor c d a b s
  | .pandn c d a b => Sys2Proof.Machine.execPandn c d a b s
  | .ptov c d => Sys2Proof.Machine.execPtov c d s
  | .vtop c a => Sys2Proof.Machine.execVtop c a s
  | .vtos c sc a => Sys2Proof.Machine.execVtos c sc a s
  | .stov c d sc => Sys2Proof.Machine.execStov c d sc s
  | .vretag c d a t => Sys2Proof.Machine.execVretag c d a t s
  | .shfl c d a b p m => Sys2Proof.Machine.execShfl c d a b p m s
  | .shflup c d a b p m => Sys2Proof.Machine.execShflup c d a b p m s
  | .shfldn c d a b p m => Sys2Proof.Machine.execShfldn c d a b p m s
  | .shflx c d a b p m => Sys2Proof.Machine.execShflx c d a b p m s
  | .bcast c d a b p m => Sys2Proof.Machine.execBcast c d a b p m s
  | .voteAny c d p m => Sys2Proof.Machine.execVoteAny c d p m s
  | .voteAll c d p m => Sys2Proof.Machine.execVoteAll c d p m s
  | .voteBal c d p m => Sys2Proof.Machine.execVoteBal c d p m s
  | .voteEq c d p m => Sys2Proof.Machine.execVoteEq c d p m s
  | .redadd c d a m => Sys2Proof.Machine.execRedadd c d a m s
  | .redmin c d a m => Sys2Proof.Machine.execRedmin c d a m s
  | .redmax c d a m => Sys2Proof.Machine.execRedmax c d a m s
  | .redand c d a m => Sys2Proof.Machine.execRedand c d a m s
  | .redor c d a m => Sys2Proof.Machine.execRedor c d a m s
  | .redxor c d a m => Sys2Proof.Machine.execRedxor c d a m s
  | .scanadd c d a m => Sys2Proof.Machine.execScanadd c d a m s
  | .scanaddx c d a m => Sys2Proof.Machine.execScanaddx c d a m s
  | .xmatch c d a m => Sys2Proof.Machine.execXmatch c d a m s
  | .ld c d a p z t o m => Sys2Proof.Machine.execLd c d a p z t o m s
  | .st c d a p z t o m => Sys2Proof.Machine.execSt c d a p z t o m s
  | .atom c d a p z k o m => Sys2Proof.Machine.execAtom c d a p z k o m s
  | .fence c sc => Sys2Proof.Machine.execFence c sc s
  | .publish c b t => Sys2Proof.Machine.execPublish c b t s
  | .berthSet c b a => Sys2Proof.Machine.execBerthSet c b a s
  | .berthClr c b => Sys2Proof.Machine.execBerthClr c b s
  | .ldt c t a b p => Sys2Proof.Machine.execLdt c t a b p s
  | .stt c t a b p => Sys2Proof.Machine.execStt c t a b p s
  | .lndInit c a b sc => Sys2Proof.Machine.execLndInit c a b sc s
  | .lndExpectIn c a b sc => Sys2Proof.Machine.execLndExpectIn c a b sc s
  | .lndExpectOut c a b sc => Sys2Proof.Machine.execLndExpectOut c a b sc s
  | .lndArrive c d a sc => Sys2Proof.Machine.execLndArrive c d a sc s
  | .lndWait c a b sc => Sys2Proof.Machine.execLndWait c a b sc s
  | .lndTest c d a sc => Sys2Proof.Machine.execLndTest c d a sc s
  | .strmSet c a q => Sys2Proof.Machine.execStrmSet c a q s
  | .strmStop c q => Sys2Proof.Machine.execStrmStop c q s
  | .fcopy c d a b l => Sys2Proof.Machine.execFcopy c d a b l s
  | .fgath c d a b l => Sys2Proof.Machine.execFgath c d a b l s
  | .fscat c d a b l => Sys2Proof.Machine.execFscat c d a b l s
  | .fatom c d a b l => Sys2Proof.Machine.execFatom c d a b l s
  | .fput c d a b l => Sys2Proof.Machine.execFput c d a b l s
  | .fputs c d a b l => Sys2Proof.Machine.execFputs c d a b l s
  | .fget c d a b l => Sys2Proof.Machine.execFget c d a b l s
  | .collAllred c d a b l => Sys2Proof.Machine.execCollAllred c d a b l s
  | .collAllgath c d a b l => Sys2Proof.Machine.execCollAllgath c d a b l s
  | .collRedscat c d a b l => Sys2Proof.Machine.execCollRedscat c d a b l s
  | .collBcast c d a b l => Sys2Proof.Machine.execCollBcast c d a b l s
  | .collCbar c d a b l => Sys2Proof.Machine.execCollCbar c d a b l s
  | .nmc c d a b => Sys2Proof.Machine.execNmc c d a b s
  | .fpref c a b h => Sys2Proof.Machine.execFpref c a b h s
  | .fcancel c d a => Sys2Proof.Machine.execFcancel c d a s
  | .mma c b a t n m g z w => Sys2Proof.Machine.execMma c b a t n m g z w s
  | .movts c t a => Sys2Proof.Machine.execMovts c t a s
  | .movst c d t => Sys2Proof.Machine.execMovst c d t s
  | .accz c a => Sys2Proof.Machine.execAccz c a s
  | .mchk c d => Sys2Proof.Machine.execMchk c d s
  | .tcvt c t sc m f => Sys2Proof.Machine.execTcvt c t sc m f s
  | .tzero c t => Sys2Proof.Machine.execTzero c t s
  | .accst c d a b x y q p u f t => Sys2Proof.Machine.execAccst c d a b x y q p u f t s
  | .accld c d a p => Sys2Proof.Machine.execAccld c d a p s
  | .trap c n => Sys2Proof.Machine.execTrap c n s
  | .rteRetry c => Sys2Proof.Machine.execRteRetry c s
  | .rteCommit c => Sys2Proof.Machine.execRteCommit c s
  | .rteSkip c => Sys2Proof.Machine.execRteSkip c s
  | .brk c n => Sys2Proof.Machine.execBrk c n s
  | .csrr c d r => Sys2Proof.Machine.execCsrr c d r s
  | .csrw c a r => Sys2Proof.Machine.execCsrw c a r s
  | .csrs c a r => Sys2Proof.Machine.execCsrs c a r s
  | .csrc c a r => Sys2Proof.Machine.execCsrc c a r s
  | .launch c d a b => Sys2Proof.Machine.execLaunch c d a b s
  | .illegalOpcodeWord w => Sys2Proof.Machine.execIllegalOpcodeWord w s
  | .issueOpportunity r => Sys2Proof.Machine.execIssueOpportunity r s
  | .runEnd => Sys2Proof.Machine.execRunEnd s
  | .loadReturn crew lane => Sys2Proof.Machine.execLoadReturn crew lane s
  | .storePerform crew => Sys2Proof.Machine.execStorePerform crew s
  | .vaultStoreHomeArrival core n => Sys2Proof.Machine.execVaultStoreHomeArrival core n s
  | .atomHomeApply crew => Sys2Proof.Machine.execAtomHomeApply crew s
  | .atomReplyReturn crew op => Sys2Proof.Machine.execAtomReplyReturn crew op s
  | .landingUpdateApply n => Sys2Proof.Machine.execLandingUpdateApply n s
  | .streamElementFetch crew k lane => Sys2Proof.Machine.execStreamElementFetch crew k lane s
  | .tileOpStart block side => Sys2Proof.Machine.execTileOpStart block side s
  | .mmaTwinEngage block => Sys2Proof.Machine.execMmaTwinEngage block s
  | .tileOpComplete block side => Sys2Proof.Machine.execTileOpComplete block side s
  | .engineTransferPart core slot n => Sys2Proof.Machine.execEngineTransferPart core slot n s
  | .faultQueueRecordWrite core slot => Sys2Proof.Machine.execFaultQueueRecordWrite core slot s
  | .fqResolveResume slice ftag => Sys2Proof.Machine.execFqResolveResume slice ftag s
  | .fqResolveUnresolvable slice ftag => Sys2Proof.Machine.execFqResolveUnresolvable slice ftag s
  | .engineCommandComplete core slot => Sys2Proof.Machine.execEngineCommandComplete core slot s
  | .fatomPerform core slot => Sys2Proof.Machine.execFatomPerform core slot s
  | .nmcRun core slot => Sys2Proof.Machine.execNmcRun core slot s
  | .cbarArrival core slot => Sys2Proof.Machine.execCbarArrival core slot s
  | .ticketedRequestArrival n => Sys2Proof.Machine.execTicketedRequestArrival n s
  | .fabricAckReceive slice txn n => Sys2Proof.Machine.execFabricAckReceive slice txn n s
  | .handlerEntry crew => Sys2Proof.Machine.execHandlerEntry crew s
  | .deferredTrapEntry crew => Sys2Proof.Machine.execDeferredTrapEntry crew s
  | .rendezvousTimeout crew group => Sys2Proof.Machine.execRendezvousTimeout crew group s
  | .templateCrewCreate launch core => Sys2Proof.Machine.execTemplateCrewCreate launch core s
  | .imageTake crew => Sys2Proof.Machine.execImageTake crew s
  | .doorbellWrite srcSlice pid addr v => Sys2Proof.Machine.execDoorbellWrite srcSlice pid addr v s
  | .recordAdmission pid qnum => Sys2Proof.Machine.execRecordAdmission pid qnum s
  | .blockAssign slice => Sys2Proof.Machine.execBlockAssign slice s
  | .blockDispatch core => Sys2Proof.Machine.execBlockDispatch core s
  | .cargoStaging block => Sys2Proof.Machine.execCargoStaging block s
  | .blockWriteback block => Sys2Proof.Machine.execBlockWriteback block s
  | .blockRetirement block => Sys2Proof.Machine.execBlockRetirement block s
  | .launchCompletion launch => Sys2Proof.Machine.execLaunchCompletion launch s
  | .schedQdesc slice addr => Sys2Proof.Machine.execSchedQdesc slice addr s
  | .schedQstop slice v => Sys2Proof.Machine.execSchedQstop slice v s
  | .balanceExchange core => Sys2Proof.Machine.execBalanceExchange core s
  | .quantumExpiry block => Sys2Proof.Machine.execQuantumExpiry block s
  | .candidateReserve launch core => Sys2Proof.Machine.execCandidateReserve launch core s
  | .freezeSignal u => Sys2Proof.Machine.execFreezeSignal u s
  | .capture unit => Sys2Proof.Machine.execCapture unit s
  | .contextSave unit => Sys2Proof.Machine.execContextSave unit s
  | .restore unit cores => Sys2Proof.Machine.execRestore unit cores s
  | .manifestReplayStep crew => Sys2Proof.Machine.execManifestReplayStep crew s
  | .watchdog core => Sys2Proof.Machine.execWatchdog core s
  | .shadowCompare crew => Sys2Proof.Machine.execShadowCompare crew s
  | .shadowTimeout crew => Sys2Proof.Machine.execShadowTimeout crew s
  | .sactKillBlock crew => Sys2Proof.Machine.execSactKillBlock crew s
  | .sactKillContext crew => Sys2Proof.Machine.execSactKillContext crew s
  | .pwaysWrite slice v => Sys2Proof.Machine.execPwaysWrite slice v s
  | .pwaysChangeComplete slice => Sys2Proof.Machine.execPwaysChangeComplete slice s
  | .registerWrite slice off v => Sys2Proof.Machine.execRegisterWrite slice off v s
  | .resizeMove cmd => Sys2Proof.Machine.execResizeMove cmd s
  | .interruptSourceEnable pid src => Sys2Proof.Machine.execInterruptSourceEnable pid src s
  | .hostMemoryAccess q => Sys2Proof.Machine.execHostMemoryAccess q s
  | .pcieInboundWrite q ep => Sys2Proof.Machine.execPcieInboundWrite q ep s
  | .ideIntegrityFailure pid => Sys2Proof.Machine.execIdeIntegrityFailure pid s
  | .migrationCut ctx => Sys2Proof.Machine.execMigrationCut ctx s
  | .flitSend slice => Sys2Proof.Machine.execFlitSend slice s
  | .keyInstall slice tx slot key salt => Sys2Proof.Machine.execKeyInstall slice tx slot key salt s
  | .flitIdleReceive slice f => Sys2Proof.Machine.execFlitIdleReceive slice f s
  | .flitDataReceive slice f => Sys2Proof.Machine.execFlitDataReceive slice f s
  | .flitOpenReceive slice f => Sys2Proof.Machine.execFlitOpenReceive slice f s
  | .flitMarkerReceive slice f => Sys2Proof.Machine.execFlitMarkerReceive slice f s
  | .flitCutReceive slice f => Sys2Proof.Machine.execFlitCutReceive slice f s
  | .flitAbortReceive slice f => Sys2Proof.Machine.execFlitAbortReceive slice f s
  | .linkRetrain slice => Sys2Proof.Machine.execLinkRetrain slice s
  | .linkLaneLoss slice trains => Sys2Proof.Machine.execLinkLaneLoss slice trains s
  | .dieBridgeFailure slices => Sys2Proof.Machine.execDieBridgeFailure slices s
  | .sliceTrip slice why => Sys2Proof.Machine.execSliceTrip slice why s
  | .patrolRead pid sector => Sys2Proof.Machine.execPatrolRead pid sector s
  | .hbmtest cmd failRow => Sys2Proof.Machine.execHbmtest cmd failRow s
  | .logread buf count => Sys2Proof.Machine.execLogread buf count s
  | .powerPstate cmd => Sys2Proof.Machine.execPowerPstate cmd s
  | .powerGate cmd => Sys2Proof.Machine.execPowerGate cmd s
  | .fwstage image => Sys2Proof.Machine.execFwstage image s
  | .fwactivate => Sys2Proof.Machine.execFwactivate s
  | .bind pid addr session wrapped => Sys2Proof.Machine.execBind pid addr session wrapped s
  | .release pid handle => Sys2Proof.Machine.execRelease pid handle s
  | .portmode pid slice mode => Sys2Proof.Machine.execPortmode pid slice mode s
  | .coldReset t => Sys2Proof.Machine.execColdReset t s
  | .measurementRequest port fn pid nonce => Sys2Proof.Machine.execMeasurementRequest port fn pid nonce s
  | .debugUnlock port session => Sys2Proof.Machine.execDebugUnlock port session s
  | .flitInvalidTypeReceive slice f => Sys2Proof.Machine.execFlitInvalidTypeReceive slice f s
  | .linkTrained slice lanes keys => Sys2Proof.Machine.execLinkTrained slice lanes keys s
  | .spdmSessionEstablish session pid tenant role => Sys2Proof.Machine.execSpdmSessionEstablish session pid tenant role s
  | .spdmSessionEnd session => Sys2Proof.Machine.execSpdmSessionEnd session s
  | .tdispRequest pid r => Sys2Proof.Machine.execTdispRequest pid r s
  | .debugBlockResume port block => Sys2Proof.Machine.execDebugBlockResume port block s
  | .mailboxInvalidCode owner pid code => Sys2Proof.Machine.execMailboxInvalidCode owner pid code s
  | .contextCreate ctx pid node area => Sys2Proof.Machine.execContextCreate ctx pid node area s
  | .contextDestroy ctx => Sys2Proof.Machine.execContextDestroy ctx s
  | .rosterEstablish ctx own ranks => Sys2Proof.Machine.execRosterEstablish ctx own ranks s
  | .ethernetFrameReceive slice frame => Sys2Proof.Machine.execEthernetFrameReceive slice frame s

end Sys2Proof.Machine
end

