-- ==== Sys2Proof/Machine/Agenda.lean ====
section
/-! DEFINITION. What moves next (log 3): the agenda's entries, two groups in one cycle (R49, R216), and with an empty agenda a default order. And the placing of one instruction for its execution (log 2). -/

namespace Sys2Proof.Machine

/-- The next word, or the end of the run, of the group that the focus stream carries (R9, R21). -/
def stepFocus (s : State) : Host.Outcome State Fault Refusal :=
  match s.focus with
  | none => .refused .noIssue
  | some r => match s.carried r with
    | none => .refused .noIssue
    | some (cid, gid) => match tget s.crews cid with
      | none => .refused .noIssue
      | some c => match c.group? gid with
        | none => .refused .noIssue
        | some g =>
          if g.atEnd then enabledEvent (runEnd s)
          else match s.groupWord c g with
            | none => .fault .fetchUnmapped
            | some w => exec (instrOf w) s

/-- The next word or the run end of a stream. -/
def stepStream (r : StreamRef) (s : State) : Host.Outcome State Fault Refusal := stepFocus { s with focus := some r }

/-! ### Two chain groups in one cycle (R49, R216) -/

/-- The context of the chain group at which a stream's group stands, when it stands at the beginning of one and may issue it now. -/
def State.pairCtx (s : State) (r : StreamRef) : Option Ctx :=
  match s.carried r with
  | none => none
  | some (cid, gid) => match (tget s.crews cid).bind fun c => (c.group? gid).bind fun g => s.groupWord c g with
    | none => none
    | some w => match s.ctxOf r cid gid w with
      | none => none
      | some c => if s.mayIssue c && c.grp.snap.isNone && c.dueTrap.isNone && (s.chainWait c (instrOf w)).isNone then some c else none

/-- Whether two chain groups may issue in one cycle: one half, and one slot or disjoint physical lanes (R216). -/
def mayPair (a b : Ctx) : Bool :=
  a.ref.core == b.ref.core && a.ref.half == b.ref.half && a.ref.stream != b.ref.stream
    && (a.crew.slot == b.crew.slot || (a.active.all fun l => !(b.active.map (· + b.crew.lanePos)).contains (l + a.crew.lanePos)))

/-- Whether a group writes before another in their common cycle: fewer items first, then the higher packet address (R49). -/
def writesBefore (a b : Ctx) : Bool :=
  let n := (a.crew.groupLanes a.grp).length
  let m := (b.crew.groupLanes b.grp).length
  if n ≠ m then n < m else b.grp.packet.toNat < a.grp.packet.toNat

/-- The words of a stream's chain group one after another, at most n. -/
def stepChain (r : StreamRef) : Nat → State → Host.Outcome State Fault Refusal
  | 0, s => .next s
  | n + 1, s =>
    match stepStream r s with
    | .next s' =>
      let going : Bool := match s'.carried r with
        | none => false
        | some (cid, gid) => (((tget s'.crews cid).bind fun c => c.group? gid).map fun g => g.snap.isSome).getD false
      if going then stepChain r n s' else .next s'
    | o => o

/-- Whether a group of a common cycle takes its turn first. Two crews' words take effect in ascending %crew order, so that their tile operations queue and
their shape records stand as R174 and R188 say; two groups of one crew in the order of R49. Where the spec gives none, two groups of equal size at one
packet address, the order is that in which the agenda names them (log 52). -/
def turnFirst (a b : Ctx) : Bool := if a.cid == b.cid then writesBefore a b else a.crew.idx < b.crew.idx

/-- Two chain groups issue in one cycle: both read the state as it stood before, and write in the order of R49. -/
def stepPair (a b : StreamRef) (rest : List Agendum) (s : State) : Host.Outcome State Fault Refusal :=
  match s.pairCtx a, s.pairCtx b with
  | some x, some y =>
    if !mayPair x y then .refused .notEnabled
    else
      let (f, g) := if turnFirst y x then (y, x) else (x, y)
      let s0 := (s.modGrp g g.beginIn).modGrp f f.beginIn
      match stepChain f.ref 3 { s0 with agenda := .issue g.ref :: rest } with
      | .next s1 =>
        let s1 := { s1 with agenda := rest }
        if (s1.carried g.ref).isSome then stepChain g.ref 3 s1 else .next s1
      | o => o
  | _, _ => .refused .notEnabled

/-! ### Chain groups that issue jointly (R164) -/

/-- A chain group that has joined the issue of its cross-lane word and has not written yet, with the stream on which it stands for that: it has left its own when it
parked, so it stands on a fifth one of its core. -/
def State.jointNext (s : State) : Option (StreamRef × Nat × Nat) :=
  s.crews.findSome? fun p =>
    if ((tget s.blocks p.2.block).map fun b => b.state == .running) != some true then none
    else (p.2.groups.find? fun g => g.joined.isSome && g.snap.isSome && g.trap.isNone && g.wait.isNone).map fun g =>
      ({ core := p.2.core, half := p.2.half, stream := 4 - 2 * p.2.half }, p.1, g.id)

/-- Such a chain group issues whole; its group then waits to be selected. -/
def stepJoint (r : StreamRef) (cid gid : Nat) (s : State) : Host.Outcome State Fault Refusal :=
  match stepChain r 3 (s.modCore r.core fun x => { x with streams := tput x.streams 4 (cid, gid) }) with
  | .next t => .next { t.modCore r.core fun x => { x with streams := tdel x.streams 4 } with focus := s.focus }
  | o => o

/-- Time passes on a core. -/
def State.tick (s : State) (core n : Nat) : State := s.modCore core fun r => { r with clk := r.clk + n }

/-- Time passes on a slice scheduler. -/
def State.schedTick (s : State) (slice n : Nat) : State := s.modSlice slice fun x => { x with clk := x.clk + n }

/-- Whether an instruction is an event, which the agenda may name. -/
def isEvent (i : Instr) : Bool :=
  (encode i).isNone && match i with
    | .illegalOpcodeWord _ => false
    | _ => true

/-! ### The default order (log 3) -/

/-- The first of several events that can take place. -/
def firstOf : List (Unit → Option State) → Option State
  | [] => none
  | f :: fs => match f () with
    | some s => some s
    | none => firstOf fs

/-- What a crew's accesses can do next. -/
def State.crewMoves (s : State) (c : Crew) : List (Unit → Option State) :=
  [ fun _ => s.sactKillBlock c.id
  , fun _ => s.sactKillContext c.id
  , fun _ => s.replayStep c.id
  , fun _ => match c.loads with
      | l :: _ => s.loadReturn c.id ((l.lanes.headD (0, .spad 0)).1)
      | [] => none
  , fun _ => if c.storeQ.isEmpty then none else s.storePerform c.id
  , fun _ => if c.storeQ.isEmpty then none else s.atomHomeApply c.id
  , fun _ => match c.replies with
      | r :: _ => s.atomReplyReturn c.id r.id
      | [] => none
  , fun _ => s.deferredEntry c.id
  , fun _ => s.handlerEntry c.id
  , fun _ => s.imageTake c.id
  , fun _ => s.shadowCompare c.id ]

/-- What a block can do next: its tile queues, its writeback and its end. -/
def State.blockMoves (s : State) (b : Block) : List (Unit → Option State) :=
  ((List.range b.sides.length).flatMap fun k =>
    [ fun _ => s.mmaEngage b.id
    , fun _ => s.tileStart b.id k
    , fun _ => s.tileComplete b.id k ])
  ++ [ fun _ => s.faultQueueWrite blockCore b.id, fun _ => s.cargoStaging b.id, fun _ => s.blockWriteback b.id, fun _ => s.blockRetirement b.id ]

/-- What an engine command can do next. -/
def State.engineMoves (s : State) (core slot : Nat) : List (Unit → Option State) :=
  [ fun _ => s.commandComplete core slot
  , fun _ => s.faultQueueWrite core slot
  , fun _ => s.cbarArrival core slot
  , fun _ => s.fatomPerform core slot
  , fun _ => s.nmcRun core slot
  , fun _ => (List.range 64).findSome? fun n => s.transferPart core slot (n + 1)
  , fun _ => s.transferPart core slot 0 ]

/-- What a core and its part of the scheduler can do next. -/
def State.coreMoves (s : State) (core : Nat) (r : Core) : List (Unit → Option State) :=
  [ fun _ => if r.vaultPend.isEmpty then none else s.vaultArrival core 0 ]
    ++ r.ferry.flatMap (fun f => s.engineMoves core f.1)
    ++ [ fun _ => s.blockDispatch core ]

/-- What a launch queue's home and a unit that freezes can do next. -/
def State.schedMoves (s : State) : List (Unit → Option State) :=
  (s.launches.flatMap fun p : Nat × Launch => [fun _ => s.launchCompletion p.1, fun _ => s.templateCrew p.1 (32 * p.2.home)])
    ++ (s.queues.flatMap fun q : Queue => [fun _ => s.faultQueueWrite queueCore q.uid, fun _ => s.recordAdmission q.pid q.qnum])
    ++ (s.slices.map fun p : Nat × Slice => fun _ => s.assignGiven p.1)

/-- A granule that an L2 holds changed reaches the memory-side cache (R331, R334). -/
def State.l2Write (s : State) (pid granule : Nat) : Option State :=
  if (tget s.partitions pid).any fun p => (tget p.gm.behind granule).isSome then
    some (s.modPartition pid fun p => { p with gm := p.gm.settleBehind (32 * granule) 32 })
  else none

/-- What the L2s hold changed goes to the memory-side caches. -/
def State.l2Moves (s : State) : List (Unit → Option State) :=
  s.partitions.filterMap fun p => p.2.gm.behind.head?.map fun x => fun _ => s.l2Write p.1 x.1

/-- Everything that can move by itself. -/
def State.moves (s : State) : List (Unit → Option State) :=
  (s.crews.flatMap fun p : Nat × Crew => s.crewMoves p.2)
    ++ [fun _ => s.landingUpdateApply 0, fun _ => s.requestArrival 0]
    ++ (s.blocks.flatMap fun p : Nat × Block => s.blockMoves p.2)
    ++ (s.cores.flatMap fun p : Nat × Core => s.coreMoves p.1 p.2)
    ++ s.schedMoves ++ s.l2Moves

/-- The streams of the cores that the state lists. -/
def State.streamRefs (s : State) : List StreamRef :=
  ((s.crews.map fun p => p.2.core).eraseDups).flatMap fun k => [0, 1].flatMap fun h => [0, 1].map fun t => { core := k, half := h, stream := t }

/-- The streams in turn: those after the focus stream first. -/
def State.turnOrder (s : State) : List StreamRef :=
  let rs := s.streamRefs
  match s.focus with
  | none => rs
  | some r => rs.drop (rs.idxOf r + 1) ++ rs.take (rs.idxOf r + 1)

/-- The first stream that can select a group. -/
def State.selectAny (s : State) : List StreamRef → Option (Host.Outcome State Fault Refusal)
  | [] => none
  | r :: rs => match issueOpportunity r s with
    | .refused _ => s.selectAny rs
    | o => some o

/-- Whether the group that the focus stream carries goes on without a wait. -/
def State.focusGoes (s : State) : Bool :=
  match s.focus.bind s.carried with
  | none => false
  | some (cid, gid) => match (tget s.crews cid).bind fun c => c.group? gid with
    | none => false
    | some g => (g.wait.isNone || g.snap.isSome) && ((tget s.crews cid).map fun c : Crew => c.sact) == some 0

/-- With an empty agenda: the focus group goes on; else the first thing that can move; else a stream selects; else a stalled group tries again; else nothing happens. -/
def stepDefault (s : State) : Host.Outcome State Fault Refusal :=
  if s.focusGoes then stepFocus s
  else match firstOf s.moves with
    | some s' => .next s'
    | none => match s.selectAny s.turnOrder with
      | some o => o
      | none => match s.focus.bind s.carried with
        | some _ => stepFocus s
        | none => .next s

/-- Whether the group that the focus stream carries stands between the words of a chain group: the chain group goes on before anything else moves (R14, R16). -/
def State.focusMidChain (s : State) : Bool :=
  match s.focus.bind s.carried with
  | none => false
  | some (cid, gid) => match (tget s.crews cid).bind fun c => c.group? gid with
    | none => false
    | some g => g.snap.isSome && g.wait.isNone

/-- A chain group that is being issued goes on, then those that issue jointly with it (R16, R164); then what the agenda names first; with an empty agenda the default order. -/
def runAgenda (s : State) : Host.Outcome State Fault Refusal :=
  if s.focusMidChain then stepFocus s
  else match s.jointNext with
  | some (r, cid, gid) => stepJoint r cid gid s
  | none => match s.agenda with
  | [] => stepDefault s
  | .event i :: rest => if isEvent i then exec i { s with agenda := rest } else .refused .notEnabled
  | .issue r :: rest => stepStream r { s with agenda := rest }
  | .pair a b :: rest => stepPair a b rest s
  | .tick core n :: rest => .next ({ s with agenda := rest }.tick core n)
  | .schedTick slice n :: rest => .next ({ s with agenda := rest }.schedTick slice n)
  | .tileRow b k :: rest => enabledEvent ({ s with agenda := rest }.tileStep b k)
  | .l2Write pid k :: rest => enabledEvent ({ s with agenda := rest }.l2Write pid k)

end Sys2Proof.Machine
end

