-- ==== Sys2Proof/Machine/Placing.lean ====
section
/-! DEFINITION. The placing of one instruction where the next step fetches it (log 2). -/

namespace Sys2Proof.Machine

/-- Where the placed instruction's crew runs. -/
def placedStream : StreamRef := { core := 0, half := 0, stream := 0 }

/-- The one mapping of the placed instruction's partition: code and data at virtual 0, global memory from 0. -/
def placedPage : Page := { va := 0, size := 65536, vault := false, pa := 0, writable := true }

/-- The group of the placed instruction: eight lanes at word 0 of packet 0, in the middle of a run whose check has passed (R23). -/
def placedGroup : Group := { id := 0, lanes := 0xFF, packet := 0, runStart := 0, final := some 0 }

/-- The crew of the placed instruction: every register as at creation (R42). -/
def placedCrew : Crew := {
  id := 0, block := 0, launch := 0, idx := 0, width := 8, regs := { lanes := List.replicate 8 {} }, groups := [placedGroup] }

/-- The block of the placed instruction: 16 KB of private scratchpad (R210). -/
def placedBlock : Block := { id := 0, launch := 0, sides := [{ core := 0 }], state := .running, p := 16384 }

/-- The launch of the placed instruction. -/
def placedLaunch : Launch := { id := 0, lid := 0x00100001, pid := 1, qnum := 0, home := 0, ctx := ctxKey 1 0, phase := .running }

/-- A state with one instruction word stored at packet 0 and a crew that stands at it, carried by the focus stream. -/
def State.placeWord (s : State) (w : Word) : State :=
  let p : Partition := { pid := 1, itab := List.replicate 256 0, sg := 0x1000000, pages := [placedPage] }
  let gm : GlobalMem := { mem := writeBytes [] 0 (bytesOfWord w) }
  { s with
    agenda := [], focus := some placedStream
    partitions := tput s.partitions 1 { p with gm := gm }
    contexts := tput s.contexts (ctxKey 1 0) { ctx := ctxKey 1 0, pid := 1 }
    launches := tput s.launches 0 placedLaunch
    blocks := tput s.blocks 0 placedBlock
    crews := tput s.crews 0 placedCrew
    cores := tput s.cores 0 { (s.core 0) with streams := [(0, (0, 0))] } }

end Sys2Proof.Machine
end

