-- ==== Sys2Proof/Machine/Step.lean ====
section
/-! DEFINITION. One step of the machine, and the placing of the instruction that it runs next. -/

namespace Sys2Proof.Machine

/-- One step: what the agenda names first, or with an empty agenda what the default order finds (log 3). -/
def step (s : State) : Host.Outcome State Fault Refusal := runAgenda s

/-- The state with one instruction stored where the next step fetches it (log 2). -/
def State.withFetchWord (s : State) (nbits w : Nat) : State := s.placeWord (BitVec.ofNat 32 (w % 2 ^ nbits))

end Sys2Proof.Machine
end

