-- ==== Sys2Proof/Safety.lean ====
section
/-! DEFINITION. The terms in which the statements speak of a run: when a group stands ready to issue a word, what a word's issue comes to, and the canonical form of every memory of the machine. -/

namespace Sys2Proof.Machine

/-! ### A word that issues -/

/-- The group of a context stands at a word and may issue it now (R14, R22, R214, R361): the focus stream carries the group; block and group run, with no
trap pending; the crew is not one of a shadow pair; no reserved field of the word is set; and where a chain group begins, no deferred trap is due and no word of it waits. -/
structure Ready (s : State) (i : Instr) (c : Ctx) : Prop where
  here : s.ctx? i = some c
  may : s.mayIssue c = true
  alone : c.crew.shadow = none
  formed : i.wellFormed = true
  due : c.grp.snap = none → c.dueTrap = none
  chain : c.grp.snap = none → s.chainWait c i = none

/-- The state in which the word's effect takes place: the chain group has begun (R14), and errors in what the word itself reads are detected (R460). -/
def State.atEffect (s : State) (i : Instr) (c : Ctx) : State := (if c.grp.snap.isSome then s else s.beginChain c).detectWord i c

/-- The state after a word that took effect: the group stands behind it, and at the end of the chain group the core's clock has moved on (R15, log 6). -/
def State.behind (_ t : State) (c : Ctx) : State := t.passWord c c.chainNext.isSome

/-- The word issues and takes effect: f is what it does to the state. -/
def Runs (i : Instr) (s : State) (c : Ctx) (f : State → State) : Prop :=
  exec i s = .next (s.behind (f (s.atEffect i c)) c)

/-- The word traps with no effect of its own (R15, R36): the trap is raised by its group. -/
def Traps (i : Instr) (s : State) (c : Ctx) (t : TrapInfo) : Prop :=
  exec i s = .next ((s.atEffect i c).raiseTrap c.cid c.grp.id t)

/-- The context with the chain group's waits over, as the word's own checks see it (R14). -/
def Ctx.go (c : Ctx) : Ctx := { c with ready := true }

/-! ### The canonical form of every memory -/

/-- The canonical form of a store's bytes. -/
def Store.wf (st : Store) : Bool := st.mem.wf

/-- The canonical form of the memories of a side of a block. -/
def Side.memWf (x : Side) : Bool := x.spad.wf && x.acc.wf && x.tiles.all fun p => p.2.wf

/-- The canonical form of the memories of a block. -/
def Block.memWf (b : Block) : Bool := b.sides.all Side.memWf

/-- The canonical form of the channels of a stage group. -/
def StageGroup.memWf (g : StageGroup) : Bool := g.chan.all fun p => p.2.wf

/-- The canonical form of the segments of a launch's images. -/
def Launch.memWf (l : Launch) : Bool := (l.image.toList ++ l.blockImages.map (·.2)).all fun im => im.segment.wf

/-- The canonical form of the memories that a saved unit holds. -/
def SavedUnit.memWf (u : SavedUnit) : Bool := u.blocks.all Block.memWf && u.groups.all StageGroup.memWf

/-- Every memory of the machine is in its canonical form: addresses strictly rising, no entry that holds what an unlisted address reads as. -/
def State.memWf (s : State) : Bool :=
  s.vault.wf && (s.partitions.all fun p => p.2.gm.mem.wf) && (s.blocks.all fun p => p.2.memWf)
    && (s.stageGroups.all fun p => p.2.memWf) && (s.launches.all fun p => p.2.memWf) && (s.saved.all SavedUnit.memWf) && s.harbour.ownerMem.wf

/-! ### What a word leaves alone -/

/-- The two states agree outside the crew with number k and the clock of its core: every other crew and core, and every other field of the state. -/
def SameOutside (k core : Nat) (s t : State) : Prop :=
  (∀ j, j ≠ k → tget t.crews j = tget s.crews j) ∧ t.blocks = s.blocks ∧ t.stageGroups = s.stageGroups ∧ t.launches = s.launches
    ∧ t.partitions = s.partitions ∧ t.contexts = s.contexts ∧ t.vault = s.vault ∧ t.harbour = s.harbour ∧ t.slices = s.slices
    ∧ t.queues = s.queues ∧ t.saved = s.saved ∧ t.landUpds = s.landUpds ∧ t.requests = s.requests ∧ t.agenda = s.agenda ∧ t.focus = s.focus
    ∧ t.freezing = s.freezing ∧ t.strays = s.strays ∧ t.collectives = s.collectives ∧ t.collCount = s.collCount ∧ t.node = s.node
    ∧ t.hostAnswer = s.hostAnswer ∧ t.hostEp = s.hostEp ∧ t.measAnswer = s.measAnswer ∧ t.nextId = s.nextId
    ∧ (∀ j, j ≠ core → t.core j = s.core j) ∧ ∃ n, t.core core = { s.core core with clk := n }

end Sys2Proof.Machine
end

