-- ==== Sys2Proof/Certificates/Slice0/Obligations.lean ====
section
/-! DEFINITION. The statements for the provers. Each says what an instruction word, an event or the machine does, under conditions on the state and the operands alone; Ready, Runs and Traps are those of Safety.lean. -/

open Sys2Proof Sys2Proof.Machine

namespace Sys2Proof.Statements

/-! ### Scalar words -/

/-- One word of SALU as R114 and R115 give it: its constructor, the tags of A and B that it accepts, the tag of its result, and its result as an integer from the width of A's tag and the two values. -/
structure ScalarRow where
  word : BitVec 1 → BitVec 5 → BitVec 5 → BitVec 5 → Instr
  tagA : Tag → Bool
  tagB : Tag → Tag → Bool
  res : Tag → Tag
  val : Nat → Nat → Nat → Int

/-- The tags of the same tag as A. -/
def likeA (t u : Tag) : Bool := u == t

/-- SADD to SSRA, SMIN to SLTN (R114, R115). -/
def scalarRows : List ScalarRow := [
  { word := .sadd, tagA := Tag.isInt, tagB := likeA, res := id, val := fun _ x y => (x : Int) + y },
  { word := .ssub, tagA := Tag.isInt, tagB := likeA, res := id, val := fun _ x y => (x : Int) - y },
  { word := .smul, tagA := Tag.isInt, tagB := likeA, res := id, val := fun _ x y => (x : Int) * y },
  { word := .smulh, tagA := Tag.isInt, tagB := likeA, res := id, val := fun w x y => signedOf w x * signedOf w y / 2 ^ w },
  { word := .smulhn, tagA := Tag.isInt, tagB := likeA, res := id, val := fun w x y => (x : Int) * y / 2 ^ w },
  { word := .sand, tagA := Tag.clean, tagB := fun _ u => u.clean, res := id, val := fun _ x y => (x &&& y : Nat) },
  { word := .sor, tagA := Tag.clean, tagB := fun _ u => u.clean, res := id, val := fun _ x y => (x ||| y : Nat) },
  { word := .sxor, tagA := Tag.clean, tagB := fun _ u => u.clean, res := id, val := fun _ x y => (x ^^^ y : Nat) },
  { word := .sshl, tagA := Tag.shiftable, tagB := fun _ u => u.isInt, res := id, val := fun w x y => (x : Int) * 2 ^ (y % w) },
  { word := .sshr, tagA := Tag.shiftable, tagB := fun _ u => u.isInt, res := id, val := fun w x y => (x : Int) / 2 ^ (y % w) },
  { word := .ssra, tagA := Tag.shiftable, tagB := fun _ u => u.isInt, res := id, val := fun w x y => signedOf w x / 2 ^ (y % w) },
  { word := .smin, tagA := Tag.isInt, tagB := likeA, res := id, val := fun w x y => min (signedOf w x) (signedOf w y) },
  { word := .smax, tagA := Tag.isInt, tagB := likeA, res := id, val := fun w x y => max (signedOf w x) (signedOf w y) },
  { word := .sminn, tagA := Tag.isInt, tagB := likeA, res := id, val := fun _ x y => (min x y : Nat) },
  { word := .smaxn, tagA := Tag.isInt, tagB := likeA, res := id, val := fun _ x y => (max x y : Nat) },
  { word := .seq, tagA := Tag.clean, tagB := likeA, res := fun _ => .i64, val := fun _ x y => if x = y then 1 else 0 },
  { word := .slt, tagA := Tag.isInt, tagB := likeA, res := fun _ => .i64, val := fun w x y => if signedOf w x < signedOf w y then 1 else 0 },
  { word := .sltn, tagA := Tag.isInt, tagB := likeA, res := fun _ => .i64, val := fun _ x y => if x < y then 1 else 0 } ]

/-- One word of SALUI as R117 gives it, with the immediate as an integer. -/
structure ScalarImmRow where
  word : BitVec 1 → BitVec 5 → BitVec 5 → BitVec 12 → Instr
  tagA : Tag → Bool
  res : Tag → Tag
  /-- width, value, the immediate's value modulo 2^w, and the immediate as a signed number -/
  val : Nat → Nat → Nat → Int → Int

/-- SADDI to SXORI and SLTI (R117). -/
def scalarImmRows : List ScalarImmRow := [
  { word := .saddi, tagA := Tag.isInt, res := id, val := fun _ x _ i => (x : Int) + i },
  { word := .sandi, tagA := Tag.clean, res := id, val := fun _ x n _ => (x &&& n : Nat) },
  { word := .sori, tagA := Tag.clean, res := id, val := fun _ x n _ => (x ||| n : Nat) },
  { word := .sxori, tagA := Tag.clean, res := id, val := fun _ x n _ => (x ^^^ n : Nat) },
  { word := .slti, tagA := Tag.isInt, res := fun _ => .i64, val := fun w x n _ => if signedOf w x < signedOf w n then 1 else 0 } ]

/-- SSHLI, SSHRI and SSRAI (R117): the constructor, and the result from the width, the value and the count modulo the width. -/
def scalarShiftRows : List ((BitVec 1 → BitVec 5 → BitVec 5 → BitVec 6 → Instr) × (Nat → Nat → Nat → Int)) := [
  (.sshli, fun _ x n => (x : Int) * 2 ^ n),
  (.sshri, fun _ x n => (x : Int) / 2 ^ n),
  (.ssrai, fun w x n => signedOf w x / 2 ^ n) ]

end Sys2Proof.Statements

open Sys2Proof.Statements

/-- R114, R115: with an active lane, operands of accepted tags and none of them POISON, each of the eighteen SALU words writes its result, modulo 2^w and zero-extended, with its tag to S[SD], and nothing traps. -/
def Obligations.ScalarTwoOperandResults : Prop :=
  ∀ r ∈ scalarRows, ∀ (s : State) (c : Ctx) (ch : BitVec 1) (d a b : BitVec 5),
    Ready s (r.word ch d a b) c → c.active ≠ [] →
    r.tagA (c.getS a).tag = true → r.tagB (c.getS a).tag (c.getS b).tag = true → (c.getS a).tag ≠ .poison → (c.getS b).tag ≠ .poison →
    Runs (r.word ch d a b) s c fun t => t.writeS c d {
      bits := BitVec.ofNat 64 (wrapTo (c.getS a).tag.scalarWidth
        (r.val (c.getS a).tag.scalarWidth ((c.getS a).low (c.getS a).tag.scalarWidth) ((c.getS b).low (c.getS a).tag.scalarWidth)))
      tag := r.res (c.getS a).tag }

/-- R116, R117, R118: the results of the SALUI words, of SMOV, SLI and SLIH. The immediate of SALUI is taken modulo 2^w; SMOV keeps the tag of A or takes the one its field names, a 32-bit tag clearing bits 63:32;
SLI writes the sign-extended immediate and SLIH puts the sign-extended immediate above bits 19:0 of S[SD], both tagged I64. -/
def Obligations.ScalarImmediateResults : Prop :=
  (∀ r ∈ scalarImmRows, ∀ (s : State) (c : Ctx) (ch : BitVec 1) (d a : BitVec 5) (i : BitVec 12),
    Ready s (r.word ch d a i) c → c.active ≠ [] → r.tagA (c.getS a).tag = true → (c.getS a).tag ≠ .poison →
    Runs (r.word ch d a i) s c fun t => t.writeS c d {
      bits := BitVec.ofNat 64 (wrapTo (c.getS a).tag.scalarWidth
        (r.val (c.getS a).tag.scalarWidth ((c.getS a).low (c.getS a).tag.scalarWidth) (wrapTo (c.getS a).tag.scalarWidth i.toInt) i.toInt))
      tag := r.res (c.getS a).tag })
  ∧ (∀ r ∈ scalarShiftRows, ∀ (s : State) (c : Ctx) (ch : BitVec 1) (d a : BitVec 5) (n : BitVec 6),
    Ready s (r.1 ch d a n) c → c.active ≠ [] → (c.getS a).tag.shiftable = true →
    Runs (r.1 ch d a n) s c fun t => t.writeS c d {
      bits := BitVec.ofNat 64 (wrapTo (c.getS a).tag.scalarWidth
        (r.2 (c.getS a).tag.scalarWidth ((c.getS a).low (c.getS a).tag.scalarWidth) (n.toNat % (c.getS a).tag.scalarWidth)))
      tag := (c.getS a).tag })
  ∧ (∀ (s : State) (c : Ctx) (ch : BitVec 1) (d a t : BitVec 5), Ready s (.smov ch d a t) c → c.active ≠ [] → (c.getS a).tag ≠ .poison →
    Runs (.smov ch d a t) s c fun u => u.writeS c d (
      let g := if t = 0 then (c.getS a).tag else Tag.ofCode (t.toNat - 16)
      { bits := if g.is32 then (c.getS a).bits &&& 0xFFFFFFFF else (c.getS a).bits, tag := g }))
  ∧ (∀ (s : State) (c : Ctx) (ch : BitVec 1) (d : BitVec 5) (i : BitVec 20), Ready s (.sli ch d i) c → c.active ≠ [] →
    Runs (.sli ch d i) s c fun u => u.writeS c d { bits := BitVec.ofInt 64 i.toInt, tag := .i64 })
  ∧ (∀ (s : State) (c : Ctx) (ch : BitVec 1) (d : BitVec 5) (i : BitVec 20), Ready s (.slih ch d i) c → c.active ≠ [] → (c.getS d).tag ≠ .poison →
    Runs (.slih ch d i) s c fun u => u.writeS c d {
      bits := BitVec.ofInt 64 (i.toInt * 2 ^ 20 + ((c.getS d).bits.toNat % 2 ^ 20 : Nat)), tag := .i64 })

/-- R57, R111, R112, R114: what a two-operand SALU word does otherwise. A POISON operand traps with POISON, a refused tag with TAG and the tag found, in every active lane; with no active lane the word has no effect at all. -/
def Obligations.ScalarOperandTraps : Prop :=
  ∀ r ∈ scalarRows, ∀ (s : State) (c : Ctx) (ch : BitVec 1) (d a b : BitVec 5), Ready s (r.word ch d a b) c →
    (c.active = [] → Runs (r.word ch d a b) s c id)
    ∧ (c.active ≠ [] → (c.getS a).tag = .poison → Traps (r.word ch d a b) s c (c.go.fail .poison c.active 2))
    ∧ (c.active ≠ [] → (c.getS a).tag ≠ .poison → (c.getS b).tag = .poison → Traps (r.word ch d a b) s c (c.go.fail .poison c.active 3))
    ∧ (c.active ≠ [] → (c.getS a).tag ≠ .poison → (c.getS b).tag ≠ .poison → r.tagA (c.getS a).tag = false →
        Traps (r.word ch d a b) s c (c.go.fail .tag c.active 2 (c.getS a).tag.code))
    ∧ (c.active ≠ [] → (c.getS a).tag ≠ .poison → (c.getS b).tag ≠ .poison → r.tagA (c.getS a).tag = true →
        r.tagB (c.getS a).tag (c.getS b).tag = false → Traps (r.word ch d a b) s c (c.go.fail .tag c.active 3 (c.getS b).tag.code))

namespace Sys2Proof.Statements

/-! ### Vector integer words -/

/-- A word of VINT on the elements of A and B of one integer tag (R145): its constructor, and each result element as an integer from the tag and the two elements. -/
structure VectorRow where
  word : BitVec 1 → BitVec 6 → BitVec 6 → BitVec 6 → Instr
  val : Tag → Nat → Nat → Int

/-- An element as the number its tag makes it (R83). -/
def elemInt (t : Tag) (x : Nat) : Int := if t.isSigned then signedOf t.elemBits x else x

/-- The least and the greatest number of an integer element (R84). -/
def elemRange (t : Tag) : Int × Int := if t.isSigned then (-2 ^ (t.elemBits - 1), 2 ^ (t.elemBits - 1) - 1) else (0, 2 ^ t.elemBits - 1)

/-- A number moved into the range of an element (R84). -/
def elemClamp (t : Tag) (x : Int) : Int := max (elemRange t).1 (min x (elemRange t).2)

/-- VADD to VMULHN, VMIN to VMAXN, VADDS, VSUBS, VADDA (R84, R145). -/
def vectorRows : List VectorRow := [
  { word := .vadd, val := fun _ x y => (x : Int) + y },
  { word := .vsub, val := fun _ x y => (x : Int) - y },
  { word := .vmul, val := fun _ x y => (x : Int) * y },
  { word := .vmulh, val := fun t x y => signedOf t.elemBits x * signedOf t.elemBits y / 2 ^ t.elemBits },
  { word := .vmulhn, val := fun t x y => (x : Int) * y / 2 ^ t.elemBits },
  { word := .vmin, val := fun t x y => min (signedOf t.elemBits x) (signedOf t.elemBits y) },
  { word := .vmax, val := fun t x y => max (signedOf t.elemBits x) (signedOf t.elemBits y) },
  { word := .vminn, val := fun _ x y => (min x y : Nat) },
  { word := .vmaxn, val := fun _ x y => (max x y : Nat) },
  { word := .vadds, val := fun t x y => elemClamp t (elemInt t x + elemInt t y) },
  { word := .vsubs, val := fun t x y => elemClamp t (elemInt t x - elemInt t y) },
  { word := .vadda, val := fun t x y => (x : Int) + (signedOf t.elemBits y).natAbs } ]

/-- The value of a tag whose elements are the given integers, each modulo the element's range. -/
def elements (t : Tag) (xs : List Int) : RegVal := mkElems t (xs.map (wrapTo t.elemBits))

/-- The bitwise words, on the 64 bits (for a 32-bit tag the low 32) of A and B (R145). -/
def bitRows : List ((BitVec 1 → BitVec 6 → BitVec 6 → BitVec 6 → Instr) × (DWord → DWord → DWord)) := [
  (.vand, fun x y => x &&& y), (.vor, fun x y => x ||| y), (.vxor, fun x y => x ^^^ y), (.vandn, fun x y => x &&& ~~~y) ]

/-- The shifts of an element by a count below its width (R145). -/
def shiftRows : List ((BitVec 1 → BitVec 6 → BitVec 6 → BitVec 6 → Instr) × (Tag → Nat → Nat → Int)) := [
  (.vshl, fun _ x n => (x : Int) * 2 ^ n), (.vshr, fun _ x n => (x : Int) / 2 ^ n), (.vsra, fun t x n => signedOf t.elemBits x / 2 ^ n) ]

/-- The words on the elements of A alone: the constructor, the tags it accepts, its result tag, and each element (R145). -/
def unaryRows : List ((BitVec 1 → BitVec 6 → BitVec 6 → BitVec 6 → Instr) × (Tag → Bool) × (Tag → Tag) × (Tag → Nat → Int)) := [
  (.vabs, Tag.anyInt, id, fun t x => (signedOf t.elemBits x).natAbs),
  (.vneg, Tag.anyInt, id, fun _ x => -(x : Int)),
  (.vclz, Tag.anyIntM, countTag, fun t x => if x = 0 then t.elemBits else t.elemBits - 1 - Nat.log2 x),
  (.vpopc, Tag.anyIntM, countTag, fun t x => ((List.range t.elemBits).countP fun i => x.testBit i : Nat)) ]

/-- The words of VINTI with an immediate (R148): the constructor, the tags of A, and each element from the tag, the element and the immediate, as a number and modulo the element's range. -/
def vectorImmRows : List ((BitVec 1 → BitVec 6 → BitVec 6 → BitVec 10 → Instr) × (Tag → Bool) × (Nat → Nat → Int → Int)) := [
  (.vaddi, Tag.anyInt, fun x _ i => (x : Int) + i),
  (.vandi, Tag.clean, fun x n _ => (x &&& n : Nat)),
  (.vori, Tag.clean, fun x n _ => (x ||| n : Nat)),
  (.vxori, Tag.clean, fun x n _ => (x ^^^ n : Nat)),
  (.vmuli, Tag.anyInt, fun x _ i => (x : Int) * i) ]

/-- The immediate shifts of VINTI (R148). -/
def vectorShiftImmRows : List ((BitVec 1 → BitVec 6 → BitVec 6 → BitVec 6 → Instr) × (Tag → Nat → Nat → Int)) := [
  (.vshli, fun _ x n => (x : Int) * 2 ^ n), (.vshri, fun _ x n => (x : Int) / 2 ^ n), (.vsrai, fun t x n => signedOf t.elemBits x / 2 ^ n) ]

/-- A vector word runs and pushes: for operands that pass their checks it pushes, and writes to its destination, f of the operands of each active lane (R43, R138). -/
def Pushes (i : Instr) (s : State) (c : Ctx) (d : BitVec 6) (codes : List (BitVec 6)) (tags : List RegVal → Option (Nat × Tag))
    (f : List RegVal → RegVal) : Prop :=
  Ready s i c → ∀ o, c.go.vecOperands (s.atEffect i c) (some d) codes tags = .ok o →
    exec i s = .next (s.behind (o.state.pushWrite c d (o.vals.map fun x => (x.1, f x.2))) c)

end Sys2Proof.Statements

/-- R83, R84, R145: the twelve VINT words on two operands of one integer or packed integer tag. Each pushes, for every active lane, the value whose elements are those of R145, each modulo 2^e; VADDS and VSUBS clamp to the tag's range. -/
def Obligations.VectorElementResults : Prop :=
  ∀ r ∈ vectorRows, ∀ (s : State) (c : Ctx) (ch : BitVec 1) (d a b : BitVec 6),
    Pushes (r.word ch d a b) s c d [a, b] (sameTag Tag.anyInt) fun vs =>
      elements (opnd vs 0).tag (List.zipWith (r.val (opnd vs 0).tag) (elemsOf (opnd vs 0).tag (opnd vs 0).bits) (elemsOf (opnd vs 0).tag (opnd vs 1).bits))

namespace Sys2Proof.Statements

/-! ### Floating-point words -/

/-- The flags that FPX is enabled for meet none of the given ones, or the word is a handler's, where FPX is not taken (R92, R369). -/
def noFpx (c : Ctx) (f : Flags) : Prop := c.handler = true ∨ f &&& c.regs.fptrap.extractLsb' 0 5 = 0

/-- A floating-point word runs and pushes: with operands that pass their checks and no enabled flag raised, it pushes and writes f's value for each active lane and merges the flags of all of them into %fpflags (R92, R142). -/
def PushesFp (i : Instr) (s : State) (c : Ctx) (d : BitVec 6) (codes : List (BitVec 6)) (tags : List RegVal → Option (Nat × Tag))
    (f : List RegVal → RegVal × Flags) : Prop :=
  Ready s i c → ∀ o, c.go.vecOperands (s.atEffect i c) (some d) codes tags = .ok o →
    noFpx c (orFlags (o.vals.map fun x => (f x.2).2)) →
    exec i s = .next (s.behind ((o.state.pushWrite c d (o.vals.map fun x => (x.1, (f x.2).1))).mergeFlags c.cid
      (orFlags (o.vals.map fun x => (f x.2).2))) c)

/-- A float operation on the elements of one value: its elements' results, and the flags of all of them. -/
def onElems (t : Tag) (rs : List (Nat × Flags)) : RegVal × Flags := (mkElems t (rs.map Prod.fst), orFlags (rs.map Prod.snd))

/-- The value of a float element as a word reads it: flushed under FTZ (R90). -/
def floatIn (f : FloatFmt) (ftz : Bool) (x : Nat) : Machine.Num := f.read (f.flush ftz x)

/-- One rounding of an exact value to a format (R85, R86, R89-R91), with the NV of the operation and that of a signalling NaN among the operands (R91). -/
def rounded (f : FloatFmt) (m : RMode) (ftz : Bool) (ops : List Machine.Num) (r : Machine.Num × Flags) : Nat × Flags :=
  ((f.ofNum m false ftz r.1).1, (f.ofNum m false ftz r.1).2 ||| r.2 ||| if ops.any Machine.Num.isSnan then fNV else 0)

/-- FADD, FSUB and FMUL as R150 gives them: the exact sum, difference or product. -/
def arithRows : List ((BitVec 1 → BitVec 6 → BitVec 6 → BitVec 6 → BitVec 2 → Instr) × (RMode → Machine.Num → Machine.Num → Machine.Num × Flags)) := [
  (.fadd, fun m x y => sumNums m [x, y]), (.fsub, fun m x y => sumNums m [x, y.negate]), (.fmul, fun _ x y => x.mul y) ]

/-- FMIN, FMAX, FMINNUM and FMAXNUM: the constructor, whether the larger is wanted, and whether one NaN gives way to the other operand (R150). -/
def pickRows : List ((BitVec 1 → BitVec 6 → BitVec 6 → BitVec 6 → Instr) × Bool × Bool) := [
  (.fmin, false, false), (.fmax, true, false), (.fminnum, false, true), (.fmaxnum, true, true) ]

/-- What FMIN, FMAX, FMINNUM and FMAXNUM return of two elements as read (R150): never a rounding, a canonical NaN where R150 says so. -/
def pickElem (f : FloatFmt) (ftz larger num : Bool) (a b : Nat) : Nat × Flags :=
  let x := floatIn f ftz a
  let y := floatIn f ftz b
  (if x.isNan = true ∧ y.isNan = true then f.nan
    else if x.isNan = true then (if num then f.flush ftz b else f.nan)
    else if y.isNan = true then (if num then f.flush ftz a else f.nan)
    else if larger = true then (if x.below y then f.flush ftz b else f.flush ftz a)
    else (if y.below x then f.flush ftz b else f.flush ftz a),
   if x.isSnan || y.isSnan then fNV else 0)

/-- The words of VSFU (R153). -/
def specialRows : List ((BitVec 1 → BitVec 6 → BitVec 6 → BitVec 6 → Instr) × SfuOp) := [
  (.frcp, .rcp), (.frsq, .rsq), (.fexp2, .exp2), (.flog2, .log2), (.fsinpi, .sinpi), (.fcospi, .cospi), (.ftanh, .tanh) ]

/-- The fused multiply-adds: the constructor, and whether the addend is negated (R151). -/
def fusedRows : List ((BitVec 1 → BitVec 6 → BitVec 6 → BitVec 6 → BitVec 6 → BitVec 1 → Instr) × Bool) := [(.ffma, false), (.ffman, true)]

/-- A value with its sign changed where n holds. -/
def signed (n : Bool) (x : Machine.Num) : Machine.Num := if n then x.negate else x

/-- NV for a signalling NaN among operands given as patterns (R79). -/
def snanOf (f : FloatFmt) (xs : List Nat) : Flags := if xs.any (fun x => (f.read x).isSnan) then fNV else 0

/-- R85: what the integer k that a mode chooses for m in units of u, of a value of the given sign, has to be: the nearest one, on a tie the even one, under RNE; under RTZ, RDN and RUP the nearest one on the side of the mode; under round-to-odd the exact one or an odd neighbour. -/
def RoundsTo (mode : RMode) (neg : Bool) (m u k : Nat) : Prop :=
  match mode with
  | .rne => 2 * m ≤ (2 * k + 1) * u ∧ 2 * k * u ≤ 2 * m + u ∧ (2 * m = (2 * k + 1) * u ∨ 2 * k * u = 2 * m + u → k % 2 = 0)
  | .rtz => k * u ≤ m ∧ m < (k + 1) * u
  | .rdn => if neg then m ≤ k * u ∧ k * u < m + u else k * u ≤ m ∧ m < (k + 1) * u
  | .rup => if neg then k * u ≤ m ∧ m < (k + 1) * u else m ≤ k * u ∧ k * u < m + u
  | .odd => k * u = m ∨ (k % 2 = 1 ∧ k * u < m + u ∧ m < (k + 1) * u)

/-- R85, R86, R90, R91: the value (-1)^neg × m × 2^e, m not zero, is rounded once to a format: r is the magnitude in units of the format's last place with an unbounded exponent; beyond the largest finite value it overflows;
below the smallest normal value it is rounded in units of the smallest subnormal, or flushed under FTZ; NX where the rounding is inexact, UF where it is so below the smallest normal value. -/
def RoundsOnce (f : FloatFmt) (mode : RMode) (sat ftz neg : Bool) (m : Nat) (e : Int) (r : Nat × Flags) : Prop :=
  let place : Int := e + Nat.log2 m - f.manBits
  let wide := (roundMag mode neg m e place).1
  let q := max place f.minExp
  let fine := roundMag mode neg m e q
  let overflow := magLt (2 ^ f.manBits + f.maxBits % 2 ^ f.manBits) (f.minExp + (f.maxBits / 2 ^ f.manBits : Nat) - 1) wide place
  let tiny := magLt wide place (2 ^ f.manBits) f.minExp
  (overflow = true → r = (if overflowInf mode neg = true ∧ sat = false then f.infinity neg else f.withSign neg f.maxBits, fOF ||| fNX))
  ∧ (overflow = false → tiny = true → ftz = true → r = (f.zeroBits neg, fUF ||| fNX))
  ∧ (overflow = false → (tiny = false ∨ ftz = false) →
      r = (f.withSign neg ((q - f.minExp).toNat * 2 ^ f.manBits + fine.1), (if fine.2 then fNX else 0) ||| if fine.2 = true ∧ tiny = true then fUF else 0))

/-- Twice a whole part, with 1 in the lowest place where something remains: what is rounded below it is rounded as the exact value is. -/
def sticky (k : Nat) (exact : Prop) [Decidable exact] : Nat := 2 * k + if exact then 0 else 1

/-- The integers of a width and signedness, from the least to the greatest (R83, R84). -/
def intMin (w : Nat) (signed : Bool) : Int := if signed then -(2 ^ (w - 1) : Nat) else 0

/-- The greatest integer of a width and signedness (R83, R84). -/
def intMax (w : Nat) (signed : Bool) : Int := if signed then (2 ^ (w - 1) : Nat) - 1 else (2 ^ w : Nat) - 1

/-- The canonical TT8 byte of a magnitude in units of 2^-6, of the given sign (R81). -/
def canonTt8 (neg : Bool) (k : Nat) : Nat := (tt8Canonical (if neg then -(k : Int) else k)).getD 0x77

end Sys2Proof.Statements

/-- R85-R92, R142, R150, R151: FADD, FSUB, FMUL, FFMA and FFMAN round the exact result of the elements as read once, in the mode of the rounding field or %fpmode.RM; FDIV and FSQRT give fDiv and fSqrt of each element;
the flags of all elements of all active lanes are merged. Below the words: what one rounding gives, in units and as a pattern; that sumNums is the exact sum, with the signs of a zero; and what fDiv and fSqrt are of any operands:
the special cases, and otherwise one rounding of the quotient or root carried to more places than any format has, with a lowest place that says whether anything remains. -/
def Obligations.FloatArithmeticResults : Prop :=
  (∀ r ∈ arithRows, ∀ (s : State) (c : Ctx) (ch : BitVec 1) (d a b : BitVec 6) (m : BitVec 2),
    PushesFp (r.1 ch d a b m) s c d [a, b] (sameTag Tag.isFloat) fun vs =>
      let t := (opnd vs 0).tag
      let mode := c.regs.roundField m
      onElems t (List.zipWith (fun x y =>
        rounded t.fmt mode c.regs.ftz [floatIn t.fmt c.regs.ftz x, floatIn t.fmt c.regs.ftz y]
          (r.2 mode (floatIn t.fmt c.regs.ftz x) (floatIn t.fmt c.regs.ftz y))) (elemsOf t (opnd vs 0).bits) (elemsOf t (opnd vs 1).bits)))
  ∧ (∀ (s : State) (c : Ctx) (ch : BitVec 1) (d a b : BitVec 6) (m : BitVec 2),
    PushesFp (.fdiv ch d a b m) s c d [a, b] (sameTag Tag.isFloat) fun vs =>
      let t := (opnd vs 0).tag
      onElems t (List.zipWith (fDiv t.fmt (c.regs.roundField m) c.regs.ftz) (elemsOf t (opnd vs 0).bits) (elemsOf t (opnd vs 1).bits)))
  ∧ (∀ (s : State) (c : Ctx) (ch : BitVec 1) (d a b : BitVec 6) (m : BitVec 2),
    PushesFp (.fsqrt ch d a b m) s c d [a] (sameTag Tag.isFloat) fun vs =>
      let t := (opnd vs 0).tag
      onElems t ((elemsOf t (opnd vs 0).bits).map (fSqrt t.fmt (c.regs.roundField m) c.regs.ftz)))
  ∧ (∀ r ∈ fusedRows, ∀ (s : State) (c : Ctx) (ch : BitVec 1) (d a b e : BitVec 6) (x : BitVec 1),
    PushesFp (r.1 ch d a b e x) s c d [a, b, e] (sameTag Tag.isFloat) fun vs =>
      let t := (opnd vs 0).tag
      let es (k : Nat) : List Machine.Num := (elemsOf t (opnd vs k).bits).map (floatIn t.fmt c.regs.ftz)
      onElems t (((es 0).zip (es 1)).zipWith (fun p z =>
        rounded t.fmt c.regs.rm c.regs.ftz [p.1, p.2, z]
          ((sumNums c.regs.rm [signed (x == 1) (p.1.mul p.2).1, signed r.2 z]).1,
           (sumNums c.regs.rm [signed (x == 1) (p.1.mul p.2).1, signed r.2 z]).2 ||| (p.1.mul p.2).2)) (es 2)))
  ∧ (∀ (mode : RMode) (neg : Bool) (m : Nat) (e q : Int),
      (q ≤ e → roundMag mode neg m e q = (m * 2 ^ (e - q).toNat, false))
      ∧ (e < q → RoundsTo mode neg m (2 ^ (q - e).toNat) (roundMag mode neg m e q).1
        ∧ ((roundMag mode neg m e q).2 = false ↔ (roundMag mode neg m e q).1 * 2 ^ (q - e).toNat = m)))
  ∧ (∀ (f : FloatFmt) (mode : RMode) (sat ftz neg : Bool) (m : Nat) (e : Int), RoundsOnce f mode sat ftz neg m e (f.roundPos mode sat ftz neg m e))
  ∧ (∀ (mode : RMode) (ts : List Machine.Num),
      (.inf false ∈ ts → .inf true ∈ ts → sumNums mode ts = (.nan false, fNV))
      ∧ (∀ b : Int, b ≤ 0 → (∀ t ∈ ts, ∃ n m e, t = .fin n m e ∧ b ≤ e) →
          (∃ n m e, (sumNums mode ts).1 = .fin n m e) ∧ (sumNums mode ts).1.toInt b = (ts.map (Machine.Num.toInt b)).sum ∧ (sumNums mode ts).2 = 0
          ∧ ((ts.map (Machine.Num.toInt b)).sum = 0 →
            (sumNums mode ts).1 = .zero (if ∀ t ∈ ts, t.isZero = true ∧ t.neg? = true then true
              else if ∀ t ∈ ts, t.isZero = true ∧ t.neg? = false then false else mode == .rdn))))
  ∧ (∀ (f : FloatFmt) (mode : RMode) (ftz : Bool) (a b : Nat) (s t : Bool) (m n : Nat) (e k : Int),
      let x := floatIn f ftz a
      let y := floatIn f ftz b
      (x = .inf s → y = .inf t → fDiv f mode ftz a b = (f.nan, fNV))
      ∧ (x = .inf s → y = .fin t n k → fDiv f mode ftz a b = (f.infinity (s != t), 0))
      ∧ (x = .fin s m e → y = .inf t → fDiv f mode ftz a b = (f.zeroBits (s != t), 0))
      ∧ (x = .fin s 0 e → y = .fin t 0 k → fDiv f mode ftz a b = (f.nan, fNV))
      ∧ (x = .fin s m e → m ≠ 0 → y = .fin t 0 k → fDiv f mode ftz a b = (f.infinity (s != t), fDZ))
      ∧ (x = .fin s 0 e → y = .fin t n k → n ≠ 0 → fDiv f mode ftz a b = (f.zeroBits (s != t), 0))
      ∧ (x = .fin s m e → m ≠ 0 → y = .fin t n k → n ≠ 0 →
        let j := 64 + Nat.log2 n
        fDiv f mode ftz a b = f.roundPos mode false ftz (s != t) (sticky (m * 2 ^ j / n) (n ∣ m * 2 ^ j)) (e - k - j - 1)))
  ∧ (∀ (f : FloatFmt) (mode : RMode) (ftz : Bool) (a : Nat) (s : Bool) (m : Nat) (e : Int),
      let x := floatIn f ftz a
      (x = .inf s → fSqrt f mode ftz a = if s then (f.nan, fNV) else (f.infinity false, 0))
      ∧ (x = .fin s 0 e → fSqrt f mode ftz a = (f.zeroBits s, 0))
      ∧ (x = .fin true m e → m ≠ 0 → fSqrt f mode ftz a = (f.nan, fNV))
      ∧ (x = .fin false m e → m ≠ 0 → ∀ r, let j := 128 + ((e - 128) % 2).toNat
        r * r ≤ m * 2 ^ j → m * 2 ^ j < (r + 1) * (r + 1) →
        fSqrt f mode ftz a = f.roundPos mode false ftz false (sticky r (r * r = m * 2 ^ j)) ((e - j) / 2 - 1)))

/-- R150, R153: the floating-point words that do not round in the word's mode: FMIN, FMAX, FMINNUM and FMAXNUM return one of their operands as read or the canonical NaN;
FABS, FNEG and FCOPYSIGN change the sign bit alone, unflushed and without a flag; the VSFU words give fSfu of each element.
Below the words: what fSfu is of a NaN, of infinities and zeros (the table of R93), of every operand for FRCP and FRSQ, and for the other five wherever the exact result is a number that the format's rounding takes exactly as it stands:
2 to a whole power and beyond the formats' ranges, the logarithm of a power of two, and sin and cos of π at whole and half arguments. What the five return between these is the value rounded once, which log 10 marks and no clause here states. -/
def Obligations.FloatSelectionResults : Prop :=
  (∀ r ∈ pickRows, ∀ (s : State) (c : Ctx) (ch : BitVec 1) (d a b : BitVec 6),
    PushesFp (r.1 ch d a b) s c d [a, b] (sameTag Tag.isFloat) fun vs =>
      let t := (opnd vs 0).tag
      onElems t (List.zipWith (pickElem t.fmt c.regs.ftz r.2.1 r.2.2) (elemsOf t (opnd vs 0).bits) (elemsOf t (opnd vs 1).bits)))
  ∧ (∀ (s : State) (c : Ctx) (ch : BitVec 1) (d a b : BitVec 6),
    PushesFp (.fabs ch d a b) s c d [a] (sameTag Tag.isFloat) fun vs =>
      let t := (opnd vs 0).tag
      (mkElems t ((elemsOf t (opnd vs 0).bits).map fun x => x % t.fmt.signBit), 0))
  ∧ (∀ (s : State) (c : Ctx) (ch : BitVec 1) (d a b : BitVec 6),
    PushesFp (.fneg ch d a b) s c d [a] (sameTag Tag.isFloat) fun vs =>
      let t := (opnd vs 0).tag
      (mkElems t ((elemsOf t (opnd vs 0).bits).map fun x => x ^^^ t.fmt.signBit), 0))
  ∧ (∀ (s : State) (c : Ctx) (ch : BitVec 1) (d a b : BitVec 6),
    PushesFp (.fcopysign ch d a b) s c d [a, b] (sameTag Tag.isFloat) fun vs =>
      let t := (opnd vs 0).tag
      (mkElems t (List.zipWith (fun x y => x % t.fmt.signBit + y / t.fmt.signBit * t.fmt.signBit)
        (elemsOf t (opnd vs 0).bits) (elemsOf t (opnd vs 1).bits)), 0))
  ∧ (∀ r ∈ specialRows, ∀ (s : State) (c : Ctx) (ch : BitVec 1) (d a b : BitVec 6),
    PushesFp (r.1 ch d a b) s c d [a] (sameTag Tag.isFloat) fun vs =>
      let t := (opnd vs 0).tag
      onElems t ((elemsOf t (opnd vs 0).bits).map (fSfu t.fmt r.2 c.regs.ftz)))
  ∧ (∀ (f : FloatFmt) (ftz : Bool) (a : Nat), (f.read a).isNan = true → ∀ op, fSfu f op ftz a = (f.nan, snanOf f [a]))
  ∧ (∀ (f : FloatFmt) (ftz : Bool) (a : Nat) (s : Bool), floatIn f ftz a = .inf s →
      fSfu f .rcp ftz a = (f.zeroBits s, 0)
      ∧ fSfu f .rsq ftz a = (if s then (f.nan, fNV) else (0, 0))
      ∧ fSfu f .exp2 ftz a = (if s then (0, 0) else (f.infinity false, 0))
      ∧ fSfu f .log2 ftz a = (if s then (f.nan, fNV) else (f.infinity false, 0))
      ∧ fSfu f .sinpi ftz a = (f.nan, fNV) ∧ fSfu f .cospi ftz a = (f.nan, fNV)
      ∧ fSfu f .tanh ftz a = f.roundPos .rne false ftz s 1 0)
  ∧ (∀ (f : FloatFmt) (ftz : Bool) (a : Nat) (s : Bool) (e : Int), floatIn f ftz a = .fin s 0 e →
      fSfu f .rcp ftz a = (f.infinity s, fDZ) ∧ fSfu f .rsq ftz a = (f.infinity s, fDZ)
      ∧ fSfu f .exp2 ftz a = f.roundPos .rne false ftz false 1 0 ∧ fSfu f .log2 ftz a = (f.infinity true, fDZ)
      ∧ fSfu f .sinpi ftz a = (f.zeroBits s, 0) ∧ fSfu f .cospi ftz a = f.roundPos .rne false ftz false 1 0
      ∧ fSfu f .tanh ftz a = (f.zeroBits s, 0))
  ∧ (∀ (f : FloatFmt) (ftz : Bool) (a : Nat) (s : Bool) (m : Nat) (e : Int), floatIn f ftz a = .fin s m e → m ≠ 0 →
      (let j := 64 + Nat.log2 m
       fSfu f .rcp ftz a = f.roundPos .rne false ftz s (sticky (2 ^ j / m) (m ∣ 2 ^ j)) (-e - j - 1))
      ∧ (s = true → fSfu f .rsq ftz a = (f.nan, fNV) ∧ fSfu f .log2 ftz a = (f.nan, fNV))
      ∧ (s = false → ∀ r, let j := 256 + 2 * Nat.log2 m + ((e + 256) % 2).toNat
          r * r * m ≤ 2 ^ j → 2 ^ j < (r + 1) * (r + 1) * m →
          fSfu f .rsq ftz a = f.roundPos .rne false ftz false (sticky r (r * r * m = 2 ^ j)) (-(e + j) / 2 - 1))
      ∧ (∀ w : Nat, m * 2 ^ e.toNat = w * 2 ^ (-e).toNat → w < 4096 →
          fSfu f .exp2 ftz a = f.roundPos .rne false ftz false 1 (if s then -(w : Int) else w))
      ∧ (4096 * 2 ^ (-e).toNat ≤ m * 2 ^ e.toNat →
          fSfu f .exp2 ftz a = if s then (0, fUF ||| fNX) else (f.infinity false, fOF ||| fNX))
      ∧ (∀ k : Nat, s = false → m = 2 ^ k → fSfu f .log2 ftz a = f.ofNum .rne false ftz (.fin (decide (e + k < 0)) (e + k).natAbs 0))
      ∧ (∀ h : Nat, m * 2 ^ e.toNat * 2 = h * 2 ^ (-e).toNat →
          fSfu f .sinpi ftz a = (if h % 2 = 0 then (f.zeroBits s, 0) else f.roundPos .rne false ftz (s != (h % 4 == 3)) 1 0)
          ∧ fSfu f .cospi ftz a = (if h % 2 = 0 then f.roundPos .rne false ftz (h % 4 == 2) 1 0 else (0, 0))))

/-- R154, R155, R158: the conversions and the short dot products. VCVT converts the elements of part P, or puts its elements at part P between +0 elements; VDOT adds to C the products of the elements, negated with X, and rounds once, or adds modulo 2^32 for integer elements.
Below the words: what convert gives from any format to any other: between integers; from a floating-point format to an integer; to a floating-point format; to TT8; and that dotF32 rounds the exact sum of C and the products once. -/
def Obligations.ConversionAndDotResults : Prop :=
  (∀ (s : State) (c : Ctx) (ch : BitVec 1) (d a : BitVec 6) (p : BitVec 3) (t : BitVec 4) (m : BitVec 2) (x : BitVec 1),
    PushesFp (.vcvt ch d a p t m x) s c d [a] (cvtBad (Tag.ofCode t.toNat) p.toNat) fun vs =>
      let u := (opnd vs 0).tag
      let t := Tag.ofCode t.toNat
      let conv := convert (u.elemFmt.getD .tt8) (t.elemFmt.getD .tt8) (c.regs.cvtMode m) (x == 1) c.regs.ftz
      let es := elemsOf u (opnd vs 0).bits
      let P := p.toNat
      onElems t ((List.range t.elemCount).map fun i =>
        if t.elemCount ≤ u.elemCount then conv (es.getD (P * t.elemCount + i) 0)
        else if P * u.elemCount ≤ i ∧ i < (P + 1) * u.elemCount then conv (es.getD (i - P * u.elemCount) 0)
        else (t.zeroElem, 0)))
  ∧ (∀ (s : State) (c : Ctx) (ch : BitVec 1) (d a b e : BitVec 6) (x : BitVec 1),
    PushesFp (.vdot ch d a b e x) s c d [a, b, e] dotBad fun vs =>
      let ta := (opnd vs 0).tag
      let tb := (opnd vs 1).tag
      let as := elemsOf ta (opnd vs 0).bits
      let bs := elemsOf tb (opnd vs 1).bits
      if ta.isPackedInt then
        let sum : Int := (List.zipWith (fun u v => signedOf ta.elemBits u * signedOf ta.elemBits v) as bs).sum
        (mkVal .i32 (wrapTo 32 (((opnd vs 2).low 32 : Nat) + if x = 1 then -sum else sum)), 0)
      else
        let r := dotF32 c.regs.rm c.regs.ftz (x == 1) (ta.elemFmt.getD .tt8) (tb.elemFmt.getD .tt8) ((opnd vs 2).low 32) as bs
        (mkVal .f32 r.1, r.2))
  ∧ (∀ (sw w : Nat) (g h sat ftz : Bool) (mode : RMode) (x : Nat),
      let v : Int := if g then signedOf sw (x % 2 ^ sw) else (x % 2 ^ sw : Nat)
      convert (.int sw g) (.int w h) mode sat ftz x =
        (if sat = true ∧ w ≤ sw then wrapTo w (max (intMin w h) (min (intMax w h) v)) else wrapTo w v, 0))
  ∧ (∀ (src : ElemFmt) (w : Nat) (h sat ftz : Bool) (mode : RMode) (x : Nat), (∀ v g, src ≠ .int v g) → 0 < w → w ≤ 64 →
      ((src.read ftz x).isNan = true → convert src (.int w h) mode sat ftz x = (0, fNV))
      ∧ (∀ n, src.read ftz x = .inf n → convert src (.int w h) mode sat ftz x = (wrapTo w (if n then intMin w h else intMax w h), fNV))
      ∧ (∀ n m e, src.read ftz x = .fin n m e →
          let r := roundMag mode n m e 0
          let v : Int := if n then -(r.1 : Int) else r.1
          convert src (.int w h) mode sat ftz x =
            if intMin w h ≤ v ∧ v ≤ intMax w h then (wrapTo w v, if r.2 then fNX else 0)
            else (wrapTo w (if n then intMin w h else intMax w h), fNV)))
  ∧ (∀ (src : ElemFmt) (f : FloatFmt) (sat ftz : Bool) (mode : RMode) (x : Nat),
      (∀ q, src.read ftz x = .nan q → convert src (.float f) mode sat ftz x = (f.nan, if q then fNV else 0))
      ∧ (∀ n, src.read ftz x = .inf n → convert src (.float f) mode sat ftz x =
          if sat then (f.withSign n f.maxBits, fNX) else (f.infinity n, if f = .e4m3 then fNV else 0))
      ∧ (∀ n m e, src.read ftz x = .fin n m e → convert src (.float f) mode sat ftz x =
          if m = 0 then (f.zeroBits n, 0) else f.roundPos mode sat ftz n m e))
  ∧ (∀ (src : ElemFmt) (sat ftz : Bool) (mode : RMode) (x : Nat), mode ≠ .odd →
      (∀ q, src.read ftz x = .nan q → convert src .tt8 mode sat ftz x = (0xF7, if q then fNV else 0))
      ∧ (∀ n, src.read ftz x = .inf n → convert src .tt8 mode sat ftz x =
          if sat then (if n then 0x88 else 0x00, fOF ||| fNX) else (0xF7, fNV))
      ∧ (∀ n m e, src.read ftz x = .fin n m e →
          (magLt 2 0 m e = true →
            convert src .tt8 mode sat ftz x =
              if mode = .rtz ∨ (mode = .rdn ∧ n = false) ∨ (mode = .rup ∧ n = true) then (if n then 0x88 else 0x00, fNX)
              else if sat then (if n then 0x88 else 0x00, fOF ||| fNX) else (0xF7, fNV))
          ∧ (∀ k ∈ tt8Mags, magLt k (-6) m e = false → magLt m e k (-6) = false → convert src .tt8 mode sat ftz x = (canonTt8 n k, 0))
          ∧ (∀ i lo hi, tt8Mags[i]? = some lo → tt8Mags[i + 1]? = some hi → magLt lo (-6) m e = true → magLt m e hi (-6) = true →
              convert src .tt8 mode sat ftz x =
                (canonTt8 n (if (mode = .rne ∧ magLt (lo + hi) (-6) (2 * m) e = true) ∨ (mode = .rup ∧ n = false) ∨ (mode = .rdn ∧ n = true) then hi else lo), fNX))))
  ∧ (∀ n, ∀ k ∈ tt8Mags, tt8Read (canonTt8 n k) = .fin (n && k != 0) k (-6) ∧ canonTt8 n k < 256 ∧ canonTt8 n k ≠ 0xF7
      ∧ (k ≠ 0 → ∀ b < canonTt8 n k, b ≠ 0xF7 → tt8Read b ≠ .fin n k (-6)))
  ∧ (∀ (mode : RMode) (ftz np : Bool) (ga gb : ElemFmt) (z : Nat) (as bs : List Nat),
      let xs := as.map (ga.read ftz)
      let ys := bs.map (gb.read ftz)
      let ps := List.zipWith Machine.Num.mul xs ys
      let sum := sumNums mode (floatIn .f32 ftz z :: ps.map fun p => signed np p.1)
      dotF32 mode ftz np ga gb z as bs = rounded .f32 mode ftz (floatIn .f32 ftz z :: (xs ++ ys)) (sum.1, sum.2 ||| orFlags (ps.map Prod.snd)))

/-- R77, R79, R89, R91: every addition, subtraction, multiplication, division, square root and fused multiply-add with a NaN operand, whatever the other operands are, gives the canonical NaN of the format, and raises NV for a signalling NaN among the operands;
a fused multiply-add whose addend is a NaN raises NV also where its product is 0 × infinity. -/
def Obligations.NanOperandsGiveCanonicalNan : Prop :=
  ∀ (f : FloatFmt) (m : RMode) (ftz : Bool) (a : Nat), (f.read a).isNan = true →
    fSqrt f m ftz a = (f.nan, snanOf f [a])
    ∧ ∀ b,
      fAdd f m ftz a b = (f.nan, snanOf f [a, b]) ∧ fAdd f m ftz b a = (f.nan, snanOf f [a, b])
      ∧ fSub f m ftz a b = (f.nan, snanOf f [a, b]) ∧ fSub f m ftz b a = (f.nan, snanOf f [a, b])
      ∧ fMul f m ftz a b = (f.nan, snanOf f [a, b]) ∧ fMul f m ftz b a = (f.nan, snanOf f [a, b])
      ∧ fDiv f m ftz a b = (f.nan, snanOf f [a, b]) ∧ fDiv f m ftz b a = (f.nan, snanOf f [a, b])
      ∧ ∀ (np nc : Bool) (c : Nat),
        fFma f m ftz np nc a b c = (f.nan, snanOf f [a, b, c]) ∧ fFma f m ftz np nc b a c = (f.nan, snanOf f [a, b, c])
        ∧ fFma f m ftz np nc b c a = (f.nan, snanOf f [a, b, c] ||| ((floatIn f ftz b).mul (floatIn f ftz c)).2)

/-- R159, R160, R157, R146: the predicate words, the transfers between crew and lanes, VSEL and VBFI. -/
def Obligations.PredicateAndTransferResults : Prop :=
  (∀ r ∈ [((.pand : BitVec 1 → BitVec 3 → BitVec 3 → BitVec 3 → Instr), fun x y => x && y), (.por, fun x y => x || y),
      (.pxor, fun x y => Bool.xor x y), (.pandn, fun x y => x && !y)],
    ∀ (s : State) (c : Ctx) (ch : BitVec 1) (d a b : BitVec 3), Ready s (r.1 ch d a b) c →
      Runs (r.1 ch d a b) s c fun t => t.writeP c d.toNat (c.active.map fun l =>
        (l, r.2 ((c.regs.lane l).getP a.toNat) ((c.regs.lane l).getP b.toNat))))
  ∧ (∀ (s : State) (c : Ctx) (ch : BitVec 1) (d : BitVec 6), Ready s (.ptov ch d) c → c.badDst (Dst.ofCode d) = false →
    Runs (.ptov ch d) s c fun t => t.pushWrite c d (c.active.map fun l =>
      (l, { bits := ((c.regs.lane l).p ||| 1).zeroExtend 64, tag := .n32 })))
  ∧ (∀ (s : State) (c : Ctx) (ch : BitVec 1) (a : BitVec 6), Ready s (.vtop ch a) c →
    ∀ o, c.go.vecOperands (s.atEffect (.vtop ch a) c) none [a] (sameTag Tag.isInt) = .ok o →
    exec (.vtop ch a) s = .next (s.behind ((List.range 8).foldl (fun u k =>
      u.writeP c k (o.vals.map fun v => (v.1, (opnd v.2 0).bits.getLsbD k))) o.state) c))
  ∧ (∀ (s : State) (c : Ctx) (ch : BitVec 1) (d : BitVec 5) (k : BitVec 6), Ready s (.vtos ch d k) c →
    (c.active = [] → Runs (.vtos ch d k) s c id)
    ∧ (∀ (l : Nat) (ls : List Nat) (o : Operands), c.active = l :: ls → c.badSrc (Src.ofCode k) = false →
      ({ c.go with active := [l] } : Ctx).operands (s.atEffect (.vtos ch d k) c) [k] = .ok o →
      (opnd ((tget o.vals l).getD []) 0).tag ≠ .poison →
      exec (.vtos ch d k) s = .next (s.behind (o.state.writeS c d (opnd ((tget o.vals l).getD []) 0)) c)))
  ∧ (∀ (s : State) (c : Ctx) (ch : BitVec 1) (d : BitVec 6) (a : BitVec 5), Ready s (.stov ch d a) c → c.badDst (Dst.ofCode d) = false →
    (c.active = [] ∨ (c.getS a).tag ≠ .poison) →
    Runs (.stov ch d a) s c fun t => t.pushWrite c d (c.active.map fun l => (l, c.getS a)))
  ∧ (∀ (s : State) (c : Ctx) (ch : BitVec 1) (d a : BitVec 6) (t : BitVec 4),
    Pushes (.vretag ch d a t) s c d [a] (fun _ => none) fun vs =>
      { bits := if (Tag.ofCode t.toNat).is32 then (opnd vs 0).bits &&& 0xFFFFFFFF else (opnd vs 0).bits, tag := Tag.ofCode t.toNat })
  ∧ (∀ (s : State) (c : Ctx) (ch : BitVec 1) (d a b : BitVec 6) (p : BitVec 3) (x : BitVec 1) (o : Operands), Ready s (.vsel ch d a b p x) c →
    c.badDst (Dst.ofCode d) = false → c.badSrc (Src.ofCode a) = false → c.badSrc (Src.ofCode b) = false →
    c.go.operands (s.atEffect (.vsel ch d a b p x) c) [a, b] = .ok o →
    let takesA (l : Nat) : Bool := (c.regs.lane l).getP p.toNat != (x == 1)
    (∀ l ∈ c.active, (Src.ofCode (if takesA l then a else b)).isConst = true ∨
      (opnd ((tget o.vals l).getD []) (if takesA l then 0 else 1)).tag ≠ .poison) →
    exec (.vsel ch d a b p x) s = .next (s.behind (o.state.pushWrite c d (o.vals.map fun v => (v.1, opnd v.2 (if takesA v.1 then 0 else 1)))) c))
  ∧ (∀ (s : State) (c : Ctx) (ch : BitVec 1) (d a b : BitVec 6) (o : Operands), Ready s (.vbfi ch d a b) c →
    c.badDst (Dst.ofCode d) = false → Dst.ofCode d ≠ .queue → c.badSrc (Src.ofCode a) = false → c.badSrc (Src.ofCode b) = false →
    c.go.operands (s.atEffect (.vbfi ch d a b) c) [a, b] = .ok o →
    let base (l : Nat) : RegVal := (c.regs.lane l).readDst (Dst.ofCode d)
    (∀ l ∈ c.active, ∃ x y, (tget o.vals l) = some [x, y] ∧ x.tag.isInt = true ∧ y.tag.isInt = true ∧ (base l).tag = x.tag) →
    exec (.vbfi ch d a b) s = .next (s.behind (o.state.pushWrite c d (o.vals.map fun v =>
      let e := (opnd v.2 0).tag.elemBits
      let pos := (opnd v.2 1).bits.toNat % 64
      let w := min ((opnd v.2 1).bits.toNat / 256 % 64) (e - pos)
      let field : DWord := BitVec.ofNat 64 ((2 ^ w - 1) * 2 ^ pos)
      let low (r : RegVal) : DWord := if (opnd v.2 0).tag.is32 then r.bits &&& 0xFFFFFFFF else r.bits
      (v.1, { bits := (low (base v.1) &&& ~~~field) ||| (low (opnd v.2 0) <<< pos &&& field), tag := (opnd v.2 0).tag }))) c))

/-! ### Control words -/

namespace Sys2Proof.Statements

/-! ### Cross-lane words -/

/-- What a cross-lane word works on in a group that no other group joins (R161-R163): the tile width, the member mask, the active lanes, their operands A and B, and their predicate. -/
structure Gathered where
  tile : Nat
  mask : DWord
  lanes : List Nat
  a : Nat → RegVal
  b : Nat → RegVal
  p : Nat → Bool

/-- The members of a lane: the lanes of its tile in the mask (R161, R162). -/
def Gathered.members (g : Gathered) (l : Nat) : List Nat := ((List.range g.tile).map (l / g.tile * g.tile + ·)).filter fun k => g.mask.getLsbD k

/-- The present members of a lane (R163). -/
def Gathered.present (g : Gathered) (l : Nat) : List Nat := (g.members l).filter fun k => decide (k ∈ g.lanes)

/-- A cross-lane word in a group whose lanes' fellow members are all its own, or in handler mode (R163, R164, R166): where its codes and mask pass their checks and its own condition holds,
it pushes, and writes to its destination, the given value of each active lane, and merges the flags where none of them is enabled. -/
def Crosses (i : Instr) (s : State) (c : Ctx) (d : BitVec 6) (codes : List (BitVec 6)) (p m : BitVec 3) (ok : Gathered → Prop)
    (val : Gathered → Nat → RegVal × Flags) : Prop :=
  Ready s i c → c.grp.joined = none → c.badDst (Dst.ofCode d) = false → (∀ k ∈ codes, c.badSrc (Src.ofCode k) = false) →
  ∀ o, c.go.operands (s.atEffect i c) codes = .ok o →
    let mask : DWord := if m = 0 then maskOf (List.range c.crew.width) else (c.regs.getS false m.toNat).bits
    let konst : Option (BitVec 6) := (codes.drop 1).head?.filter fun k => (Src.ofCode k).isConst
    let vals (l : Nat) : List RegVal := (tget o.vals l).getD []
    let g : Gathered := {
      tile := tileWidth c.crew.width c.grp.tileCode, mask := mask, lanes := c.active, a := fun l => opnd (vals l) 0
      b := fun l => match konst with
        | some k => mkVal .n64 (if Src.ofCode k = .one then 1 else 0)
        | none => opnd (vals l) 1
      p := fun l => (c.regs.lane l).getP p.toNat }
    (m = 0 ∨ (c.regs.getS false m.toNat).tag = .m64) → mask.toNat < 2 ^ c.crew.width → (∀ l ∈ c.active, mask.getLsbD l = true) →
    (c.handler = true ∨ ∀ h ∈ c.crew.groups, h.id ≠ c.grp.id → ∀ l ∈ c.crew.groupLanes h, mask.getLsbD l = true →
      ∀ k ∈ c.crew.groupLanes c.grp, mask.getLsbD k = true → l / g.tile ≠ k / g.tile) →
    ok g → noFpx c (orFlags (c.active.map fun l => (val g l).2)) →
    exec i s = .next (s.behind (((o.state.modGrp c fun x => { x with joined := none, since := none }).pushWrite c d
      (c.active.map fun l => (l, (val g l).1))).mergeFlags c.cid (orFlags (c.active.map fun l => (val g l).2))) c)

/-- The shuffles and the broadcast (R167): the constructor, the position read by the lane at position t with index b in tiles of the width n, and whether b is that of the lowest present lane. -/
def shuffleRows : List ((BitVec 1 → BitVec 6 → BitVec 6 → BitVec 6 → BitVec 1 → BitVec 3 → Instr) × (Nat → Nat → Nat → Int) × Bool) := [
  (.shfl, fun n b _ => b % n, false), (.shflup, fun n b t => ((t : Int) - b) % n, false), (.shfldn, fun n b t => ((t : Int) + b) % n, false),
  (.shflx, fun n b t => (t ^^^ (b % n) : Nat), false), (.bcast, fun n b _ => b % n, true) ]

/-- The lane whose B a shuffle reads for a lane (R167). -/
def Gathered.index (g : Gathered) (lowest : Bool) (l : Nat) : Nat := if lowest then ((g.lanes.filter fun k => k / g.tile = l / g.tile).head?).getD l else l

/-- The lane that a shuffle reads for a lane (R167, R168). -/
def Gathered.source (g : Gathered) (f : Nat → Nat → Nat → Int) (lowest : Bool) (l : Nat) : Nat :=
  l / g.tile * g.tile + (f g.tile (g.b (g.index lowest l)).toUnsigned (l % g.tile)).toNat

/-- The votes (R169, R170): the constructor, and the result from the members and those of them that count 1. -/
def voteRows : List ((BitVec 1 → BitVec 6 → BitVec 3 → BitVec 3 → Instr) × (List Nat → List Nat → RegVal)) := [
  (.voteAny, fun _ y => mkVal .n32 (if y = [] then 0 else 1)),
  (.voteAll, fun ms y => mkVal .n32 (if y = ms then 1 else 0)),
  (.voteBal, fun _ y => { bits := maskOf y, tag := .m64 }),
  (.voteEq, fun ms y => mkVal .n32 (if y = [] ∨ y = ms then 1 else 0)) ]

/-- The element i of a lane's A under a tag. -/
def Gathered.elem (g : Gathered) (t : Tag) (i l : Nat) : Nat := (elemsOf t (g.a l).bits).getD i 0

/-- The lanes that a reduction or scan adds up for a lane, and its constructor (R108, R169). -/
def sumRows : List ((BitVec 1 → BitVec 6 → BitVec 6 → BitVec 3 → Instr) × (Nat → Nat → Bool)) := [
  (.redadd, fun _ _ => true), (.scanadd, fun l k => k ≤ l), (.scanaddx, fun l k => k < l) ]

/-- REDMIN and REDMAX: the constructor, and whether the larger is wanted (R169). -/
def pickOfRows : List ((BitVec 1 → BitVec 6 → BitVec 6 → BitVec 3 → Instr) × Bool) := [(.redmin, false), (.redmax, true)]

/-- The bitwise reductions (R169). -/
def bitOfRows : List ((BitVec 1 → BitVec 6 → BitVec 6 → BitVec 3 → Instr) × (DWord → DWord → DWord)) := [
  (.redand, fun x y => x &&& y), (.redor, fun x y => x ||| y), (.redxor, fun x y => x ^^^ y) ]

/-- The present members of every active lane carry its tag, one that the word accepts (R171). -/
def oneTag (accept : Tag → Bool) (g : Gathered) : Prop :=
  (∀ l ∈ g.lanes, accept (g.a l).tag = true) ∧ ∀ l ∈ g.lanes, ∀ k ∈ g.present l, (g.a k).tag = (g.a l).tag

/-- The pairwise tree of R107 over 2^n lanes from a base: a lane that contributes nothing passes its partner on. -/
def treeOf (add : Nat → Nat → Nat × Flags) (x : Nat → Option Nat) : Nat → Nat → Option (Nat × Flags)
  | 0, k => (x k).map fun v => (v, 0)
  | n + 1, k => match treeOf add x n k, treeOf add x n (k + 2 ^ n) with
    | some u, some v => some ((add u.1 v.1).1, (add u.1 v.1).2 ||| u.2 ||| v.2)
    | some u, none => some u
    | none, v => v

/-- A left fold of an operation with flags over elements; an empty one gives 0. -/
def foldOf (f : Nat → Nat → Nat × Flags) : List Nat → Nat × Flags
  | [] => (0, 0)
  | v :: vs => vs.foldl (fun acc u => ((f acc.1 u).1, acc.2 ||| (f acc.1 u).2)) (v, 0)

/-- One addition of a tree or scan on a float format: the exact sum of the elements as read, rounded in RNE (R107, R108). -/
def addIn (f : FloatFmt) (ftz : Bool) (x y : Nat) : Nat × Flags :=
  rounded f .rne ftz [floatIn f ftz x, floatIn f ftz y] (sumNums .rne [floatIn f ftz x, floatIn f ftz y])

/-- An element as a reduction reads it: with FTZ a subnormal is a zero of its sign (R90). -/
def readIn (f : FloatFmt) (ftz : Bool) (x : Nat) : Nat := f.flush ftz x

/-- The fold of a scan over elements in lane order (R108): +0 of none; of a single one that element as it is read, a NaN as the canonical one (R89). -/
def scanOf (f : FloatFmt) (ftz : Bool) : List Nat → Nat × Flags
  | [] => (0, 0)
  | [v] => (if (f.read (readIn f ftz v)).isNan then f.nan else readIn f ftz v, 0)
  | v :: vs => foldOf (addIn f ftz) (v :: vs)

end Sys2Proof.Statements

/-- R161, R162, R167, R168: SHFL, SHFLUP, SHFLDN, SHFLX and BCAST outside a rendezvous. Each active lane gets the value and tag of A of the lane of its tile at the position of R167; in the permissive form,
a lane whose source is no present member gets 0 with the tag of its own A. -/
def Obligations.ShuffleResults : Prop :=
  ∀ r ∈ shuffleRows, ∀ (s : State) (c : Ctx) (ch : BitVec 1) (d a b : BitVec 6) (p : BitVec 1) (m : BitVec 3),
    Crosses (r.1 ch d a b p m) s c d [a, b] 0 m
      (fun g => (∀ l ∈ g.lanes, (g.b (g.index r.2.2 l)).tag.isInt = true)
        ∧ (∀ l ∈ g.lanes, g.source r.2.1 r.2.2 l ∈ g.present l → (g.a (g.source r.2.1 r.2.2 l)).tag ≠ .poison)
        ∧ (p = 1 ∨ ∀ l ∈ g.lanes, g.source r.2.1 r.2.2 l ∈ g.present l))
      fun g l => (if g.source r.2.1 r.2.2 l ∈ g.present l then { g.a (g.source r.2.1 r.2.2 l) with pend := none } else { bits := 0, tag := (g.a l).tag }, 0)

/-- R162, R163, R169, R170: the votes outside a rendezvous: over the members of each active lane's tile, of which those count 1 that are present with a true predicate. -/
def Obligations.VoteResults : Prop :=
  ∀ r ∈ voteRows, ∀ (s : State) (c : Ctx) (ch : BitVec 1) (d : BitVec 6) (p m : BitVec 3),
    Crosses (r.1 ch d p m) s c d [] p m (fun _ => True) fun g l => (r.2 (g.members l) ((g.present l).filter g.p), 0)

/-- R163, R164, R166: outside handler mode a vote over the whole tile, in a group with a fellow member in another group that waits nowhere, does not issue: its group parks at the rendezvous, and nothing else of the machine changes. -/
def Obligations.RendezvousWaits : Prop :=
  ∀ r ∈ voteRows, ∀ (s : State) (c : Ctx) (g : Group) (ch : BitVec 1) (d : BitVec 6) (p : BitVec 3),
    s.ctx? (r.1 ch d p 0) = some c → s.mayIssue c = true → c.crew.shadow = none → (r.1 ch d p 0).wellFormed = true →
    c.grp.snap = none → c.grp.joined = none → c.handler = false → c.unready (r.1 ch d p 0) = false →
    c.badDst (Dst.ofCode d) = false → g ∈ c.crew.groups → g.id ≠ c.grp.id → g.wait ≠ some .rendezvous →
    (∃ l ∈ c.crew.groupLanes g, ∃ k ∈ c.crew.groupLanes c.grp, l / tileWidth c.crew.width c.grp.tileCode = k / tileWidth c.crew.width c.grp.tileCode) →
    exec (r.1 ch d p 0) s = .next ((s.modGrp c fun x => { x with
      wait := some .rendezvous, since := x.since.orElse fun _ => some (if x.halted then 0 else (s.core c.crew.core).clk) }).dropStreams
        fun k x => k == c.cid && x == c.grp.id)

namespace Sys2Proof.Statements

/-! ### Memory words -/

/-- Where a lane's access falls when its address passes the checks (R240, R245). -/
def located (s : State) (c : Ctx) (p m : BitVec 2) (size : Nat) (write : Bool) (v : Nat × List RegVal) : Option (Nat × Loc) :=
  match s.addrCheck c.env p (laneAddr (opnd v.2 0) m size v.1) size write with
  | .ok l _ => some (v.1, l)
  | _ => none

/-- The segment granules that accesses at the given places newly claim from the copy-on-write pool (R230). -/
def newly (c : Ctx) (ls : List (Nat × Loc)) (size : Nat) : List Nat := c.blk.newClaims c.crew.side (spadRanges (ls.map (·.2)) size)

/-- The scope of an ordered access (R251, R325): partition (4) where some lane falls in vault, else block (1). -/
def scopeOf (ls : List (Nat × Loc)) : Nat :=
  if ls.any fun x => match x.2 with
    | .spad _ => false
    | .vault _ => true
    | .berth _ v _ _ _ => v then 4 else 1

/-- An entry of the crew's store queue issued: it takes the next operation number. -/
def enqueued (t : State) (c : Ctx) (e : StoreEnt) : State := t.modCrew c.cid fun w => { w with nextOp := w.nextOp + 2, storeQ := w.storeQ ++ [e] }

/-- One lane of an atomic at its home (R249, R250, R252, R387, R430): a poisoned granule is returned as POISON and not changed; else the location changes in one action. Before a vault stands the slice's filter:
an operation that it holds is answered from it, and one that it does not hold is entered with its result. From a vault that the slice's firewall keeps closed the data returned are free (log 49), and nothing changes. -/
def atomOnce (c : Crew) (key : Nat) (op : AtomOp) (n : Nat) (x : AtomLane) (s : State) : RegVal × State :=
  let pl := s.placeOf c true x.loc
  let u := s.detect c.core (s.pidOf c.launch) c.launch pl n
  let m := natOfBytes (u.homeBytes pl n)
  let done : RegVal × State :=
    if u.placePoisoned pl n then ({ mkVal x.operand.tag m with tag := .poison }, u)
    else (mkVal x.operand.tag m, u.placeWrite pl (bytesOfNat n (op.apply (8 * n) m (x.operand.low (8 * n)) (x.second.low (8 * n)))))
  match pl with
  | .spad _ _ _ => done
  | .vault pa =>
    if s.vaultRefused c.core (s.pidOf c.launch) pl then
      (mkVal x.operand.tag (natOfBytes ((s.refuseVault c.core (s.pidOf c.launch) pl).freeBytes n).1), ((s.refuseVault c.core (s.pidOf c.launch) pl).freeBytes n).2)
    else match s.filterGet (vaultHome pa / 32) .vault key x.lane with
      | some r => (r.headD {}, s)
      | none => (done.1, done.2.filterPut (vaultHome pa / 32) .vault key x.lane [done.1])

end Sys2Proof.Statements

/-- R243-R246: LD. With an integer address per active lane whose checks pass, it pushes a pending value of the type it names, the second register of a 16-byte load pending too, and the crew's outstanding loads grow by one;
with no active lane it pushes the entry that R44 gives every lane of the group and nothing else. -/
def Obligations.LoadIssues : Prop :=
  ∀ (s : State) (c : Ctx) (ch : BitVec 1) (d a : BitVec 6) (p : BitVec 2) (z : BitVec 3) (t : BitVec 4) (o m : BitVec 2),
    Ready s (.ld ch d a p z t o m) c → c.badDst (Dst.ofCode d) = false → c.badSrc (Src.ofCode a) = false → (Src.ofCode a).isConst = false →
    (memSize z = 16 → pairCode d = true) →
    ∀ v, c.go.operands (s.atEffect (.ld ch d a p z t o m) c) [a] = .ok v → (∀ x ∈ v.vals, (opnd x.2 0).tag.isInt = true) →
    let at' := located (s.atEffect (.ld ch d a p z t o m) c) c p m (memSize z) false
    (∀ x ∈ v.vals, (at' x).isSome = true) →
    let lanes := v.vals.filterMap at'
    let pending (k : Nat) : List (Nat × RegVal) := lanes.map fun x => (x.1, { tag := Tag.ofCode t.toNat, pend := some k })
    let pushed := v.state.pushWrite c d (pending c.crew.nextOp)
    (c.active = [] → exec (.ld ch d a p z t o m) s = .next (s.behind pushed c))
    ∧ (c.active ≠ [] → exec (.ld ch d a p z t o m) s = .next (s.behind
        (((if memSize z = 16 then pushed.writeV c (d.toNat - 15) (pending (c.crew.nextOp + 1)) else pushed).modCrew c.cid fun w => { w with
          nextOp := w.nextOp + 2
          loads := w.loads ++ [({ id := c.crew.nextOp, ty := Tag.ofCode t.toNat, size := memSize z, dest := d, lanes := lanes
                                  acquire := o != 0, sc := o == 2, word := c.word, gen := c.crew.gen } : LoadOp)] }).count c.cid fun n => { n with loads := n.loads + 1 }) c))

/-- R243-R248, R230: ST. With data of the type it names and addresses that pass their checks, within the copy-on-write pool and with room in the store queue, one entry with the bytes of every active lane enters the queue; memory is not changed yet. -/
def Obligations.StoreIssues : Prop :=
  ∀ (s : State) (c : Ctx) (ch : BitVec 1) (d a : BitVec 6) (p : BitVec 2) (z : BitVec 3) (t : BitVec 4) (o m : BitVec 2),
    Ready s (.st ch d a p z t o m) c → c.badSrc (Src.ofCode d) = false → c.badSrc (Src.ofCode a) = false → (Src.ofCode a).isConst = false →
    (memSize z = 16 → pairCode d = true) → c.crew.storeQ.length < 32 →
    ∀ v, c.go.operands (s.atEffect (.st ch d a p z t o m) c) (if memSize z = 16 then [a, d, d + 1] else [a, d]) = .ok v →
    (∀ x ∈ v.vals, (opnd x.2 0).tag.isInt = true ∧ ∀ y ∈ x.2.drop 1, y.tag ≠ .poison ∧ (Tag.ofCode t.toNat = .raw ∨ y.tag = Tag.ofCode t.toNat)) →
    let at' := located (s.atEffect (.st ch d a p z t o m) c) c p m (memSize z) true
    (∀ x ∈ v.vals, (at' x).isSome = true) →
    let lanes := v.vals.filterMap at'
    (newly c lanes (memSize z)).length ≤ (c.blk.side c.crew.side).pool →
    (c.active = [] → exec (.st ch d a p z t o m) s = .next (s.behind v.state c))
    ∧ (c.active ≠ [] → exec (.st ch d a p z t o m) s = .next (s.behind
        ((enqueued (v.state.claim c.blk.id c.crew.side (newly c lanes (memSize z))) c {
            id := c.crew.nextOp, op := .st (v.vals.filterMap fun x => (at' x).map fun l => (x.1, l.2,
              if memSize z = 16 then bytesOfNat 8 (opnd x.2 1).bits.toNat ++ bytesOfNat 8 (opnd x.2 2).bits.toNat else bytesOfNat (memSize z) (opnd x.2 1).bits.toNat))
            release := o != 0, acquire := o == 2, sc := o == 2, scope := scopeOf lanes, word := c.word, atSeq := c.crew.seq }).count c.cid
          fun n => { n with stores := n.stores + 1 }) c))

/-- R249, R250, R385, R386: ATOM. With operands of a tag that the operation takes and addresses that pass their checks, room in the store queue and an open ticket horizon, the word pushes pending values,
takes the crew's next ticket and enters one entry in the store queue; it counts as a load and a store. -/
def Obligations.AtomicIssues : Prop :=
  ∀ (s : State) (c : Ctx) (ch : BitVec 1) (d a : BitVec 6) (p : BitVec 2) (z : BitVec 3) (k : BitVec 4) (o m : BitVec 2),
    let i : Instr := .atom ch d a p z k o m
    let op := AtomOp.ofCode k.toNat
    let cas : Bool := op == .cas
    Ready s i c → 0x10 ≤ d.toNat → d.toNat < (if cas then 0x2F else 0x30) → c.badSrc (Src.ofCode a) = false → (Src.ofCode a).isConst = false →
    p ≠ 2 → c.active ≠ [] → c.crew.storeQ.length < 32 → (c.crew.seq - c.crew.tickets.headD c.crew.seq).toNat < 2 ^ 15 → (op = .fadd → c.record.strict = false) →
    ∀ v, c.go.operands (s.atEffect i c) (if cas then [a, d, d + 1] else [a, d]) = .ok v →
    (∀ x ∈ v.vals, (opnd x.2 0).tag.isInt = true ∧ op.takes (memSize z) (opnd x.2 1).tag = true ∧ (cas = true → (opnd x.2 2).tag = (opnd x.2 1).tag)) →
    let at' := located (s.atEffect i c) c p m (memSize z) true
    (∀ x ∈ v.vals, (at' x).isSome = true) →
    let lanes := v.vals.filterMap at'
    (newly c lanes (memSize z)).length ≤ (c.blk.side c.crew.side).pool →
    let ctx := ((tget (s.atEffect i c).launches c.crew.launch).map (·.ctx)).getD 0
    exec i s = .next (s.behind
      ((((v.state.pushWrite c d (v.vals.map fun x => (x.1, { tag := (opnd x.2 1).tag, pend := some c.crew.nextOp }))).claim c.blk.id c.crew.side
          (newly c lanes (memSize z))).modCrew c.cid fun w => { w with nextOp := w.nextOp + 2, seq := w.seq + 1, tickets := w.tickets ++ [w.seq], storeQ := w.storeQ ++ [({
        id := c.crew.nextOp, release := o != 0, acquire := o != 0, sc := o == 2, scope := scopeOf lanes, word := c.word, atSeq := c.crew.seq
        op := .atom op (memSize z) (d.toNat - 16) (v.vals.filterMap fun x => (at' x).map fun l =>
          ({ lane := x.1, loc := l.2, operand := opnd x.2 1, second := opnd x.2 2 } : AtomLane))
        ticket := some (BitVec.ofNat 64 (ctx % 2 ^ 32 + c.crew.key.toNat * 2 ^ 32 + c.crew.seq.toNat * 2 ^ 48)), hor := c.crew.tickets.headD c.crew.seq
        } : StoreEnt)] }).count c.cid
          fun n => { n with loads := n.loads + 1, stores := n.stores + 1 }) c)

/-- R36, R239-R241, R245: what the address checks of a lane find. An address that is no multiple of the size fails with ALIGN in any space; in scratchpad an access within TS + P + CH falls at its offset and one beyond fails with BOUNDS;
in vault the partition's page that holds the address decides, a vault page being of 64 KB or 2 MB: none of vault is BOUNDS, one that may not be written is PROT with AUX 5 for a write. -/
def Obligations.AddressChecks : Prop :=
  ∀ (s : State) (e : AddrEnv) (a : DWord) (n : Nat) (write : Bool),
    (∀ sp, a.toNat % n ≠ 0 → s.addrCheck e sp a n write = .align)
    ∧ (a.toNat % n = 0 → a.toNat + n ≤ e.block.ts + e.block.p + e.block.ch → s.addrCheck e 0 a n write = .ok (.spad a.toNat) a.toNat)
    ∧ (a.toNat % n = 0 → e.block.ts + e.block.p + e.block.ch < a.toNat + n → s.addrCheck e 0 a n write = .bounds)
    ∧ (a.toNat % n = 0 → ∀ p, tget s.partitions e.pid = some p →
      (∀ g, p.page? a.toNat = some g → g.vault = true → g.size = 2 ^ 16 ∨ g.size = 2 ^ 21)
      ∧ (p.page? a.toNat = none → s.addrCheck e 1 a n write = .bounds)
      ∧ (∀ g, p.page? a.toNat = some g → g.vault = false → s.addrCheck e 1 a n write = .bounds)
      ∧ (∀ g, p.page? a.toNat = some g → g.vault = true → (s.slice (vaultSlice g.pa)).fwPid = e.pid → g.writable = false → write = true →
        s.addrCheck e 1 a n write = .prot 5)
      ∧ (∀ g, p.page? a.toNat = some g → g.vault = true → (s.slice (vaultSlice g.pa)).fwPid = e.pid → (g.writable = true ∨ write = false) →
        s.vaultWorldBad e.lid e.block.beta a.toNat n write = false → s.addrCheck e 1 a n write = .ok (.vault (g.pa + (a.toNat - g.va))) a.toNat))

/-- R246, R248-R252, R261, R271, R317-R320, R387, R430: the performing of accesses. The oldest load returns a lane's value from the crew's view, SC loads after the stores that their scope orders, and, with its last lane, leaves; the oldest store writes its lanes in ascending order into the block's scratchpad, and sets out for its homes in vault,
one with release order after what its scope orders before it; the writes of a store word to one granule of vault arrive together, behind no earlier ones to their bytes that a core of the twin sees before them; an atomic changes the locations of its lanes in ascending order, each in one action, in scratchpad or behind the filters of its vault homes, and its reply fills the register;
an update reaches its landing, behind the stores on their way that its core sees, and after it the status it carries; a stream element is fetched ahead, up to 16 of a lane. What a slice's firewall refuses returns free data and changes nothing (log 49). -/
def Obligations.AccessesPerform : Prop :=
  (∀ (s : State) (cid lane : Nat) (c : Crew) (l : LoadOp) (rest : List LoadOp) (loc : Loc),
    tget s.crews cid = some c → c.id = cid → c.shadow = none → c.loads = l :: rest → l.gen = c.gen → tget l.lanes lane = some loc →
    (∀ e ∈ c.storeQ, l.id ≤ e.id ∨ (e.acquire = false ∧ l.sc = false ∧ ∃ ls, e.op = .st ls)) → s.acquireDue c l.id = false →
    (l.sc = true → s.vaultDue c (scopeOf l.lanes) = false) →
    let refused := s.vaultRefused c.core (s.pidOf c.launch) (s.placeOf c false loc)
    let free := (s.refuseVault c.core (s.pidOf c.launch) (s.placeOf c false loc)).freeBytes l.size
    let t := if refused then free.2 else s.detect c.core (s.pidOf c.launch) c.launch (s.placeOf c false loc) l.size
    let bytes := if refused then free.1 else t.crewBytes c l.id (t.placeOf c false loc) l.size
    let mark (v : RegVal) : RegVal := if !refused && t.crewPoisoned c l.id (t.placeOf c false loc) l.size then { v with tag := .poison } else v
    let got (w : Crew) : Crew :=
      let w := w.deliver l.id lane (mark (extendLoad l.ty l.size bytes))
      if l.size = 16 then w.deliver (l.id + 1) lane (mark (extendLoad l.ty 8 (bytes.drop 8))) else w
    let left := l.lanes.filter fun x => x.1 ≠ lane
    (left ≠ [] → exec (.loadReturn cid lane) s = .next ((t.modCrew cid got).modCrew cid fun w => { w with loads := { l with lanes := left } :: rest }))
    ∧ (left = [] → exec (.loadReturn cid lane) s = .next (((t.modCrew cid fun w => ((got w).settle l.id).settle (l.id + 1)).modCrew cid
        fun w => { w with loads := rest }).count cid fun n => { n with loads := n.loads - 1 })))
  ∧ (∀ (s : State) (cid : Nat) (c : Crew) (e : StoreEnt) (lanes : List (Nat × Loc × List Byte)),
    tget s.crews cid = some c → c.id = cid → c.storeQ.head? = some e → e.op = .st lanes →
    (∀ l ∈ c.loads, e.id ≤ l.id) → s.acquireDue c e.id = false →
    (e.release = true → s.vaultDue c e.scope = false ∧ ∀ x ∈ (s.core c.core).ferry, x.2.crew = cid → x.2.ticket.isSome = true → e.id ≤ x.2.seq) →
    let spads : List (Nat × List Byte) := lanes.filterMap fun x => match s.placeOf c true x.2.1 with
      | .spad _ _ off => some (off, x.2.2)
      | .vault _ => none
    let vaults : List (Nat × List Byte) := lanes.filterMap fun x => match s.placeOf c true x.2.1 with
      | .vault pa => some (pa, x.2.2)
      | .spad _ _ _ => none
    let t := if spads = [] then s else s.spadWriteAll c.block c.side spads
    let u := if vaults = [] then t else t.sendVault c e.id e.acquire vaults
    exec (.storePerform cid) s = .next ((u.modCrew cid fun w => { w with storeQ := w.storeQ.drop 1 }).count cid fun n => { n with stores := n.stores - 1 }))
  ∧ (∀ (s : State) (c : Crew) (id : Nat) (acquire : Bool) (ws : List (Nat × List Byte)), ∃ on : List VaultPend,
      ((s.sendVault c id acquire ws).core c.core).vaultPend = (s.core c.core).vaultPend ++ on
      ∧ on.map (fun v => v.gran) = (ws.map fun w => w.1 / 16).eraseDups
      ∧ ∀ v ∈ on, v.crew = c.id ∧ v.id = id ∧ v.acquire = acquire ∧ s.nextId ≤ v.seq ∧ v.writes = ws.filter fun w => w.1 / 16 = v.gran)
  ∧ (∀ (s : State) (core n : Nat) (v : VaultPend), (s.core core).vaultPend[n]? = some v →
    (∀ u ∈ (s.core core).vaultPend ++ (s.core (mateCore core)).vaultPend.filter (fun u => u.twin || v.twin), v.seq ≤ u.seq ∨ u.overlaps v = false) →
    let pid := (s.slice (core / 32)).fwPid
    let gone (t : State) : State := t.modCore core fun r => { r with vaultPend := r.vaultPend.eraseIdx n }
    (s.vaultRefused core pid (.vault (16 * v.gran)) = false →
      exec (.vaultStoreHomeArrival core n) s = .next (gone { s with vault := s.vault.writeAll v.writes }))
    ∧ (s.vaultRefused core pid (.vault (16 * v.gran)) = true →
      exec (.vaultStoreHomeArrival core n) s = .next (gone (s.refuseVault core pid (.vault (16 * v.gran))))))
  ∧ (∀ (s : State) (cid : Nat) (c : Crew) (e : StoreEnt) (op : AtomOp) (n rd : Nat) (lanes : List AtomLane),
    tget s.crews cid = some c → c.id = cid → c.storeQ.head? = some e → e.op = .atom op n rd lanes →
    (∀ l ∈ c.loads, e.id ≤ l.id) → s.acquireDue c e.id = false →
    (e.release = true → s.vaultDue c e.scope = false ∧ ∀ x ∈ (s.core c.core).ferry, x.2.crew = cid → x.2.ticket.isSome = true → e.id ≤ x.2.seq) →
    let homes := s.openVaults c e
    let key := s.ticketKey c.launch e.ticket
    let t := ((homes.map fun v => vaultHome v.2 / 32).eraseDups).foldl (fun u k => u.filterRetire k .vault key e.hor) s
    (∀ v ∈ homes, ∀ u ∈ s.vaultView c.core, u.meets v.2 n = false) → t.filtersHaveRoom c e homes = true →
    let r := lanes.foldl (fun (acc : List (Nat × RegVal) × State) x =>
      (acc.1 ++ [(x.lane, (atomOnce c key op n x acc.2).1)], (atomOnce c key op n x acc.2).2)) ([], t)
    exec (.atomHomeApply cid) s = .next ((r.2.modCrew cid fun w => { w with storeQ := w.storeQ.drop 1 }).modCrew cid fun w => { w with replies := w.replies ++ [({
        id := e.id, rd := some rd, sd := none, lanes := r.1, ticket := e.ticket, gen := c.gen, ent := e } : Reply)] }))
  ∧ (∀ (s : State) (cid : Nat) (c : Crew) (r : Reply) (op : AtomOp) (n rd : Nat) (ls : List AtomLane),
    tget s.crews cid = some c → c.id = cid → c.shadow = none → c.replies.find? (fun x => x.id == r.id) = some r → r.gen = c.gen → r.ent.op = .atom op n rd ls →
    exec (.atomReplyReturn cid r.id) s = .next ((((s.modCrew cid fun w => { w with replies := w.replies.filter fun x => x.id ≠ r.id }).modCrew cid
      fun w => ((r.lanes.foldl (fun w x => w.deliver r.id x.1 x.2) w).settle r.id)).modCrew cid fun w => w.endTicket r.ticket).count cid
        fun n => { n with loads := n.loads - 1, stores := n.stores - 1 }))
  ∧ (∀ (s : State) (n : Nat) (u : LandUpd), s.landUpds[n]? = some u →
    (∀ x w, u.after = some x → s.anyCrew x.1 = some w → w.lndBefore x.2 = false) →
    (∀ b side off, u.home = .spad b side off → ∀ x ∈ s.saved, ∀ y ∈ x.blocks, y.id ≠ b) →
    let t : State := { s with landUpds := s.landUpds.eraseIdx n }
    let core := (t.updateCore u).getD (32 * vaultSlice u.home.place.start)
    let counted := ((t.flushHome u).detectHome u).applyLanding u.home.place u.op
    let done := match u.st with
      | none => counted
      | some st => counted.applyLanding u.home.place (.status st)
    let answered (x : State) : State := match u.owner with
      | none => x
      | some (k, slot) => x.modCore k fun r => match tget r.ferry slot with
        | none => r
        | some f => { r with ferry := tput r.ferry slot { f with updates := f.updates - 1 } }
    (t.vaultRefused core u.pid u.home.place = true → exec (.landingUpdateApply n) s = .next (answered (t.refuseVault core u.pid u.home.place)))
    ∧ (t.vaultRefused core u.pid u.home.place = false → t.homeExists u.home = false → exec (.landingUpdateApply n) s = .next (answered t))
    ∧ (t.vaultRefused core u.pid u.home.place = false → t.homeExists u.home = true → exec (.landingUpdateApply n) s = .next (answered done)))
  ∧ (∀ (s : State) (cid k lane : Nat) (c : Crew) (b : Block) (st : StreamInst), tget s.crews cid = some c → tget c.streams k = some st → tget s.blocks c.block = some b →
    lane < st.width → c.frozen = false → c.replay = [] → s.elementsHeld c st = false →
    let ahead := (st.fetched.filter fun f => f.1 = lane).length
    let n := st.pos.getD lane 0 + ahead
    let e : AddrEnv := { pid := s.pidOf c.launch, lid := c.launch, block := b, core := c.core }
    ahead < 16 → n < (streamDesc st.desc).total →
    let t := s.detectElem e c (streamDesc st.desc) n lane
    exec (.streamElementFetch cid k lane) s = .next (t.modCrew cid fun w => { w with streams := tput w.streams k { st with
      fetched := st.fetched ++ [(lane, n, (t.streamElem e c (streamDesc st.desc) n lane).1, (t.streamElem e c (streamDesc st.desc) n lane).2)] } }))

namespace Sys2Proof.Statements

/-! ### Tile words -/

/-- A tile operation at the tail of its block's queue, counted in TILEOPS (R174). -/
def tileEntered (t : State) (c : Ctx) (op : TileOp) : State :=
  ((({ t with nextId := t.nextId + 1 }.modSide c.blk.id c.crew.side fun sd => { sd with
    queue := sd.queue ++ [({ id := t.nextId, crew := c.cid, op := op, seq := c.crew.nextOp, word := c.word, lane := c.active.headD 0 } : TileEnt)] }).modCrew c.cid
      fun w => { w with nextOp := w.nextOp + 2 }).count c.cid fun n => { n with tileops := n.tileops + 1 })

/-- A scalar that may hold a geometry word (R186). -/
def geometryTag (r : RegVal) : Prop := r.tag = .i64 ∨ r.tag = .n64

/-- The tile bytes S of the launch (R59). -/
def tileBytesOf (c : Ctx) : Nat := 4096 * c.record.tsize

/-- The side of its block on which the word's crew runs, with its shape records as they stood before the word's chain group (R14). -/
def ownSide (c : Ctx) : Side := { c.blk.side c.crew.side with shapes := c.shapes }

/-- The scale view that an operand of an MMA uses on a side: none with the code 15; else a valid view in E8S, for the formats that take scales (R178, R180). -/
def mmaScale (sd : Side) (S : Nat) (h : Shape) : Option DWord → Prop
  | none => h.scale = 15
  | some r => h.scale ≠ 15 ∧ sd.view S h.scale = some r ∧ (Shape.ofBits r).fmt = 10 ∧ (h.fmt = 4 ∨ h.fmt = 5 ∨ h.fmt = 6)

end Sys2Proof.Statements

/-- R59-R63, R186: a shape record's fields, its row pitch and its validity; a geometry word's fields and its validity for the accumulator bytes of the block. -/
def Obligations.ShapeAndGeometryRecords : Prop :=
  (∀ b : DWord,
    let h := Shape.ofBits b
    h.fmt = (b.extractLsb' 0 4).toNat ∧ h.rows = (b.extractLsb' 4 9).toNat ∧ h.cols = (b.extractLsb' 13 11).toNat
    ∧ h.cstr = 2 ^ (b.extractLsb' 24 2).toNat ∧ h.coff = (b.extractLsb' 26 3).toNat ∧ h.stor = (b.extractLsb' 29 4).toNat
    ∧ h.scale = (b.extractLsb' 33 4).toNat ∧ h.rsv = (b.extractLsb' 37 27).toNat)
  ∧ (∀ (h : Shape) (n S : Nat), h.valid n S = true ↔
      h.fmt ≤ 10 ∧ 1 ≤ h.rows ∧ h.rows ≤ 256 ∧ 1 ≤ h.cols ∧ h.cols ≤ 1024 ∧ h.coff < h.cstr ∧ h.stor < n ∧ (h.scale = 15 ∨ h.scale < n) ∧ h.rsv = 0
        ∧ h.rows * h.pitch ≤ S)
  ∧ (∀ h : Shape, h.pitch % 64 = 0 ∧ h.cols * h.cstr * fmtBytes h.fmt ≤ h.pitch ∧ h.pitch < h.cols * h.cstr * fmtBytes h.fmt + 64)
  ∧ (∀ (b : DWord) (alloc : Nat) (g : AccGeo), AccGeo.ofBits b alloc = some g ↔
      g = { base := (b.extractLsb' 0 6).toNat, rows := (b.extractLsb' 6 9).toNat, cols := (b.extractLsb' 15 11).toNat, pitch := (b.extractLsb' 28 20).toNat
            fmt := if b.extractLsb' 26 2 = 0 then .fp32 else if b.extractLsb' 26 2 = 1 then .i32 else .fp64 }
        ∧ 1 ≤ g.rows ∧ g.rows ≤ 256 ∧ 1 ≤ g.cols ∧ g.cols ≤ 1024 ∧ b.extractLsb' 26 2 ≠ 3 ∧ b.extractLsb' 48 16 = 0
        ∧ g.base * 16384 + g.rows * g.cols * g.fmt.bytes ≤ alloc)

/-- R174, R175, R182, R183, R190, R192, R202: the running of tile operations. The head of a queue begins when its block runs and the stores and acquiring accesses before it have performed; a twin MMA enters the follower's queue too;
at its end an operation has done its rows, or all of it at once, and leaves with TILEOPS one less; MCHK delivers and clears the status. -/
def Obligations.TileOperationsRun : Prop :=
  (∀ (s : State) (bid side : Nat) (b : Block) (e : TileEnt) (rest : List TileEnt), tget s.blocks bid = some b → (b.side side).queue = e :: rest →
    b.state = .running → e.started = false → e.guest = false → s.tileReplays e = false →
    (∀ c, tget s.crews e.crew = some c → (∀ x ∈ c.storeQ, e.seq ≤ x.id) ∧ s.acquireDue c e.seq = false) →
    (∀ base ta tb sa sb ftb fsb nl mv neg acd, e.op ≠ .mma base ta tb sa sb ftb fsb nl mv neg acd true) →
    exec (.tileOpStart bid side) s = .next (s.modTileHead bid side fun t => { t with started := true }))
  ∧ (∀ (s : State) (bid : Nat) (b : Block) (e : TileEnt) (rest : List TileEnt) (base nl mv : Nat) (ta tb : DWord) (sa sb ftb fsb : Option DWord) (neg acd : Bool),
    tget s.blocks bid = some b → (b.side 0).queue = e :: rest → e.op = .mma base ta tb sa sb ftb fsb nl mv neg acd true →
    b.state = .running → e.engaged = false → s.tileReplays e = false →
    let now := (b.side 1).queue.isEmpty
    exec (.mmaTwinEngage bid) s = .next ((s.modTileHead bid 0 fun t => { t with engaged := true, started := now }).modSide bid 1
      fun sd => { sd with queue := sd.queue ++ [({ e with guest := true, started := now } : TileEnt)] }))
  ∧ (∀ (s : State) (bid side : Nat) (b : Block) (e : TileEnt) (rest : List TileEnt), tget s.blocks bid = some b → (b.side side).queue = e :: rest →
    e.started = true → e.guest = false →
    let S := (s.recordOf b.launch).tileBytes
    let u := if e.op.byRows then s.tileRows bid side S (e.op.rowCount S - e.rows) else s.tileWhole b side e
    let e' := (u.tileHead bid side).getD e
    (e.op.byRows = true → b.state = .running ∧ s.tileVaultDue b side e = false) →
    exec (.tileOpComplete bid side) s = .next ((u.tileLeave bid side e').accstReport b side e'))
  ∧ (∀ (s : State) (b : Block) (side : Nat) (e : TileEnt) (d : Nat) (c : Crew), e.op = .mchk d → tget s.crews e.crew = some c → c.shadow = none →
    let m := (b.side side).mchk
    s.tileWhole b side e = ((s.modSide b.id side fun sd => { sd with mchk := {} }).modCrew e.crew
      fun w => (w.deliverS e.seq { bits := BitVec.ofNat 64 (m.fail + m.skip * 2 ^ 16 + m.fbase * 2 ^ 32 + m.frow * 2 ^ 38), tag := .n64 }).settle e.seq))

/-- R101-R105, R182: one element of an MMA. On INT8 and UINT8 operands it is the accumulator's element, or 0 with Z, plus the products of the scaled row of A and column of B, or minus them with NEG, modulo 2^32; on the other formats it is the group sums in order over the groups of K. -/
def Obligations.MmaElements : Prop :=
  (∀ (r : MmaRun) (sd : Side) (as : List Machine.Num) (i j : Nat), r.acc = .i32 →
    let products : Int := ((as.zip (r.colB sd j)).map fun p => p.1.toInt 0 * p.2.toInt 0).sum
    let old : Int := if r.acd then 0 else (sd.accElem r.base r.nl .i32 i j : Nat)
    (r.elem sd as i j).1 = wrapTo 32 (old + if r.neg then -products else products))
  ∧ (∀ (r : MmaRun) (sd : Side) (as : List Machine.Num) (i j : Nat), r.acc ≠ .i32 →
    let ps := as.zip (r.colB sd j)
    let g := mmaGroup r.ha.fmt r.hb.fmt
    let old := if r.acd then 0 else sd.accElem r.base r.nl r.acc i j
    let terms (q : Machine.Num × Machine.Num) : Machine.Num := if r.neg then (q.1.mul q.2).1.negate else (q.1.mul q.2).1
    let step (acc k : Nat) : Nat :=
      let group := (ps.drop (k * g.1)).take g.1
      groupSum r.acc.float g.2 (group.any fun q => (q.1.mul q.2).2 != 0) (r.acc.float.read acc :: group.map terms)
    ps.length = r.K → g.1 * (r.K / g.1) = r.K → (r.elem sd as i j).1 = (List.range (r.K / g.1)).foldl step old)

namespace Sys2Proof.Statements

/-! ### Engine words -/

/-- The descriptor of an engine word, as the crew reads it (R282). -/
def descOf (t : State) (c : Ctx) (a : BitVec 5) (size : Nat) : List Byte :=
  t.crewBytes c.crew c.crew.nextOp (.spad c.blk.id c.crew.side (c.getS a).toAddress.toNat) size

/-- The descriptor's scalar is an integer that names an aligned, unpoisoned descriptor in the block's scratchpad (R282, R285). -/
def descGood (t : State) (c : Ctx) (a : BitVec 5) (size : Nat) : Prop :=
  (c.getS a).tag.isInt = true ∧ (c.getS a).toAddress.toNat % size = 0 ∧ (c.getS a).toAddress.toNat + size ≤ c.blk.ts + c.blk.p + c.blk.ch
    ∧ t.crewPoisoned c.crew c.crew.nextOp (.spad c.blk.id c.crew.side (c.getS a).toAddress.toNat) size = false

/-- A landing reference is aligned, and in scratchpad it lies in the block's, outside the segment (R231, R242, R282). -/
def landGood (c : Ctx) (ref : Nat) : Prop :=
  ref / 2 % 8 = 0 ∧ (ref % 2 = 0 → ref / 16 * 16 + 16 ≤ c.blk.ts + c.blk.p + c.blk.ch ∧ c.blk.inSegment (ref / 16 * 16) = false)

/-- The landing that a word with L names in S[SB] passes its checks. -/
def landFieldGood (c : Ctx) (b : BitVec 5) (l : BitVec 1) : Prop :=
  l = 1 → ((c.getS b).tag = .i64 ∨ (c.getS b).tag = .n64) ∧ landGood c (c.getS b).bits.toNat

/-- The landing that a word with L names. -/
def landOfField (c : Ctx) (b : BitVec 5) (l : BitVec 1) : CmdLand := if l = 1 then landOf c (c.getS b).bits.toNat else {}

/-- A scratchpad range of a command lies in the block's scratchpad; as a destination, outside the segment (R231, R282). -/
def rangeGood (c : Ctx) (spad : Bool) (lo hi : Int) (dst : Bool) : Prop :=
  spad = true → 0 ≤ lo ∧ hi ≤ (c.blk.ts + c.blk.p + c.blk.ch : Nat) ∧ (dst = true → c.blk.inSegment lo.toNat = false)

/-- A command in a Ferry slot of the core, its handle in SD, counted in COPIES (R283, R284); a ticketed one takes the crew's next ticket (R385). -/
def slotTaken (t : State) (c : Ctx) (d : BitVec 5) (land : CmdLand) (ticketed : Bool) (slot : Nat) (cmd : FerryCmd) : State :=
  let uses := (tget (t.core c.crew.core).useCount slot).getD 0
  let handle : DWord := BitVec.ofNat 64 (slot + uses % 2 ^ 23 * 512)
  ((((t.modCore c.crew.core fun r => { r with
      ferry := tput r.ferry slot { cmd with
        crew := c.cid, block := c.blk.id, side := c.crew.side, handle := handle, landing := land.home, landVa := land.va, sd := d.toNat, word := c.word
        seq := c.crew.nextOp, ticket := if ticketed then some (t.ticketOf c.crew c.crew.seq) else none, hor := c.crew.tickets.headD c.crew.seq, gen := c.crew.gen, lane := c.active.headD 0 }
      useCount := tput r.useCount slot ((tget r.useCount slot).getD 0 + 1) }).modCrew c.cid fun w => (if ticketed then w.takeTicket else w).takeOp).count c.cid
    fun n => { n with copies := n.copies + 1 }).writeS c d { bits := handle, tag := .n64 })

/-- An engine word runs: with a free slot, and for a ticketed command an open horizon, its command takes the slot (R283, R386). -/
def Commands (i : Instr) (s : State) (c : Ctx) (d : BitVec 5) (land : CmdLand) (ticketed : Bool) (cmd : FerryCmd) : Prop :=
  ∀ slot, ((s.atEffect i c).core c.crew.core).freeSlot c.cid = some slot →
    (ticketed = true → (c.crew.seq - c.crew.tickets.headD c.crew.seq).toNat < 2 ^ 15) →
    Runs i s c fun t => slotTaken t c d land ticketed slot cmd

end Sys2Proof.Statements

/-- R299, R303, R305, R309, R310: FATOM, FPUT, FPUTS, FGET, the collectives and NMC. With a valid, aligned descriptor whose ranges, ranks and landing pass their checks, the ticketed command (an FGET has no ticket) takes a Ferry slot; a collective also counts for its group. -/
def Obligations.TicketedWordsIssue : Prop :=
  (∀ (s : State) (c : Ctx) (ch : BitVec 1) (d a b : BitVec 5) (l : BitVec 1), let i : Instr := .fatom ch d a b l
    let t := s.atEffect i c
    let ds := descOf t c a 32
    let x := fatomDesc ds
    Ready s i c → c.active ≠ [] → descGood t c a 32 → landFieldGood c b l → fatomValid ds = true → x.addr % x.size = 0 →
    (∀ res, x.res = some res → res % 8 = 0 ∧ rangeGood c true res (res + 8 : Nat) true) → x.op.takes x.size x.tag = true →
    t.leavesGlobal c.go x.addr x.size = false → (x.op = .fadd → c.record.strict = false) →
    Commands i s c d (landOfField c b l) true { op := .fatom, crew := 0, block := 0, handle := 0, desc := ds, total := 8 })
  ∧ (∀ r ∈ [((.fput : BitVec 1 → BitVec 5 → BitVec 5 → BitVec 5 → BitVec 1 → Instr), EngOp.fput), (.fputs, .fputs), (.fget, .fget)],
    ∀ (s : State) (c : Ctx) (ch : BitVec 1) (d a b : BitVec 5) (l : BitVec 1), let i := r.1 ch d a b l
    let t := s.atEffect i c
    let ds := descOf t c a 64
    let x := putDesc ds
    Ready s i c → c.active ≠ [] → descGood t c a 64 → landFieldGood c b l → putValid ds (decide (r.2 = .fputs)) = true →
    x.loc % 16 = 0 → x.remote % 16 = 0 → (x.rl = true → x.rland / 2 % 8 = 0) →
    rangeGood c x.spad x.loc (x.loc + x.bytes : Nat) (decide (r.2 = .fget)) → (t.rankOf c.crew.launch x.rank).isSome = true →
    (r.2 = .fget → x.spad = true ∨ x.declass = true ∨ t.leavesWorld c.go x.loc x.bytes = false) →
    (r.2 ≠ .fget → t.leavesToPeer c.go x.rank x.declass = false) →
    Commands i s c d (landOfField c b l) (decide (r.2 ≠ .fget)) { op := r.2, crew := 0, block := 0, handle := 0, desc := ds, total := x.bytes })
  ∧ (∀ r ∈ [((.collAllred : BitVec 1 → BitVec 5 → BitVec 5 → BitVec 5 → BitVec 1 → Instr), EngOp.collAllred), (.collAllgath, .collAllgath),
      (.collRedscat, .collRedscat), (.collBcast, .collBcast), (.collCbar, .collCbar)],
    ∀ (s : State) (c : Ctx) (ch : BitVec 1) (d a b : BitVec 5) (l : BitVec 1) (ctx : Context), let i := r.1 ch d a b l
    let t := s.atEffect i c
    let ds := descOf t c a 64
    let x := collDesc ds
    let z := collSizes r.2 x ctx.own
    let n := t.collNumber ctx.ctx x.first x.members x.stride
    Ready s i c → c.active ≠ [] → descGood t c a 64 → landFieldGood c b l → collValid ds r.2 = true → t.contextOf c.crew.launch = some ctx →
    (r.2 ≠ .collCbar → x.send % collBytes x.etype = 0 ∧ x.recv % collBytes x.etype = 0) →
    (z.1 ≠ 0 → rangeGood c x.sendSpad x.send (x.send + z.1 : Nat) false) → (r.2 ≠ .collCbar → rangeGood c x.recvSpad x.recv (x.recv + z.2 : Nat) true) →
    (∀ k ∈ x.ranks, (t.rankOf c.crew.launch k).isSome = true) → ctx.own ∈ x.ranks → (r.2 = .collBcast → x.root ∈ x.ranks) →
    (r.2 = .collCbar ∨ ((x.recvSpad = true ∨ x.declass = true ∨ ∀ w, tget t.launches c.crew.launch = some w → t.worldLeft w [] x.recv z.2 = false)
      ∧ ∀ k ∈ x.ranks, k ≠ ctx.own → t.leavesToPeer c.go k x.declass = false)) →
    ∀ slot, (t.core c.crew.core).freeSlot c.cid = some slot → (c.crew.seq - c.crew.tickets.headD c.crew.seq).toNat < 2 ^ 15 →
    Runs i s c fun t => (slotTaken t c d (landOfField c b l) true slot {
      op := r.2, crew := 0, block := 0, handle := 0, desc := ds, total := z.2, recordOff := n }).collNext ctx.ctx x.first x.members x.stride)
  ∧ (∀ (s : State) (c : Ctx) (ch : BitVec 1) (d a b : BitVec 5), let i : Instr := .nmc ch d a b
    let t := s.atEffect i c
    let ds := descOf t c a 32
    let x := nmcDesc ds
    let rec' := (c.getS b).toAddress.toNat
    Ready s i c → c.active ≠ [] → descGood t c a 32 → (c.getS b).tag.isInt = true → nmcValid ds = true → x.dst % x.bytes = 0 →
    (x.reads.1 = true → x.s1 % x.bytes = 0) → (x.reads.2 = true → x.s2 % x.bytes = 0) → rec' % 16 = 0 → rangeGood c true rec' (rec' + 16 : Nat) true →
    (x.lp = true → landGood c x.land) → t.leavesGlobal c.go x.granule 65536 = false →
    Commands i s c d (if x.lp then landOf c x.land else {}) true { op := .nmc, crew := 0, block := 0, handle := 0, desc := ds, recordOff := rec' })

/-! ### Issue, traps and handlers -/

/-- R13, R17-R20: what the verdict of the run check says. It is the finding 1, length, exactly when the last packet it is given holds no TRL. A run that passes has the packets it is given; its last packet holds exactly one TRL,
every packet keeps the chain rule, and it holds at most one control transfer, in its last packet. -/
def Obligations.RunCheckFindings : Prop :=
  ∀ ps : List (List Word),
    let last := ps.getLastD []
    (runCheck ps = .error 1 ↔ ∀ w ∈ last, isTrl w = false)
    ∧ (∀ n, runCheck ps = .ok n → n = ps.length ∧ (∃ w ∈ last, isTrl w = true) ∧ (last.filter isTrl).length = 1
      ∧ (∀ p ∈ ps, chainRule p = true) ∧ (∀ p ∈ ps.dropLast, ∀ w ∈ p, isTransfer (instrOf w) = false)
      ∧ ((last.filter fun w => isTransfer (instrOf w)).length ≤ 1))

/-- R344, R359, R360: the causes' codes and the routing: a trap goes to the user handler exactly when the launch has one and the HCAUSE bit of its cause is set; only FPX, TRAP, LANE, STREAM and LANDING have one. -/
def Obligations.TrapRouting : Prop :=
  ∀ r : Record,
    (∀ k : Cause, userRoute r k = true ↔ r.handler ≠ 0 ∧ ((k = .fpx ∧ r.hcause.getLsbD 0) ∨ (k = .trap ∧ r.hcause.getLsbD 1) ∨ (k = .lane ∧ r.hcause.getLsbD 2)
      ∨ (k = .stream ∧ r.hcause.getLsbD 3) ∨ (k = .landing ∧ r.hcause.getLsbD 4)))
    ∧ ([Cause.illegal, .illop, .tag, .fpx, .align, .bounds, .prot, .lane, .rvto, .runlen, .freeze, .stream, .landing, .mcheck, .shadow, .poison, .ndet, .trap, .brk].map
        Cause.code = (List.range 19).map (· + 1)) ∧ Cause.watchdog.code = 0x1F

/-- R166, R361, R366, R368: the entry of traps. A pending trap of the block is entered when no handler runs, no chain group is half issued, no skid is due and its result queue has its values; a deferred trap is taken at the chain group that its crew would issue now, by an event or by the issue itself, in place of the word;
a rendezvous whose first waiting group has waited 2^24 cycles traps with RVTO in that group, at its chain group, which has not issued. Traps of a shadow are its lead's (R464, log 12). -/
def Obligations.TrapEvents : Prop :=
  (∀ (s : State) (cid : Nat) (c w : Crew) (g : Group) (t : TrapInfo), tget s.crews cid = some c → s.blockInHandler c.block = false → s.midChain c.block = false → s.skidDue c.block = false →
    s.nextTrap c.block = some (w, g, t) → w.id = cid → w.queueReady g = true →
    exec (.handlerEntry cid) s = .next ((s.haltBlock c.block w.id g.id).enterHandler w.id g.id t))
  ∧ (∀ (s : State) (r : StreamRef) (cid gid : Nat) (c : Ctx) (d : Deferred) (rest : List Deferred) (w : Word), s.focus = some r → s.carried r = some (cid, gid) →
    s.ctxOf r cid gid 0 = some c → s.mayIssue c = true → c.grp.snap = none → c.grp.joined = none → c.crew.handler = none → c.crew.deferred = d :: rest →
    s.groupWord c.crew c.grp = some w → s.chainWait { c with word := w } (instrOf w) = none →
    exec (.deferredTrapEntry cid) s = .next ((s.modCrew cid fun w => { w with deferred := w.deferred.drop 1 }).raiseTrap cid c.grp.id {
      cause := d.cause, packet := c.grp.packet, word := c.grp.word, mask := maskOf c.active, addr := d.addr.getD 0, info := d.info, defer := true, amask := maskOf c.active }))
  ∧ (∀ (s : State) (i : Instr) (c : Ctx) (d : Deferred) (rest : List Deferred), isEvent i = false → s.ctx? i = some c → s.mayIssue c = true → c.grp.snap = none →
    c.grp.joined = none → c.crew.handler = none → c.crew.deferred = d :: rest → s.chainWait c i = none →
    exec i s = .next ((s.modCrew c.cid fun w => { w with deferred := w.deferred.drop 1 }).raiseTrap c.cid c.grp.id {
      cause := d.cause, packet := c.grp.packet, word := c.grp.word, mask := maskOf (c.crew.activeLanes c.grp), addr := d.addr.getD 0, info := d.info, defer := true
      amask := maskOf (c.crew.activeLanes c.grp) }))
  ∧ (∀ (s : State) (cid gid since : Nat) (c : Crew) (g h : Group) (x : Ctx) (w : Word), tget s.crews cid = some c → c.group? gid = some g →
    g.wait = some .rendezvous → g.halted = false → g.trap = none → g.joined = none → c.frozen = false → c.isShadow = false → g.since = some since →
    since + 2 ^ 24 ≤ (s.core c.core).clk → s.reach c g 3 = some h → s.groupWord c h = some w →
    s.ctxOf { core := c.core, half := c.half, stream := 0 } cid gid w = some x →
    let y : Ctx := { x with grp := h, active := c.activeLanes h }
    s.firstWaiting y (maskCode w) = true →
    ∃ t : TrapInfo, t.cause = .rvto ∧ t.packet = g.packet ∧ t.word = g.word ∧ t.amask = maskOf (c.activeLanes g) ∧ t.mask = maskOf (s.missing y (maskCode w))
      ∧ exec (.rendezvousTimeout cid gid) s = .next (s.raiseTrap cid gid t))

/-- R375, R376: the group with which a return goes on, where no deferred trap is owed to its crew. A RETRY, and every return from a trap that names its word as not issued, puts it back at the word with the guards then in force; SKIP and COMMIT put it behind the word, COMMIT with one entry more in the queue where the word pushes;
after a trap taken at run end every form stands at the run's end, SKIP and COMMIT without its transfer, and after RUNLEN every form stands at the run's first packet. Handler mode ends. -/
def Obligations.ReturnResumes : Prop :=
  ∀ (s : State) (cid gid : Nat) (form : RteForm) (c : Crew) (h : Serving), tget s.crews cid = some c → c.id = cid → c.shadow = none → c.handler = some h → c.deferred = [] →
    s.crewsOf c.block = [c] → (∀ g ∈ c.groups, h.gmask &&& g.lanes ≠ 0) →
    let fill := min (leAt (s.readFrame c) 34 1) 16
    ∃ w g, tget (s.returnFrom cid gid form).crews cid = some w ∧ w.handler = none ∧ w.groups = [g] ∧ g.lanes = h.gmask
      ∧ (h.info.cause = .runlen → g.packet = h.info.packet ∧ g.runStart = h.info.packet ∧ g.final = none ∧ g.word = 0 ∧ g.fill = 0)
      ∧ (h.info.cause ≠ .runlen → g.runStart = h.runStart ∧ g.final = h.final
        ∧ (h.info.defer = false → form = .retry → g.packet = h.info.packet ∧ g.word = h.info.word ∧ g.guards = h.guards ∧ g.atEnd = false ∧ g.fill = fill)
        ∧ (h.info.defer = true → h.atEnd = false → g.packet = h.info.packet ∧ g.word = h.info.word ∧ g.guards = h.guards ∧ g.atEnd = false ∧ g.fill = fill)
        ∧ (h.info.defer = false → form ≠ .retry →
          (h.info.word < 2 → g.packet = h.info.packet ∧ g.word = h.info.word + 1 ∧ g.atEnd = false)
          ∧ (h.info.word = 2 → h.final ≠ some h.info.packet → g.packet = h.info.packet + 1 ∧ g.word = 0 ∧ g.atEnd = false)
          ∧ (h.info.word = 2 → h.final = some h.info.packet → g.atEnd = true)
          ∧ (form = .skip → g.fill = fill)
          ∧ (form = .commit → ∀ x, s.fetchWord c.launch h.info.packet h.info.word = some x →
            g.fill = if doesPush (instrOf x) then min 16 (fill + 1) else fill))
        ∧ (h.info.defer = true → h.atEnd = true → g.atEnd = true ∧ g.packet = h.final.getD h.info.packet
          ∧ g.transfer = if form = .retry then h.transfer else none))

/-! ### Events of engine commands -/

/-- R284, R289, R290, R295, R298, R300, R312, R313, R324, R387: a part of a copy, gather or scatter, one that cuts no granule of global memory, moves its units in ascending order until it is done or stops, and counts INB down by the bytes moved; a command that is done frees its slot and ends its ticket,
and one with no landing that failed owes its crew a LANDING trap; FATOM performs once for its ticket at the L2 that holds the sector; the L2 copies of the ranges of an NMC are dropped, the near-memory engine runs it over its elements in order and writes its completion record. -/
def Obligations.EngineCommandEvents : Prop :=
  (∀ (s : State) (core slot n : Nat) (c : FerryCmd), core < 512 → slot < 512 → s.cmd? core slot = some c → c.op ∈ [EngOp.fcopy, .fgath, .fscat] → s.cmdRuns core c = true →
    0 < n → c.prog + n * c.unit ≤ c.total → s.partEnds c n = true → (c.landing.isSome = true ∨ c.landVa = none) →
    let lid := s.launchOf c.crew
    let a := EngAcc.part core lid (s.pidOf lid) c n s
    let z := a.st.sealAll c.written a.clean
    let b := a.moved * c.unit
    let t := z.1.modCmd core slot fun f => { f with
      written := z.2, wrote := f.addWrote a.clean, ahead := a.ahead, prog := f.prog + b, done := f.total ≤ f.prog + b, badRead := if f.verify then f.badRead.orElse fun _ => a.bad else none }
    exec (.engineTransferPart core slot n) s = .next ((if b = 0 then t else t.countLand core slot (.countIn b)).stopCmd core slot a.stop))
  ∧ (∀ (s : State) (core slot : Nat) (c : FerryCmd), s.cmd? core slot = some c → c.done = true → c.updates = 0 →
    let t := s.modCore core fun r => { r with ferry := tdel r.ferry slot }
    let u := (t.count c.crew fun n => { n with copies := n.copies - 1 }).modCrew c.crew fun w => w.endTicket c.ticket
    let bad := c.badRead
    (((tget s.crews c.crew).map fun w : Crew => w.gen) ≠ some c.gen → exec (.engineCommandComplete core slot) s = .next t)
    ∧ (((tget s.crews c.crew).map fun w : Crew => w.gen) = some c.gen →
      (∀ h a, c.landing = some h → bad = some a → exec (.engineCommandComplete core slot) s = .next { u with landUpds := u.landUpds ++
        [({ home := h, op := .status 2, after := some (c.crew, c.seq), pid := u.pidOf (u.launchOf c.crew) } : LandUpd)] })
      ∧ (c.landing.isSome = true → bad = none → exec (.engineCommandComplete core slot) s = .next u)
      ∧ (c.landing = none → c.landVa.isSome = true → exec (.engineCommandComplete core slot) s = .next u)
      ∧ (∀ a, c.landing = none → c.landVa = none → c.fault = some a → exec (.engineCommandComplete core slot) s = .next (if c.op = .nmc then u else u.owe c.crew (c.landTrap a true)))
      ∧ (∀ a, c.landing = none → c.landVa = none → c.fault = none → bad = some a → exec (.engineCommandComplete core slot) s = .next (u.owe c.crew (c.landTrap a.1 a.2)))
      ∧ (c.landing = none → c.landVa = none → c.fault = none → bad = none → exec (.engineCommandComplete core slot) s = .next u)))
  ∧ (∀ (s : State) (core slot p pa : Nat) (c : FerryCmd) (o : Option Seal), s.cmd? core slot = some c → c.op = .fatom → s.cmdRuns core c = true →
    s.fatomReady core c = true → c.prog = 0 → (c.landing.isSome = true ∨ c.landVa = none) →
    let x := fatomDesc c.desc
    let lid := s.launchOf c.crew
    s.engPlace c lid (.virt none (s.pidOf lid) (BitVec.ofNat 64 x.addr)) x.size true = .ok (.glob p pa o) →
    let home := s.homeSlice p pa
    let key := s.ticketKey lid c.ticket
    let t := s.filterRetire home .l2 key c.hor
    t.filterGet home .l2 key 0 = none → t.filterFull home .l2 1 = false →
    let r := t.fatomAt core lid (s.pidOf lid) x (.glob p pa o)
    let v : RegVal := { bits := BitVec.ofNat 64 r.1.1, tag := if r.1.2 then .poison else .n64 }
    let u := r.2.filterPut home .l2 key 0 [v]
    let u := match x.res with
      | none => u
      | some off => u.engWrite core (.chip (.spad c.block c.side off)) (bytesOfNat 8 r.1.1) r.1.2
    exec (.fatomPerform core slot) s = .next ((u.modCmd core slot fun f => { f with prog := 8, done := true }).countLand core slot (.countIn 8)))
  ∧ (∀ (s : State) (core slot p pa : Nat) (c : FerryCmd) (o : Option Seal), s.cmd? core slot = some c → c.op = .nmc → s.cmdRuns core c = true →
    (c.landing.isSome = true ∨ c.landVa = none) →
    let x := nmcDesc c.desc
    let lid := s.launchOf c.crew
    s.engPlace c lid (.virt none (s.pidOf lid) (BitVec.ofNat 64 x.dst)) x.bytes true = .ok (.glob p pa o) →
    let home := s.homeSlice p pa
    let key := s.ticketKey lid c.ticket
    let t := s.filterRetire home .msc key c.hor
    t.filterGet home .msc key 0 = none → t.filterFull home .msc 1 = false →
    let a := (NmcAcc.elems core lid (s.pidOf lid) c x (x.count - c.prog) c.prog
      { st := t.backInvalidate p x (pa - x.dst % 65536), done := c.prog, sum := c.total, clean := c.written }).finish lid (s.pidOf lid) c x
    a.stop = none →
    let e := a.fail.getD (0, 0)
    let z := a.st.modCmd core slot fun f => { f with written := a.clean.flatMap fun w => w.rest a.clean }
    exec (.nmcRun core slot) s = .next ((z.filterPut home .msc key 0
      [({ bits := BitVec.ofNat 64 (a.done + e.1 * 2 ^ 32) } : RegVal), ({ bits := e.2 } : RegVal)]).endNmc core slot a.done e.1 e.2))

/-- R286, R302, R304, R307, R308, R387, R388: a part of a put without a remote landing to a rank on this device writes the chunks that its ticket has not applied already, and counts OUTB of its own landing; an acknowledgement of n bytes counts OUTB down by n, one that belongs to no command of the current generation counts for no landing;
a CBAR falls ARR by one once every member has issued; a ticketed request that arrives late is applied once for its ticket, and not when its ticket is acknowledged. -/
def Obligations.PeerCommandEvents : Prop :=
  (∀ (s : State) (core slot n : Nat) (c : FerryCmd) (e : RosterEntry), core < 512 → slot < 512 → s.cmd? core slot = some c → (c.op = .fput ∨ c.op = .fputs) → s.cmdRuns core c = true →
    s.cmdPeer c = some e → e.node = s.node → 0 < n → c.prog + 16 * n ≤ c.total → s.partEnds c n = true →
    (c.landing.isSome = true ∨ c.landVa = none) → (putDesc c.desc).rl = false →
    (s.peerLives e = false → exec (.engineTransferPart core slot n) s = .next (s.endCmd core slot (BitVec.ofNat 64 (putDesc c.desc).remote)))
    ∧ (s.peerLives e = true →
      let lid := s.launchOf c.crew
      let ppid := (s.peerPid e).getD (s.pidOf lid)
      let v := s.putArrive c ppid (c.prog / 16) n
      v.putRoom c ppid (c.prog / 16) n = true →
      let k := v.putKnown c ppid (c.prog / 16) n
      let a := EngAcc.part core lid (s.pidOf lid) { c with prog := c.prog + 16 * k } (n - k) v
      let z := a.st.sealAll c.written a.clean
      let b := (k + a.moved) * 16
      let t := (z.1.putRecord c ppid (c.prog / 16 + k) a.moved).modCmd core slot fun f => { f with
        written := z.2, wrote := f.addWrote a.clean, ahead := a.ahead, prog := f.prog + b, acked := f.acked + b, done := c.total ≤ c.prog + b }
      exec (.engineTransferPart core slot n) s = .next ((if b = 0 then t else t.countLand core slot (.countOut b)).stopCmd core slot a.stop)))
  ∧ (∀ (s : State) (slice txn n : Nat), s.txnOwner slice txn = none → exec (.fabricAckReceive slice txn n) s = .next (s.strayAck slice txn n))
  ∧ (∀ (s : State) (slice txn n core slot : Nat) (c : FerryCmd), s.txnOwner slice txn = some (core, slot, c) →
    ((c.done = true ∨ c.ending.isSome = true ∨ ((tget s.crews c.crew).map fun w : Crew => w.gen) ≠ some c.gen) → exec (.fabricAckReceive slice txn n) s = .next s)
    ∧ (c.done = false → c.ending = none → ((tget s.crews c.crew).map fun w : Crew => w.gen) = some c.gen → (c.op = .fput ∨ c.op = .fputs) → 0 < n →
      c.acked + n + (s.portLink slice).unsent txn ≤ c.prog → exec (.fabricAckReceive slice txn n) s = .next
        ((s.modCmd core slot fun f => { f with acked := f.acked + n, done := f.total ≤ f.acked + n }).countLand core slot (.countOut n))))
  ∧ (∀ (s : State) (core slot : Nat) (c : FerryCmd), s.cmd? core slot = some c → c.op = .collCbar → s.cmdRuns core c = true → c.sent = true → c.prog = 0 →
    (c.landing.isSome = true ∨ c.landVa = none) → s.collOver c (s.collGroup c) (s.collOwn c) = false → s.collReady c (s.collGroup c) (s.collOwn c) = true →
    exec (.cbarArrival core slot) s = .next (((s.countLand core slot .arrive).modCmd core slot fun f => { f with prog := 1, done := true }).collForget
      (s.collGroup c) c.recordOff (s.collOwn c)))
  ∧ (∀ (s : State) (n : Nat) (r : TicketedReq), s.requests[n]? = some r →
    let w : Crew := { id := r.crew, block := 0, launch := ((s.anyCrew r.crew).map fun w : Crew => w.launch).getD 0, idx := 0, width := 64, core := r.core }
    let vs := (s.entVaults w r.reply.ent).filter fun v => !s.vaultRefused r.core (s.pidOf w.launch) (.vault v.2)
    let t := ((vs.map fun v => vaultHome v.2 / 32).eraseDups).foldl (fun (t : State) k => t.filterRetire k .vault (s.ticketKey w.launch (some r.ticket)) r.horizon) s
    (s.spentTicket r = true → exec (.ticketedRequestArrival n) s = .next { s with requests := s.requests.eraseIdx n })
    ∧ (s.spentTicket r = false → t.filtersHaveRoom w r.reply.ent vs = true →
      exec (.ticketedRequestArrival n) s = .next { (t.applyEnt w r.reply.ent).2 with requests := t.requests.eraseIdx n }))

/-- R278, R288, R303, R340, R408, R409: a paused command of this device writes its 32-byte record into the next place of its slice's fault-queue ring when the ring has room, takes the next tag and raises the interrupt;
a resume verdict for the tag lets the command translate again, an unresolvable one ends it, an NMC with STATUS 3, and a landing whose own translation it was takes no update; a tag that names nothing paused is ignored. -/
def Obligations.FaultQueueEvents : Prop :=
  (∀ (s : State) (core slot : Nat) (c : FerryCmd) (a : DWord) (w p : Bool), core < 512 → s.cmd? core slot = some c → c.paused = some (a, w, p) → c.ftag = none →
    let q := s.faultQueueOf core c
    let y := s.slice q.2
    (y.fqProd - y.fqCons).toNat < 2 ^ (y.fqLog2n + 4) →
    let ctx := ((s.contextOf (s.launchOf c.crew)).map fun x : Context => x.ctx).getD 0
    let t := s.writeGlobal q.1 (y.fqBase.toNat + 32 * (y.fqProd.toNat % 2 ^ (y.fqLog2n + 4))) (faultRecord a ctx core (y.nextFtag % 65536) w p c.handle)
    let t := t.modSlice q.2 fun x => { x with
      fqProd := x.fqProd + 1, nextFtag := x.nextFtag + 1, paused := x.paused ++ [({ ftag := y.nextFtag % 65536, core := core, slot := slot } : PausedRef)] }
    exec (.faultQueueRecordWrite core slot) s = .next ((t.modCmd core slot fun f => { f with ftag := some (y.nextFtag % 65536) }).raiseSource q.1 q.2 0))
  ∧ (∀ (s : State) (slice ftag : Nat), (∀ q ∈ (s.slice slice).paused, q.ftag ≠ ftag) →
    exec (.fqResolveResume slice ftag) s = .next s ∧ exec (.fqResolveUnresolvable slice ftag) s = .next s)
  ∧ (∀ (s : State) (slice : Nat) (p : PausedRef) (c : FerryCmd), p ∈ (s.slice slice).paused → (∀ q ∈ (s.slice slice).paused, q.ftag = p.ftag → q = p) → p.core < 512 →
    s.cmd? p.core p.slot = some c → c.ftag = some p.ftag →
    exec (.fqResolveResume slice p.ftag) s = .next ((s.dropTag slice p.ftag).modCmd p.core p.slot fun f => { f with paused := none, ftag := none })
    ∧ (∀ a w k, c.paused = some (a, w, k) →
      let t := s.dropTag slice p.ftag
      let t := if c.landPaused then t.modCmd p.core p.slot fun f => { f with landDead := true } else t
      (c.op.isColl = false → c.op ≠ .nmc → exec (.fqResolveUnresolvable slice p.ftag) s = .next (if c.ending.isSome then t.finishCmd p.core p.slot else t.endCmd p.core p.slot a))
      ∧ (c.op = .nmc → exec (.fqResolveUnresolvable slice p.ftag) s = .next (t.endNmc p.core p.slot c.prog 3 (a - BitVec.ofNat 64 (a.toNat % 256))))))

/-! ### Queues, launches and blocks -/

/-- R340, R342, R343, R348, R350: registering a queue descriptor, a doorbell write, the admission of a record, and stopping a queue. A good descriptor makes a queue with HEAD and TAIL 0 and its DBELL written; a doorbell count that is accepted becomes TAIL, one that is not is reported and stops the queue;
the next record is read, HEAD rises, and the launch is admitted as ready, waiting or completing, with the lowest reason of refusal, or with the end of its context where that was killed or lost, the choice of log 58. -/
def Obligations.QueueEvents : Prop :=
  (∀ (s : State) (slice : Nat) (addr : DWord), (s.slice slice).fwPid ≠ 0 →
    let pid := (s.slice slice).fwPid
    let v := s.detectGlobal pid addr.toNat 64
    let b := v.readGlobal pid addr.toNat 64
    (v.descOk pid addr b = false → exec (.schedQdesc slice addr) s = .next (v.queueRecord slice pid addr (leAt b 12 2)))
    ∧ (v.descOk pid addr b = true →
      let bell := Config.doorbell slice pid (leAt b 12 2)
      let w := v.writeGlobal pid (addr.toNat + 24) (bytesOfNat 8 bell.toNat ++ bytesOfNat 8 0)
      exec (.schedQdesc slice addr) s = .next { w with nextId := w.nextId + 1, queues := w.queues ++ [({
        pid := pid, qnum := leAt b 12 2, desc := addr, ring := BitVec.ofNat 64 (leAt b 0 8), log2n := leAt b 8 1, ceil := leAt b 9 1
        launchMode := leAt b 10 1 == 1, ctx := ctxKey pid (leAt b 16 4), dbell := bell, home := slice, uid := v.nextId } : Queue)] }))
  ∧ (∀ (s : State) (slice : Nat) (v : DWord), (s.slice slice).fwPid ≠ 0 →
    (s.queue? (s.slice slice).fwPid (v.toNat % 4096) = none → exec (.schedQstop slice v) s = .next s)
    ∧ ∀ q, s.queue? (s.slice slice).fwPid (v.toNat % 4096) = some q → exec (.schedQstop slice v) s = .next (if q.home = slice then s.stopQueue q.uid else s))
  ∧ (∀ (s : State) (src pid : Nat) (addr v : DWord) (q : Queue), q ∈ s.queues → (∀ p ∈ s.queues, p.dbell = addr → p = q) → q.dbell = addr →
    let t : State := { s with hostAnswer := some [] }
    (s.firewallOk src q.home pid = false → exec (.doorbellWrite src pid addr v) s = .next { (s.firewallRecord src q.home pid addr .plain) with hostAnswer := none })
    ∧ (s.firewallOk src q.home pid = true →
      ((q.stopped = true ∨ q.launchMode = true) → exec (.doorbellWrite src pid addr v) s = .next t)
      ∧ (q.stopped = false → q.launchMode = false →
        (q.accepts (v.truncate 32) = true → exec (.doorbellWrite src pid addr v) s = .next (t.modQueue q.uid fun p => { p with tail := v.truncate 32 }))
        ∧ (q.accepts (v.truncate 32) = false → exec (.doorbellWrite src pid addr v) s = .next ((t.queueRecord q.home pid q.desc q.qnum).stopQueue q.uid)))))
  ∧ (∀ (s : State) (pid qnum : Nat) (q : Queue) (b : List Byte), s.queue? pid qnum = some q → q.pause = none → q.tail ≠ q.head → s.sliceRuns q.home = true →
    s.readVirtual pid (q.slotAddr (q.head + 1).toNat) 128 = some b →
    let r := parseRecord b
    let v := s.detectVirtual pid (q.slotAddr (q.head + 1).toNat) 128
    let v := if recordOk b then v.detectVirtual pid r.cargo.toNat (32 * r.cargoN) else v
    let cargo := if recordOk b then v.readCargo pid r else none
    let ds := r.deps.map (v.depFate pid)
    let why := v.refusal q b cargo ds
    ∃ l : Launch, exec (.recordAdmission pid qnum) s = .next ((v.addLaunch l).modQueue q.uid fun p => Queue.hold { p with head := p.head + 1 } (q.head + 1).toNat)
      ∧ l.id = v.nextId ∧ l.lid = launchIdOf q.qnum (q.head + 1).toNat ∧ l.record = r ∧ l.prio = min r.prio q.ceil ∧ l.cargo = cargo.getD []
      ∧ (∀ e, v.contextEnd q.ctx = some e → l.phase = .completing ∧ l.status = e)
      ∧ (v.contextEnd q.ctx = none → (why ≠ 0 → l.phase = .completing ∧ l.status = .refused ∧ l.detail = why)
      ∧ (why = 0 → DepFate.failed ∈ ds → l.phase = .completing ∧ l.status = .depfail)
      ∧ (why = 0 → DepFate.failed ∉ ds → pendingDeps ds ≠ [] → l.phase = .waiting ∧ l.deps = pendingDeps ds)
      ∧ (why = 0 → DepFate.failed ∉ ds → pendingDeps ds = [] → l.phase = .ready)))

/-- R207, R219-R224, R278, R279, R350, R351: the life of a block, from a template crew's creation and the staging of cargo, after which the crews are created, over images and writeback to retirement, and the completion of the launch: scrub, status word and completion landing in this order. -/
def Obligations.BlockLifeEvents : Prop :=
  (∀ (s : State) (lid core : Nat) (l : Launch), tget s.launches lid = some l → l.phase = .ready → l.record.level ≠ 0 → l.templateBlock = none →
    core / 32 ∈ s.slicesOf l.pid → s.coreTakes core = true → ((s.coreUse core).template l.record (s.coreUse core).half).ok = true →
    let b := Machine.templateBlock s.nextId l core (s.coreUse core).half (s.slice (core / 32)).clk
    let m := { l with templateBlock := some b.id }
    exec (.templateCrewCreate lid core) s = .next
      (({ s with nextId := s.nextId + 1, blocks := tput s.blocks b.id b, launches := tput s.launches lid m } : State).stageTemplate m b))
  ∧ (∀ (s : State) (cid : Nat) (c : Crew) (g : Group) (b : Block) (l : Launch) (t : Transfer) (level : Nat), tget s.crews cid = some c → c.groups.head? = some g →
    tget s.blocks c.block = some b → tget s.launches c.launch = some l → g.transfer = some t → t.kind = .freeze level → g.atEnd = true → g.wait = some .freeze →
    b.state = .running → c.frozen = false → g.trap = none → g.halted = false → c.sact = 0 → c.replay = [] → c.deferred = [] → s.crewBusy c = false →
    (∀ sd ∈ b.sides, sd.queue = []) →
    exec (.imageTake cid) s = .next (if level = 1 then s.stampLaunch c b (t.packet + 1) else s.stampBlock c b l (t.packet + 1)))
  ∧ (∀ (s : State) (bid : Nat) (b : Block) (l : Launch), tget s.blocks bid = some b → tget s.launches b.launch = some l → b.state = .staging → b.template = false →
    b.killed = false → pauseWaits b.pause = false →
    (b.geo.stage = 0 ∨ (∀ e ∈ l.cargo, (e.dirIn && e.inChannel l.record) = false) ∨ ((s.groupOfBlock b).map fun g : StageGroup => g.staged) ≠ some false) →
    let r := s.moveCargo b (s.stagingMoves l b)
    (r.1 = .paused → exec (.cargoStaging bid) s = .next r.2)
    ∧ (r.1 = .failed → exec (.cargoStaging bid) s = .next (r.2.endLaunch l.id .fault))
    ∧ (r.1 = .done → exec (.cargoStaging bid) s = .next ((({ r.2 with
      stageGroups := if b.geo.stage ≠ 0 then r.2.stageGroups else ((tget r.2.stageGroups b.group).map fun g : StageGroup =>
        tput r.2.stageGroups b.group { g with staged := true }).getD r.2.stageGroups } : State).modBlock bid fun b => { b with state := .running }).firstCrews b l)))
  ∧ (∀ (s : State) (bid : Nat) (b : Block) (l : Launch), tget s.blocks bid = some b → tget s.launches b.launch = some l → (b.state = .running ∨ b.state = .writeback) →
    pauseWaits b.pause = false → s.blockDone b = true →
    let close (t : State) : State := t.modBlock bid fun b => { b with state := .retiring, pause := none }
    let r := (s.modBlock bid fun b => { b with state := .writeback }).moveCargo { b with pause := none } (writebackMoves l b ((s.modBlock bid fun b => { b with state := .writeback }).lastOfGroup b))
    (b.killed = true → exec (.blockWriteback bid) s = .next (close s))
    ∧ (b.killed = false → b.template = false → r.1 = .paused → exec (.blockWriteback bid) s = .next r.2)
    ∧ (b.killed = false → b.template = false → r.1 = .failed → exec (.blockWriteback bid) s = .next (close (r.2.endLaunch l.id .fault)))
    ∧ (b.killed = false → b.template = false → r.1 = .done → exec (.blockWriteback bid) s = .next (close r.2)))
  ∧ (∀ (s : State) (bid : Nat) (b : Block) (l : Launch), tget s.blocks bid = some b → b.state = .retiring → tget (s.dropBlock b).launches b.launch = some l →
    let t : State := { s.dropBlock b with freezing := (s.dropBlock b).freezing.map fun u : FreezingUnit => { u with blocks := u.blocks.filter fun k => k != bid } }
    let m := { l with retired := l.retired + 1, blockImages := tdel l.blockImages bid }
    let t : State := { t with launches := tput t.launches l.id m }
    exec (.blockRetirement bid) s = .next (if l.phase = .running ∧ l.nextBeta = l.record.grid ∧ l.back = [] ∧ t.launchBusy m = false then t.endLaunch l.id .ok else t))
  ∧ (∀ (s : State) (lid : Nat) (l : Launch), tget s.launches lid = some l → l.phase = .completing → s.launchBusy l = false →
    let t := ((s.scrubWorld l).writeStatus l).landStatus l
    exec (.launchCompletion lid) s = .next (({ t with
      queues := t.queues.map fun q : Queue => if q.uid = l.quid then q.settleStatus l.num l.status.code else q
      launches := (tdel t.launches lid).map fun p : Nat × Launch => (p.1, p.2.depDone lid (t.homeClock p.2) (l.status == Status.ok)) } : State).releaseDue l.record.key))

/-- R235, R238, R353-R357, R382, R406: the schedulers. The launch that is served, while no saved unit of higher priority has room, gives its next stage group to the chosen core's block queue; the group at a queue's head is dispatched when its resources are free; every 8192 cycles a core may move its latest group to a neighbour;
a block that has held its core for its quantum is frozen when another queue of its level waits; the candidate of a launch that has waited longest, 2^22 cycles at least, reserves a core that no other holds, until it is dispatched; a freeze signal that is due stops a unit whose groups stand at chain-group boundaries and of which no handler is being entered. -/
def Obligations.SchedulerEvents : Prop :=
  (∀ (s : State) (slice : Nat) (l : Launch), s.sliceRuns slice = true → s.served slice = some l → s.resumesFirst l = false →
    let t := s.modSlice slice fun x => { x with turns := tput x.turns (s.effPrio l) l.quid }
    (∀ k, l.record.coop = false → t.chooseCore l = some k →
      exec (.blockAssign slice) s = .next (((t.makeGroup l l.upNext).2.modCore k fun c => { c with
        blockQueue := c.blockQueue ++ (t.makeGroup l l.upNext).1.blocks }).handedOut l 1))
    ∧ (∀ ps, l.record.coop = true → t.coopPlaces l = some ps →
      exec (.blockAssign slice) s = .next ((ps.zipIdx.foldl (fun (u : State) x =>
        (u.makeGroup l x.2).2.placeGroupAt (u.makeGroup l x.2).1 l.record x.1.1 x.1.2) (t.unreserve l.id fun _ => true)).handedOut l l.record.grid)))
  ∧ (∀ (s : State) (core bid : Nat) (b : Block) (g : StageGroup) (l : Launch) (halves : List (List Nat)), (s.core core).blockQueue.head? = some bid →
    tget s.blocks bid = some b → tget s.stageGroups b.group = some g → tget s.launches b.launch = some l → s.groupPlace l.record l.id core = some halves →
    (∀ k ∈ l.record.cores core, s.coreTakes k = true ∧ s.reservedFrom k l (s.groupBeta g) = false) →
    let t := s.modCore core fun c => { c with blockQueue := c.blockQueue.filter fun b => !g.blocks.contains b }
    exec (.blockDispatch core) s = .next (({ t with
      cores := t.cores.map fun e : Nat × Core => (e.1, if e.2.reservedBy.any fun r => r.1 == l.id && t.groupBeta g r.2 then ({ e.2 with reservedBy := none } : Core) else e.2) } : State).placeGroupAt g l.record core halves))
  ∧ (∀ (s : State) (core : Nat), 8192 * ((s.core core).exchanges + 1) ≤ (s.core core).clk →
    let t := s.modCore core fun c => { c with exchanges := c.exchanges + 1 }
    let depth (k : Nat) : Nat := (t.core k).blockQueue.length
    let limit := (t.slice (core / 32)).balance
    let fits (g : StageGroup) (k : Nat) : Bool := limit != 0 && depth k + limit ≤ depth core && depth k + g.blocks.length ≤ 8 && t.coreTakes k
    (t.movableGroup core = none → exec (.balanceExchange core) s = .next t)
    ∧ (∀ g, t.movableGroup core = some g → (coreNeighbours core).find? (fits g) = none → exec (.balanceExchange core) s = .next t)
    ∧ (∀ g k, t.movableGroup core = some g → (coreNeighbours core).find? (fits g) = some k → exec (.balanceExchange core) s = .next
      ((t.modCore core fun c => { c with blockQueue := c.blockQueue.filter fun b => !g.blocks.contains b }).modCore k fun c => { c with blockQueue := c.blockQueue ++ g.blocks }).dropCopies))
  ∧ (∀ (s : State) (lid core : Nat) (l : Launch) (c : Nat × Nat), tget s.launches lid = some l → s.longest l = some c → 2 ^ 22 ≤ c.2 →
    (∀ p ∈ s.launches, p.2.pid = l.pid → s.waitsForRoom p.2 = true → s.effPrio p.2 ≤ s.effPrio l) → (∀ e ∈ s.cores, e.2.reservedBy ≠ some (lid, c.1)) → (s.core core).reservedBy = none →
    core / 32 ∈ s.slicesOf l.pid → s.coreTakes core = true →
    exec (.candidateReserve lid core) s = .next (s.modCore core fun r => { r with reservedBy := some (lid, c.1) }))
  ∧ (∀ (s : State) (l : Launch) (c : Nat × Nat), s.longest l = some c → c ∈ s.candidates l ∧ ∀ d ∈ s.candidates l, d.2 ≤ c.2)
  ∧ (∀ (s : State) (u : FreezeUnit), s.freezeDue u = true → s.unitBlocks u ≠ [] →
    (∀ b ∈ s.unitBlocks u, b.freezable = true ∧ s.atBoundary b = true ∧ s.entering b.id = false) →
    ∃ t, exec (.freezeSignal u) s = .next t
      ∧ (∀ k b, tget s.blocks k = some b → tget t.blocks k = some (if k ∈ (s.unitBlocks u).map Block.id then { b with state := .frozen } else b))
      ∧ (∀ k c, tget s.crews k = some c → ∃ d, tget t.crews k = some d ∧ d.regs = c.regs ∧ d.id = c.id
        ∧ (c.block ∈ (s.unitBlocks u).map Block.id → d.frozen = true) ∧ (c.block ∉ (s.unitBlocks u).map Block.id → d = c))
      ∧ t.freezing = s.freezing ++ [{ id := s.nextId, unit := u, blocks := (s.unitBlocks u).map Block.id, since := ((s.unitBlocks u).flatMap fun b => b.sides.map fun sd => sd.core).eraseDups.foldl (fun w k => tput w k (s.core k).clk) [] }])
  ∧ (∀ (s : State) (bid : Nat) (b : Block) (l : Launch), tget s.blocks bid = some b → tget s.launches b.launch = some l → b.onCore = true →
    s.allowance b ≤ s.heldFor b → (∃ p ∈ s.launches, p.2.pid = l.pid ∧ p.2.quid ≠ l.quid ∧ s.effPrio p.2 = s.effPrio l ∧ s.waitsForRoom p.2 = true) →
    s.unitBlocks (s.unitOf b) ≠ [] → (∀ x ∈ s.unitBlocks (s.unitOf b), x.freezable = true ∧ s.atBoundary x = true ∧ s.entering x.id = false) →
    ∃ t, s.freezeSignal (s.unitOf b) = some t ∧ exec (.quantumExpiry bid) s = .next t)

/-! ### Pre-emption, contexts and shadow mode -/

/-- R382, R388, R391-R397, R402-R405, R407: a settled unit is captured into manifests; a captured one, once no store that its cores saw is on its way and the markers of a move have come, is written into the save area of its context and only then released; a saved one whose turn it is and whose parts pass their checks is put on cores and its cut delivered, one that fails a check, the first of the five that any part fails, loses its context;
a replay goes on by the next entry; a core not captured 65,536 cycles after the signal fails, its unit's context is killed and the blocks of others leave it, or where it had failed already the context is lost. -/
def Obligations.PreemptionEvents : Prop :=
  (∀ (s : State) (n : Nat) (u : FreezingUnit), s.freezingUnit? n = some u → u.captured = false → u.blocks ≠ [] → s.settled u = true →
    (∀ k ∈ coresOf (s.unitMembers u), s.genFree k = true) →
    exec (.capture n) s = .next (s.captureUnit u)
    ∧ (∀ k c, tget (s.captureUnit u).crews k = some c → k ∈ (s.crewsIn u.blocks).map Crew.id →
      c.storeQ = [] ∧ c.loads = [] ∧ c.replies = [] ∧ c.regs.cnt = {} ∧ ∀ x ∈ c.streams, x.2.fetched = [])
    ∧ (∀ k ∈ coresOf (s.unitMembers u), ((s.captureUnit u).core k).ctxgen = (s.core k).ctxgen + 1
      ∧ ∀ f ∈ ((s.captureUnit u).core k).ferry, f.2.crew ∉ (s.crewsIn u.blocks).map Crew.id))
  ∧ (∀ (s t : State) (n : Nat) (u : FreezingUnit) (x : Context), s.freezingUnit? n = some u → u.captured = true → s.unitMembers u ≠ [] →
    (∀ k ∈ coresOf (s.unitMembers u), ∀ v ∈ s.vaultView k, u.pendMark ≤ v.seq) → s.cutComplete (s.unitCtx u) = true →
    let bs := s.unitMembers u
    let v := s.takeCut u (s.unitCtx u)
    let parts := v.freeParts (s.unitCtx u) (coresOf bs).length
    v.writeParts (s.unitCtx u) (v.unitSeal bs) (parts.zip ((coresOf bs).map (v.corePart u))) = some t →
    tget t.contexts (s.unitCtx u) = some x →
    let worlds := (bs.map fun b => (t.recordOf b.launch).key).eraseDups.filter fun h => h ≠ 0
    let w := worlds.foldl State.dropLines (t.releaseUnit u.blocks)
    exec (.contextSave n) s = .next { w with
      saved := w.saved ++ [t.savedUnit u x parts], freezing := w.freezing.filter (fun y => y.id != n),
      strays := w.strays.filter fun y => !((s.crewsIn u.blocks).map fun c => c.id).contains y.cmd.crew || !y.cmd.txns.isEmpty })
  ∧ (∀ (s : State) (n : Nat) (cores : List Nat) (u : SavedUnit) (x : Context) (p : Partition), s.saved.find? (fun u => u.id == n) = some u →
    tget s.contexts u.ctx = some x → tget s.partitions x.pid = some p → p.needSession = false → x.lost = false → x.killed = false → cores.length = u.keys.length →
    s.assignsFirst u = false → (∀ v ∈ s.saved, s.resumesBefore x u v = false) →
    let v := u.parts.foldl (fun (v : State) p => v.detectPart x p.1) s
    (∀ part check, v.badPart x u = some (part, check) → exec (.restore n cores) s = .next (v.loseContext u.ctx (some (part, check))))
    ∧ (∀ t w, v.badPart x u = none → v.placeAllSaved u.withoutFlits (u.keys.zip cores) = some t →
      ({ t with saved := t.saved.filter fun y => y.id != n } : State).endCut u.ctx
        ((v.saved.filter fun y => y.ctx == u.ctx).flatMap SavedUnit.recorded ++ v.cutFlits u.ctx) = some w →
      exec (.restore n cores) s = .next w))
  ∧ (∀ (s : State) (x : Context) (u : SavedUnit) (part check : Nat), s.badPart x u = some (part, check) →
    1 ≤ check ∧ check ≤ 5 ∧ (∃ q, (part, q) ∈ u.parts) ∧ s.partCheck x part (s.unitSeal u.blocks) = check
      ∧ ∀ p ∈ u.parts, s.partCheck x p.1 (s.unitSeal u.blocks) = 0 ∨ check ≤ s.partCheck x p.1 (s.unitSeal u.blocks))
  ∧ (∀ (s t : State) (cid k : Nat) (c : Crew), tget s.crews cid = some c → c.frozen = false → s.replayNext c = some k → s.replayEntry c k = some t →
    exec (.manifestReplayStep cid) s = .next t)
  ∧ (∀ (s : State) (core : Nat) (u : FreezingUnit), (s.freezing.find? fun u => !u.captured && ((tget u.since core).map fun t => decide (t + 65536 ≤ (s.core core).clk)) == some true) = some u →
    let ctx := s.unitCtx u
    let t := ((s.modCore core fun c => { c with failed := true }).killContext ctx).report [((tget s.contexts ctx).map fun x : Context => x.pid).getD 0]
      { type := 8, fatal := true, slice := core / 32, core := core % 32, ctx := ctx }
    ((s.core core).failed = false → exec (.watchdog core) s = .next (({ t with freezing := t.freezing.filter fun x => x.id != u.id } : State).leaveCore core ctx))
    ∧ ((s.core core).failed = true → exec (.watchdog core) s = .next
      { s.loseContext ctx none with freezing := (s.loseContext ctx none).freezing.filter fun x => x.id != u.id }))

/-- R302, R380, R387, R398, R443, R445, R454, R464-R466: contexts and shadow crews. The supervisor's action kills the block, whose launch ends with FAULT, or the context; a context is created with its save area and ends with what ran of it;
a roster of 1 to 1024 ranks is set; a move begins and, once its units are captured, sends a CUT marker on each channel: the ports of the partition that reach a peer; a lead and a shadow that agree go on, a difference, of the words before the masks and of the lanes the lowest, or a shadow 2^24 cycles late is a mismatch. -/
def Obligations.ContextEvents : Prop :=
  (∀ (s : State) (cid : Nat) (c : Crew), tget s.crews cid = some c → c.frozen = false → (∀ g ∈ c.groups, g.snap = none) →
    let t := s.modCrew cid fun w => { w with sact := 0 }
    (c.sact = 1 → exec (.sactKillBlock cid) s = .next ((t.stopBlock c.block).endLaunch c.launch .fault))
    ∧ (c.sact = 2 → exec (.sactKillContext cid) s = .next (t.killContext (s.ctxOfLaunch c.launch))))
  ∧ (∀ (s : State) (ctx pid node : Nat) (area : DWord), tget s.contexts (ctxKey pid ctx) = none → (tget s.partitions pid).isSome = true → ctx < 2 ^ 32 →
    exec (.contextCreate ctx pid node area) s = .next { s with
      contexts := tput s.contexts (ctxKey pid ctx) { ctx := ctxKey pid ctx, pid := pid, node := node, area := area }, node := node })
  ∧ (∀ (s : State) (ctx : Nat), (tget s.contexts ctx).isSome = true →
    exec (.contextDestroy ctx) s = .next { s.killContext ctx with
      contexts := tdel (s.killContext ctx).contexts ctx, saved := (s.killContext ctx).saved.filter fun u => u.ctx != ctx })
  ∧ (∀ (s : State) (ctx own : Nat) (ranks : List RosterEntry), (tget s.contexts ctx).isSome = true → ranks ≠ [] → ranks.length ≤ 1024 →
    exec (.rosterEstablish ctx own ranks) s = .next (s.modContext ctx fun x => { x with
      own := own, roster := ranks.map fun e : RosterEntry => { e with
        ctx := ctxKey x.pid e.ctx, usable := e.usable && (e.node == s.node || e.ports.any fun k => (s.slice k.1).fwPid == x.pid && (s.portLink k.1).mode == 0) } }))
  ∧ (∀ (s : State) (ctx : Nat) (x : Context), tget s.contexts ctx = some x →
    (s.contextCaptured ctx = false → x.cutting = none → exec (.migrationCut ctx) s = .next (s.modContext ctx fun x => { x with cutting := some [] }))
    ∧ (s.contextCaptured ctx = true →
      let sent := x.cutting.getD []
      let due := (s.channels x).filter fun k => !sent.contains k
      (x.cutting = none ∨ due ≠ []) →
      exec (.migrationCut ctx) s = .next (due.foldl (fun (t : State) k => t.queueFlits k.1 [({ ftype := 4, len := 1, dest := k.2, payload := bytesOfNat 4 ctx ++ bytesOfNat 12 0 } : PlainFlit)])
        (s.modContext ctx fun x => { x with cutting := some (sent ++ due) })))
    ∧ ∀ k, k ∈ s.channels x ↔ ∃ e ∈ x.roster, e.node ≠ s.node ∧ k.2 = e.node ∧ ∃ n, (k.1, n) ∈ e.ports ∧ (s.slice k.1).fwPid = x.pid ∧ s.portCarries k.1 = true)
  ∧ (∀ (s : State) (cid : Nat) (c d : Crew) (b : Block) (h : HeldChain), s.leadHeld cid = some (c, b, h, d) →
    (∀ k, s.shadowReached c d h = some k →
      (compareHeld h.words k = none → exec (.shadowCompare cid) s = .next (s.dropHeld c.id true))
      ∧ (∀ m, compareHeld h.words k = some m → exec (.shadowCompare cid) s = .next (s.mismatch c b h m)))
    ∧ (s.shadowReached c d h = none → h.since + 2 ^ 24 ≤ (s.core c.core).clk →
      exec (.shadowTimeout cid) s = .next (s.mismatch c b h h.late)))
  ∧ (∀ (a b : HeldWord) (as bs : List HeldWord),
    ((∀ w ∈ as, (w.data.map Prod.fst).Nodup) → compareHeld as as = none)
    ∧ (∀ m, compareWord a b = some m → compareHeld (a :: as) (b :: bs) = some m)
    ∧ ((a.word ≠ b.word ∨ a.packet ≠ b.packet ∨ a.wpos ≠ b.wpos) → compareWord a b = some { word := a, detail := 3, lane := lowLane a.mask })
    ∧ (a.word = b.word → a.packet = b.packet → a.wpos = b.wpos →
      (a.mask ≠ b.mask → compareWord a b = some { word := a, detail := 4, lane := lowLane (a.mask ^^^ b.mask) })
      ∧ (a.mask = b.mask → ∀ l vs rest, a.data = (l, vs) :: rest →
        (tget a.addrs l ≠ tget b.addrs l → compareWord a b = some { word := a, detail := 1, lane := l, addr := some ((tget a.addrs l).getD 0) })
        ∧ (tget a.addrs l = tget b.addrs l → vs.length ≠ ((tget b.data l).getD []).length →
          compareWord a b = some { word := a, detail := 2, lane := l, addr := some ((tget a.addrs l).getD 0) }))))

/-! ### Links -/

/-- R445-R452: the events of a link. A flit is sent while the link runs and sending has not stopped: a retransmission first, then one from the queue while the window has room, else an IDLE, each with the next INV; with no INV left the slot is switched by a MARKER, or sending stops; a key goes into the other sending slot unless it holds a fresh one, or into a retired receiving slot; a link that trains has fresh keys, slot 0, INV 0 and SEQ 0; a retrain keeps them and sends what is not acknowledged again;
lanes lost leave it at half width, with twice the cost and half the window, or down, its keys and retry buffer gone, whereupon the commands it carried take another route, the cheapest that their partition has, or end; an Ethernet frame of at most 9216 bytes is held in mode 1. -/
def Obligations.LinkEvents : Prop :=
  (∀ (s : State) (k : Nat), (s.portLink k).runs = true → (s.portLink k).stopped = false → exec (.flitSend k) s = .next (s.modLink k Link.send))
  ∧ (∀ l : Link,
    (l.txInv < 2 ^ 32 →
      (∀ p, l.retry[l.retry.length - l.resend]? = some p → l.send = ({ l with resend := l.resend - 1, retries := min (l.retries + 1) 0xFFFFFFFF } : Link).emit p)
      ∧ (l.resend = 0 →
        (∀ p rest, l.sendQ = p :: rest → l.retry.length < l.window →
          l.send = ({ l with sendQ := rest, seq := l.seq + 1, retry := l.retry ++ [{ p with seq := l.seq }] } : Link).emit { p with seq := l.seq })
        ∧ ((l.sendQ = [] ∨ l.window ≤ l.retry.length) →
          l.send = ({ l with seq := l.seq + 1, retry := l.retry ++ [{ ftype := 0, seq := l.seq }] } : Link).emit { ftype := 0, seq := l.seq })))
    ∧ (2 ^ 32 ≤ l.txInv →
      (l.otherKey.fresh = false → l.send = { l with stopped := true })
      ∧ (l.otherKey.fresh = true → l.send.txSlot = !l.txSlot ∧ l.send.txInv = 1 ∧ l.send.seq = l.seq + 1 ∧ ∃ f, l.send.wire = [f] ∧ f.ftype = 3 ∧ f.inv = 0 ∧ f.seq = l.seq ∧ f.slot = !l.txSlot))
    ∧ (∀ p, (l.emit p).wire = [l.encrypt p] ∧ (l.emit p).txInv = l.txInv + 1 ∧ (l.emit p).nakDue = false ∧ (l.emit p).retry = l.retry
      ∧ (l.encrypt p).inv = BitVec.ofNat 32 l.txInv ∧ (l.encrypt p).slot = l.txSlot ∧ (l.encrypt p).ackSeq = l.expect ∧ (l.encrypt p).nak = l.nakDue ∧ (l.encrypt p).seq = p.seq))
  ∧ (∀ (s : State) (k : Nat) (key : BitVec 256) (salt : BitVec 64) (slot : Bool), let l := s.portLink k
    let x : KeySlot := { key := key, salt := salt, fresh := true, live := true }
    (slot ≠ l.txSlot → l.otherKey.fresh = false → exec (.keyInstall k true slot key salt) s = .next (s.modLink k fun _ =>
      { l with tx0 := if slot then l.tx0 else x, tx1 := if slot then x else l.tx1, stopped := false, rekeyAsked := false }))
    ∧ ((l.rxKey slot).live = false → exec (.keyInstall k false slot key salt) s = .next (s.modLink k fun _ =>
      { l with rx0 := if slot then l.rx0 else x, rx1 := if slot then x else l.rx1 })))
  ∧ (∀ (s : State) (k : Nat), (s.portLink k).mode = 0 → (s.portLink k).lanes ≠ 0 →
    exec (.linkRetrain k) s = .next ((if (s.portLink k).up then s.linkEvent k 1 else s).modLink k Link.retrain)
    ∧ exec (.linkLaneLoss k true) s = .next ((s.modLink k Link.half).linkEvent k 2)
    ∧ exec (.linkLaneLoss k false) s = .next (((s.modLink k Link.down).linkEvent k 3).endTransfers k))
  ∧ (∀ (s : State) (k lanes : Nat) (keys : LinkKeys), (s.portLink k).lanes = 0 → (s.portLink k).up = false → (lanes = 4 ∨ lanes = 8) → (s.slice k).fwPid ≠ 0 →
    exec (.linkTrained k lanes keys) s = .next (s.modLink k fun l => l.trained lanes keys))
  ∧ (∀ l : Link,
    l.retrain = { l with up := true, resend := l.retry.length, fails := 0, discarding := false }
    ∧ l.half = { l.retrain with lanes := 4, cost := 2, window := sendWindow 4, weight := 4 } ∧ sendWindow 8 = 2 * sendWindow 4
    ∧ (let d := l.down
      d.up = false ∧ d.lanes = 0 ∧ d.retry = [] ∧ d.resend = 0 ∧ d.tx0 = {} ∧ d.tx1 = {} ∧ d.rx0 = {} ∧ d.rx1 = {} ∧ d.mode = l.mode ∧ d.cut = l.cut ∧ d.frames = l.frames
        ∧ d.inbound = (l.inbound.filter fun i => i.whole) ∧ d.sendQ = l.sendQ.filter fun p => p.ftype == 4 || p.ftype == 5))
  ∧ (∀ (s : State) (k : Nat),
    (∀ n, s.linkEvent k n = s.report [(s.slice k).fwPid] { type := 0x0B, slice := k, info := BitVec.ofNat 64 n })
    ∧ s.endTransfers k = (s.cores.flatMap fun p => (p.2.ferry.filter fun f => !f.2.done && f.2.txns.any fun t => t.1 / 4096 == k).map fun f => (p.1, f.1, f.2)).foldl
      (fun (t : State) x => let c := x.2.2
        if t.hasRoute c then t.modCmd x.1 x.2.1 fun f => if f.op.isColl then { f with txns := [], ahead := none, sent := false, toSend := 0, acked := 0 }
          else if f.op = .fget then { f with txns := [], ahead := none, toSend := f.prog } else { f with txns := [], ahead := none, prog := f.acked }
        else if c.op.isColl then t.failColl (t.collGroup c) c.recordOff 0
        else t.endCmd x.1 x.2.1 (BitVec.ofNat 64 ((putDesc c.desc).remote + if c.op = .fget then c.prog else c.acked)))
      { s with strays := s.strays.filter fun x => !x.cmd.txns.any fun t => t.1 / 4096 == k }
    ∧ ∀ pid e, s.route pid e = some k → ∃ n, (k, n) ∈ e.ports ∧ (s.slice k).fwPid = pid ∧ s.portCarries k = true
      ∧ ∀ j m, (j, m) ∈ e.ports → (s.slice j).fwPid = pid → s.portCarries j = true → (s.portLink k).cost + n ≤ (s.portLink j).cost + m)
  ∧ (∀ (l : Link) (keys : LinkKeys), let t := l.trained 8 keys
    t.up = true ∧ t.lanes = 8 ∧ t.txSlot = false ∧ t.txInv = 0 ∧ t.seq = 0 ∧ t.expect = 0 ∧ t.retry = [] ∧ t.cost = 1 ∧ t.window = sendWindow 8
      ∧ (l.mode = 0 → t.tx0.key = keys.tx0.1 ∧ t.tx1.key = keys.tx1.1 ∧ t.rx0.key = keys.rx0.1 ∧ t.rx1.key = keys.rx1.1))
  ∧ (∀ (s : State) (k : Nat) (frame : List Byte), (s.portLink k).mode = 1 → (s.portLink k).up = true → frame.length ≤ 9216 →
    exec (.ethernetFrameReceive k frame) s = .next (s.modLink k fun l => { l with frames := l.frames ++ [frame] }))

/-- R443, R446, R447, R450, R454, R488: the receipt of a flit on a link that runs. One that fails its checks makes a NAK due and later ones discarded, after eight in a row the link goes down; one that is discarded changes nothing, a repeated one among them (log 34); an accepted IDLE or MARKER takes its SEQ, INV and acknowledgement, by which flits leave the retry buffer and after a NAK the rest are due again, a MARKER retiring the other slot;
an accepted DATA, OPEN, CUT or ABORT flit acts besides, or is recorded where its context is being moved; an invalid TYPE is never accepted. -/
def Obligations.FlitReceipts : Prop :=
  ∀ (s : State) (k : Nat) (f : Flit), (s.portLink k).runs = true → f.payload.length = 224 →
    let l := s.portLink k
    let t := s.modLink k fun _ => l.take f
    let p := l.decrypt f
    let receive : Instr := if f.ftype = 0 then .flitIdleReceive k f else if f.ftype = 1 then .flitDataReceive k f else if f.ftype = 2 then .flitOpenReceive k f
      else if f.ftype = 3 then .flitMarkerReceive k f else if f.ftype = 4 then .flitCutReceive k f else if f.ftype = 5 then .flitAbortReceive k f else .flitInvalidTypeReceive k f
    (l.discarding = true → f.seq ≠ l.expect → l.fate f = .discarded)
    ∧ ((l.discarding = false ∨ f.seq = l.expect) →
      ((6 ≤ f.ftype.toNat ∨ 14 < f.len.toNat ∨ l.authentic f = false ∨ l.invRises f = false) → l.fate f = .failed)
      ∧ (f.ftype.toNat < 6 → f.len.toNat ≤ 14 → l.authentic f = true → l.invRises f = true →
        l.fate f = if f.seq = l.expect then .accepted else if (l.expect - f.seq).toNat < 2 ^ 15 then .discarded else .failed))
    ∧ (l.fate f = .failed →
      (l.fails + 1 < 8 → exec receive s = .next (s.modLink k fun _ => { l with nakDue := true, discarding := true, fails := l.fails + 1 }))
      ∧ (8 ≤ l.fails + 1 → exec receive s = .next ((s.modLink k fun _ => { l with nakDue := true, discarding := true, fails := 0, up := false }).linkEvent k 1)))
    ∧ (l.fate f = .discarded → exec receive s = .next s)
    ∧ (l.fate f = .accepted →
      f.ftype.toNat < 6 ∧ f.seq = l.expect ∧ l.authentic f = true ∧ l.invRises f = true ∧ (l.take f).expect = l.expect + 1
      ∧ (l.take f).fails = 0 ∧ (l.take f).discarding = false ∧ ((l.take f).rxKey f.slot).lastInv = some f.inv ∧ (f.ftype = 3 → (l.take f).rxKey (!f.slot) = {})
      ∧ (∃ gone, l.retry = gone ++ (l.take f).retry ∧ (∀ q ∈ gone, 2 ^ 15 ≤ (q.seq - f.ackSeq).toNat) ∧ ∀ q, (l.take f).retry.head? = some q → (q.seq - f.ackSeq).toNat < 2 ^ 15)
      ∧ (f.nak = true → (l.take f).resend = (l.take f).retry.length)
      ∧ ((f.ftype = 0 ∨ f.ftype = 3) → exec receive s = .next t)
      ∧ (f.ftype = 4 → ∀ u, t.cutFlit k p = some u → exec receive s = .next u)
      ∧ (f.ftype = 1 ∨ f.ftype = 2 ∨ f.ftype = 5 →
        (p.dest ≠ s.node → exec receive s = .next t)
        ∧ (p.dest = s.node →
          ((∀ x, t.flitContext k p = some x → t.cut x = false) → ∀ u, t.performFlit k p = some u → exec receive s = .next u)
          ∧ (∀ x, t.flitContext k p = some x → t.cut x = true → (t.portLink k).closed x = false → t.cutRoom x = true →
            exec receive s = .next (t.modLink k fun l => { l with cut := (l.cut.filter fun c => c.1 != x) ++ [(x, l.closed x, l.recorded x ++ [p])] })))))

/-! ### The host side, partitions and trust -/

/-- R4, R335, R336, R418, R430, R436-R442, R462, R486, R487: window registers, partitions and accesses from outside. PWAYS takes the smaller of its low four bits and 8, a lower count only once the released ways are sealed; a reserved or read-only register ignores a write;
FQ_CONS raises the fault source where records remain; a MOVE that is refused changes nothing but the owner's mailbox, one that passes its checks begins to vacate its slice, and with the slice vacated it goes through its other steps;
a source has the target, identity and enable bit that the OS sets for it, and one that is enabled delivers what was pending once; an access of a host core or PCIe function is answered by nothing from a slice that has halted, is refused with a record where the interface or a firewall does not let it through, and else reads or writes the global memory, vault or window that it names.
The two-step MOVE (log 30), and that every line leaves the protected ways when the count falls (log 49), are the model's choices. -/
def Obligations.HostEvents : Prop :=
  (∀ (s : State) (k : Nat) (v : DWord), k < 16 →
    exec (.pwaysWrite k v) s = .next (s.modSlice k fun x =>
      if min (v.toNat % 16) 8 < x.pways then { x with pwTarget := min (v.toNat % 16) 8, pwBusy := true }
      else { x with pwTarget := min (v.toNat % 16) 8, pways := min (v.toNat % 16) 8, pwBusy := false }))
  ∧ (∀ (s : State) (k : Nat), (s.slice k).pwBusy = true →
    exec (.pwaysChangeComplete k) s = .next ((s.modPartition (s.slice k).fwPid fun p => { p with
      gm := p.gm.settleSectors fun j => (tget p.gm.sealed j).isSome }).modSlice k fun x => { x with pways := x.pwTarget, pwBusy := false, plines := [] }))
  ∧ (∀ (s : State) (k off : Nat) (v : DWord), k < 16 →
    (off ∈ [0x210, 0x308, 0x400, 0x500, 0x508, 0x610, 0x718, 0x010, 0x1C8, 0x630, 0xFFF8] → exec (.registerWrite k off v) s = .next s)
    ∧ exec (.registerWrite k 0x1C0 v) s = .next (s.modSlice k fun x => { x with balance := v.toNat % 16 })
    ∧ exec (.registerWrite k 0x200 v) s = .next (s.modSlice k fun x => { x with fqBase := v })
    ∧ (let t := s.modSlice k fun x => { x with fqCons := v.truncate 32 }
      exec (.registerWrite k 0x218 v) s = .next (if (t.slice k).fqProd = v.truncate 32 then t else t.raiseSource (s.slice k).fwPid k 0))
    ∧ exec (.registerWrite k 0x620 v) s = .next (s.modPartition (s.slice k).fwPid fun p => { p with vqLost := p.vqLost &&& (0xFFFFFFFF ^^^ v.toNat % 2 ^ 32) })
    ∧ exec (.registerWrite k 0x628 v) s = .next (s.modSlice k fun x => { x with cecnt := x.cecnt &&& (0xFFFFFFFF ^^^ v.toNat % 2 ^ 32) })
    ∧ (∀ n, n < 24 → exec (.registerWrite k (0x100 + 8 * n) v) s = .next (s.modSlice k fun x => { x with quantum := x.quantum.set n (max (v.toNat % 2 ^ 32) 0x10000) }))
    ∧ (∀ c, c < 32 → exec (.registerWrite k (0x8008 + 0x400 * c) v) s = .next (s.modCore (32 * k + c) fun x => { x with shandler := v &&& 0x00FFFFFFFFFFFFFF#64 })))
  ∧ (∀ (s : State) (cmd : BitVec 128), s.ownerTakes 0x01 cmd = true → let c := resizeCmd cmd
    (∀ r, s.harbour.moving ≠ some cmd → s.resizeRefusal c = some r → exec (.resizeMove cmd) s = .next (s.ownerDone r.1 r.2))
    ∧ (s.harbour.moving ≠ some cmd → s.resizeRefusal c = none →
      exec (.resizeMove cmd) s = .next (({ s with harbour := { s.harbour with moving := some cmd } } : State).unassign c.slice))
    ∧ (s.harbour.moving = some cmd → s.sliceOccupied c.slice = false → s.nmcOn c = false →
      let t := ((((s.migrate c).destroyVault c.slice).reprogram c).moveSources c).rehome c
      exec (.resizeMove cmd) s = .next (((({ t with harbour := { t.harbour with moving := none } } : State).changed c.src).changed c.dst).ownerDone 0 0)))
  ∧ (∀ (s : State) (pid : Nat) (st : SourceSetting) (x : IntSource), sourceSlice st.src ∈ s.slicesOf pid → tget (s.slice (sourceSlice st.src)).sources st.src = some x → st.target / 8 ∈ s.slicesOf pid →
    let now := st.enable && x.pending
    let t := s.modSlice (sourceSlice st.src) fun y => { y with sources := tput y.sources st.src ({ pending := x.pending && !now, enabled := st.enable, target := st.target, identity := st.identity } : IntSource) }
    exec (.interruptSourceEnable pid st) s = .next (if now = false then t else t.modSlice (st.target / 8) fun y => { y with
      imsic := tput y.imsic (st.target % 8) (ninsert ((tget y.imsic (st.target % 8)).getD []) st.identity) }))
  ∧ (∀ (s : State) (q : HostReq) (ep : Bool),
    let answer (t : State) (bs : Option (List Byte)) (bad : Bool) : State := { t with hostAnswer := bs, hostEp := bad }
    let n := (q.data.map List.length).getD q.len
    let pcie := agentIsPcie q.agent
    let out := s.hostAccess q ep
    exec (.hostMemoryAccess q) s = .next (s.hostAccess q false)
    ∧ (pcie = true → q.data.isSome = true → exec (.pcieInboundWrite q ep) s = .next out)
    ∧ ((pcie = true ∨ ∀ p, tget s.partitions q.pid = some p → p.booting = false) →
      (s.hartStands q = true → out = answer s none false)
      ∧ (s.hartStands q = false → ownerTarget q = false → (∃ p, tget s.partitions q.pid = some p ∧ p.lets q = false) →
        out = answer (s.firewallRecord q.srcSlice (s.accessSlice q) q.pid (BitVec.ofNat 64 (targetAddr q.target)) (accessSpace q.target)) none false)
      ∧ (s.hartStands q = false → (∀ p, tget s.partitions q.pid = some p → p.lets q = true) →
        (∀ a, q.target = .global a →
          (∀ k, s.globalRefused q.srcSlice q.pid a n = some k → out = answer (s.firewallRecord q.srcSlice k q.pid (BitVec.ofNat 64 a) .global) none false)
          ∧ (s.globalRefused q.srcSlice q.pid a n = none → (∀ g ∈ homeGranules a n, s.sliceRuns (s.homeSlice q.pid g) = true) → ∀ p, tget s.partitions q.pid = some p →
            (p.sg < a + n → out = answer s none false)
            ∧ (a + n ≤ p.sg →
              (∀ bs, q.data = some bs → out = answer (s.outsideWrite q.pid a bs ep) (some []) false)
              ∧ (q.data = none → let r := s.outsideSectors q.pid pcie (sectorsOf a n)
                out = answer r.2 ((tget r.2.partitions q.pid).map fun p : Partition => p.gm.outside pcie a n) r.1))))
        ∧ (∀ core off, q.target = .vault core off → let pa := core * 2 ^ 23 + off
          (s.firewallOk q.srcSlice (core / 32) q.pid = false → out = answer (s.firewallRecord q.srcSlice (core / 32) q.pid (BitVec.ofNat 64 pa) .vault) none false)
          ∧ (s.firewallOk q.srcSlice (core / 32) q.pid = true → off + n ≤ 2 ^ 23 → core < 512 → s.sliceRuns (core / 32) = true →
            (s.vaultWindowed q.pid pa n = true →
              out = answer (s.refusalRecord q.srcSlice (core / 32) q.pid (BitVec.ofNat 64 pa) .vault) (some (if q.data.isSome then [] else List.replicate n 0)) false)
            ∧ (s.vaultWindowed q.pid pa n = false →
              (∀ bs, q.data = some bs → out = answer { s with vault := s.vault.inbound pcie pa bs ep } (some []) false)
              ∧ (q.data = none → let t := s.detect core q.pid 0 (.vault pa) n
                let r := if pcie then t.vaultChecks q core pa n else (false, t)
                out = answer r.2 (some (r.2.vault.bytes pa n)) (r.2.vault.poisoned pa n || r.1)))))
        ∧ (∀ slice off, q.target = .window slice off → s.firewallOk q.srcSlice slice q.pid = true → off + n ≤ 65536 → slice < 16 → s.sliceRuns slice = true →
          (∀ bs, q.data = some bs → out = answer (s.windowBytes slice off bs) (some []) false)
          ∧ (q.data = none → out = answer s (some (s.windowRange slice off n)) false)))))

/-- R411-R413, R445, R473-R482: boot, keys, ports, firmware, sessions, measurements, the interface and the debug function, as the Harbourmaster performs them: a boot that fails a step stops with that step in the mailbox; a command executes once the boot has completed, where it is the oldest rung in its mailbox and its bytes are those at its address; a code not valid in its mailbox ends with 4; an image is staged only if its signature verifies, else LAST is 5;
a session and the unlock on it end together; TDISP moves only as its state allows; an integrity failure leaves ERROR. -/
def Obligations.TrustEvents : Prop :=
  (∀ (s : State) (t : BootTrial), (∃ u, exec (.coldReset t) s = .next u ∧ u.blocks = [] ∧ u.crews = [] ∧ u.launches = [] ∧ u.queues = [] ∧ u.contexts = [] ∧ u.saved = []
      ∧ u.harbour.handles = [] ∧ u.harbour.sessions = [] ∧ u.harbour.unlocks = [] ∧ u.vault = {}
      ∧ (let f := t.staged.getD s.harbour.flash
        let step := bootFailStep f s.harbour.fuse t
        u.harbour.flash = f ∧ u.harbour.fuse = (if flashAccepted f s.harbour.fuse then f.version else s.harbour.fuse) ∧ (flashAccepted f s.harbour.fuse = false → step = 1)
          ∧ (step ≠ 0 → u.partitions = [] ∧ u.slices = [] ∧ u.harbour.mailbox.bootStep = step ∧ u.harbour.booted = false)
          ∧ (step = 0 → u.harbour.booted = true ∧ u.harbour.mailbox.bootStep = 0 ∧ u.harbour.firmware = f.image))))
  ∧ (∀ (s : State) (code pid : Nat) (cmd : BitVec 128),
    (s.ownerTakes code cmd = true ↔ s.harbour.booted = true ∧ s.ownerRung code = true
      ∧ (BitVec.ofNat 128 (natOfBytes (readBytes s.harbour.ownerMem s.harbour.mailbox.command 16)) = cmd ∨ s.harbour.moving = some cmd ∨ ∃ ks, s.harbour.emptying = some (cmd, ks)))
    ∧ (s.mailTakes pid code = true ↔ s.harbour.booted = true ∧ s.mailRung pid code = true ∧ ∀ ks, s.harbour.emptying = some (0, ks) → s.ownerRung 0x06 = false)
    ∧ (∀ p, tget s.partitions pid = some p → (∀ off n v, s.mailField pid off n v = true ↔ leAt (s.readGlobal pid p.mailbox.command 16) off n = v)
      ∧ (s.mailTakes pid 0x11 = true → s.inGlobal pid p.mailbox.command 16 = false → ∀ h, exec (.release pid h) s = .next (s.mailDone pid 4))))
  ∧ (∀ (s : State) (pid code : Nat), code < 256 →
    ((mailboxCodes true).contains code = false → s.harbour.booted = true → s.ownerRung code = true → exec (.mailboxInvalidCode true pid code) s = .next (s.modOwner fun m => m.finish 4))
    ∧ ((mailboxCodes false).contains code = false → s.mailRung pid code = true → exec (.mailboxInvalidCode false pid code) s = .next (s.mailDone pid 4)))
  ∧ (∀ (s : State) (pid session : Nat) (addr : DWord) (wrapped : WrappedKey) (p : Partition), tget s.partitions pid = some p → s.mailTakes pid 0x10 = true →
    s.inGlobal pid p.mailbox.command 16 = true → s.mailField pid 0 8 addr.toNat = true → s.mailField pid 8 4 session = true →
    let v := s.detectGlobal pid addr.toNat 256
    let b := v.readGlobal pid addr.toNat 256
    let living := v.harbour.sessions.find? fun x => x.id == session && x.pid == pid && x.role == .tenantSession && x.tenant == wrapped.tenant && wrapped.session == session
    ((living = none ∨ v.keySlot = none) → exec (.bind pid addr session wrapped) s = .next (v.mailDone pid 5))
    ∧ (∀ x slot, living = some x → v.keySlot = some slot →
      ((addr.toNat % 64 ≠ 0 ∨ v.inGlobal pid addr.toNat 256 = false ∨ v.bindBad pid b = true) → exec (.bind pid addr session wrapped) s = .next (v.mailDone pid 4))
      ∧ (addr.toNat % 64 = 0 → v.inGlobal pid addr.toNat 256 = true → v.bindBad pid b = false →
        let k : KeyHandle := {
          gen := ((tget v.harbour.handles slot).map fun h : KeyHandle => h.gen).getD 0, live := true, ctx := leAt b 0 4, pid := pid, scrubV := leAt b 4 1 % 2 == 1
          key := wrapped.key, tenant := x.tenant, gwin := bindWindows b 8 8, vwin := bindWindows b 136 4 }
        exec (.bind pid addr session wrapped) s = .next ((({ v with harbour := { v.harbour with handles := tput v.harbour.handles slot k } } : State).writeGlobal pid
          (p.mailbox.command + 12) (bytesOfNat 4 (handleWord slot k).toNat)).mailDone pid 0 (handleWord slot k).toNat))))
  ∧ (∀ (s : State) (pid : Nat) (h : Word) (p : Partition), tget s.partitions pid = some p → s.mailTakes pid 0x11 = true →
    s.inGlobal pid p.mailbox.command 16 = true → s.mailField pid 0 4 h.toNat = true →
    (((s.handle? h).filter fun k => k.pid == pid) = none → exec (.release pid h) s = .next (s.mailDone pid 4))
    ∧ (∀ k, s.handle? h = some k → k.pid = pid → exec (.release pid h) s = .next ((({ s with harbour := { s.harbour with
        handles := tput s.harbour.handles (h.toNat % 4096) { k with releaseWanted := true } } } : State).releaseDue h).mailDone pid 0)))
  ∧ (∀ (s : State) (pid slice mode : Nat) (p : Partition), tget s.partitions pid = some p → s.mailTakes pid 0x12 = true →
    s.inGlobal pid p.mailbox.command 16 = true → s.mailField pid 0 1 slice = true → s.mailField pid 1 1 mode = true →
    ((p.booting = false ∨ slice ∉ s.slicesOf pid ∨ 2 ≤ mode) → exec (.portmode pid slice mode) s = .next (s.mailDone pid 4))
    ∧ (p.booting = true → slice ∈ s.slicesOf pid → mode < 2 →
      exec (.portmode pid slice mode) s = .next (((s.modLink slice fun _ => { mode := mode }).remeasure pid).mailDone pid 0)))
  ∧ (∀ (s : State) (image : List Byte), s.harbour.booted = true → s.ownerRung 0x05 = true → readBytes s.harbour.ownerMem (s.ownerCmd.toNat % 2 ^ 64) (s.ownerCmd.toNat / 2 ^ 64) = image →
    let done (t : State) (n : Nat) : State := t.modOwner fun m => m.finish n
    (Config.prafelSigned image = false → exec (.fwstage image) s = .next (done s 5))
    ∧ (Config.prafelSigned image = true → exec (.fwstage image) s = .next (done { s with harbour := { s.harbour with staged := some image } } 0)))
  ∧ (∀ s : State, s.harbour.booted = true → s.ownerRung 0x06 = true → (s.harbour.staged = none → exec .fwactivate s = .next (s.modOwner fun m => m.finish 4))
    ∧ (∀ image, s.harbour.staged = some image →
      ((∃ b ∈ s.blocks, b.2.resident = true) → s.harbour.emptying = none →
        exec .fwactivate s = .next { s with harbour := { s.harbour with emptying := some (0, List.range 16) } })
      ∧ ((∀ b ∈ s.blocks, b.2.resident = false) → ∃ t, exec .fwactivate s = .next t
        ∧ t.harbour.firmware = image ∧ t.harbour.meas3 = image ∧ t.harbour.staged = none ∧ t.harbour.sessions = [] ∧ t.harbour.unlocks = [] ∧ t.harbour.emptying = none
        ∧ ∀ x ∈ t.partitions, x.2.needSession = true ∧ x.2.tdisp = .configUnlocked ∧ x.2.ide = none)))
  ∧ (∀ (s : State) (session pid tenant : Nat) (role : SpdmRole), (∀ x ∈ s.harbour.sessions, x.id ≠ session) → (tget s.partitions pid).isSome = true →
    exec (.spdmSessionEstablish session pid tenant role) s = .next ((({ s with harbour := { s.harbour with
      sessions := s.harbour.sessions ++ [({ id := session, pid := pid, tenant := tenant, role := role } : Session)] } } : State).modPartition pid fun p =>
        if p.attached = true ∧ role ≠ .tenantSession then { p with ide := some (session, Config.ideKey session) } else p).sessionAgain pid))
  ∧ (∀ (s : State) (session : Nat) (x : Session), s.harbour.sessions.find? (fun x => x.id == session) = some x → ∃ t, exec (.spdmSessionEnd session) s = .next t
    ∧ t.harbour.sessions = s.harbour.sessions.filter (fun y => y.id != session) ∧ t.harbour.unlocks = s.harbour.unlocks.filter fun u => u.2 != session)
  ∧ (∀ (s : State) (port session : Nat), (s.harbour.sessions.find? fun x => x.id == session && x.role == .tenantSession) = none →
    exec (.debugUnlock port session) s = .next s)
  ∧ (∀ (s : State) (port session : Nat) (x : Session), (s.harbour.sessions.find? fun x => x.id == session && x.role == .tenantSession) = some x →
    exec (.debugUnlock port session) s = .next (({ s with harbour := { s.harbour with
      unlocks := (s.harbour.unlocks.filter fun u => u.1 != port) ++ [(port, session)] } } : State) |> fun t => (t.partitions.map fun p : Nat × Partition => p.1).foldl State.remeasure t))
  ∧ (∀ (s : State) (pid : Nat) (p : Partition), tget s.partitions pid = some p → p.attached = true →
    exec (.ideIntegrityFailure pid) s = .next (s.modPartition pid fun p => { p with tdisp := .error })
    ∧ ∀ r, exec (.tdispRequest pid r) s = .next ((s.modPartition pid fun x => { x with tdisp :=
        if r = .stop then .configUnlocked else if r = .lock ∧ p.tdisp = .configUnlocked then .configLocked else if r = .start ∧ p.tdisp = .configLocked then .run else p.tdisp }).sessionAgain pid))
  ∧ (∀ (s : State) (port fn pid : Nat) (nonce : DWord), ∃ blocks, blocks.length = 7 ∧ blocks.getLast? = some (bytesOfNat 8 nonce.toNat)
    ∧ exec (.measurementRequest port fn pid nonce) s = .next { s with measAnswer := blocks ++ [Config.deviceSign blocks] })
  ∧ (∀ (s : State) (port bid : Nat) (b : Block) (c : Crew) (g : Group), tget s.blocks bid = some b → b.brk = true → s.debugSees port b = true →
    ((s.crewsOf bid).find? fun c => c.servesBrk && c.storeQ.isEmpty && !c.frozen) = some c →
    (c.groups.find? fun g => c.inHandler g) = some g →
    exec (.debugBlockResume port bid) s = .next (s.returnFrom c.id g.id .skip))

/-- R444, R458, R460, R461, R469-R472, R479, R483-R485: power states, gating, trips, failed bridges, patrol, bank tests and the log. A power state wakes what it names; a gate of what still has host cores running answers HARTS; what has blocks there is emptied first; a slice that trips halts with its host cores and loses the contexts with crews on it;
a patrolled sector is corrected or reported; a bank test is refused, passes, or retires the bank, and each that is not refused is logged; the log is copied oldest first to the owner's buffer. -/
def Obligations.PowerAndMemoryEvents : Prop :=
  (∀ (s : State) (cmd : BitVec 128), s.ownerTakes 0x04 cmd = true → s.powerTarget (bitsAt cmd.toNat 0 8) = none →
    (bitsAt cmd.toNat 8 8 ≠ 3 → exec (.powerPstate cmd) s = .next (s.ownerDone 4 0)) ∧ (bitsAt cmd.toNat 8 8 = 3 → exec (.powerGate cmd) s = .next (s.ownerDone 4 0)))
  ∧ (∀ (s : State) (n detail : Nat), let v : Nat := n % 256 + detail * 2 ^ 32
    s.ownerDone n detail = { s with harbour := { s.harbour with
      mailbox := { s.harbour.mailbox with queue := s.harbour.mailbox.queue.drop 1, last := n % 256, result := BitVec.ofNat 64 v }
      ownerMem := writeBytes s.harbour.ownerMem (s.harbour.mailbox.command + 8) (bytesOfNat 8 v) } })
  ∧ (∀ (s : State) (cmd : BitVec 128) (pid : Option Nat) (ks : List Nat), s.ownerTakes 0x04 cmd = true → s.powerTarget (bitsAt cmd.toNat 0 8) = some (pid, ks) →
    let power (t : State) (p : Nat) : State := (t.modPartition p fun x => { x with powerFlag := if (t.slicesOf p).any fun k => (t.slice k).pstate == 3 then 2 else 0 }).remeasure p
    (bitsAt cmd.toNat 8 8 ≠ 3 → (3 ≤ bitsAt cmd.toNat 8 8 ∨ bitsAt cmd.toNat 16 48 ≠ 0) → exec (.powerPstate cmd) s = .next (s.ownerDone 4 0))
    ∧ (bitsAt cmd.toNat 8 8 < 3 → bitsAt cmd.toNat 16 48 = 0 →
      let t := ks.foldl (fun (t : State) k => t.modSlice k fun x => { x with pstate := bitsAt cmd.toNat 8 8, tripped := false }) s
      exec (.powerPstate cmd) s = .next ((((ks.map fun k => (t.slice k).fwPid).eraseDups).foldl power t).ownerDone 0 0))
    ∧ (bitsAt cmd.toNat 8 8 = 3 → (bitsAt cmd.toNat 16 48 ≠ 0 ∨ (pid = none ∧ ∃ k ∈ ks, (s.slice k).fwPid ≠ 0)) → exec (.powerGate cmd) s = .next (s.ownerDone 4 0))
    ∧ (bitsAt cmd.toNat 8 8 = 3 → bitsAt cmd.toNat 16 48 = 0 → (pid = none → ∀ k ∈ ks, (s.slice k).fwPid = 0) →
      ((∃ k ∈ ks, (s.slice k).harts ≠ []) → exec (.powerGate cmd) s = .next (s.ownerDone 3 0))
      ∧ ((∀ k ∈ ks, (s.slice k).harts = []) → (∃ k ∈ ks, s.sliceOccupied k = true) → s.harbour.emptying = none →
        exec (.powerGate cmd) s = .next { s with harbour := { s.harbour with emptying := some (cmd, ks) } })
      ∧ ((∀ k ∈ ks, (s.slice k).harts = [] ∧ s.sliceOccupied k = false) →
        let t := ks.foldl (fun (t : State) k => t.modSlice k fun x => { x with pstate := 3 }) { s with harbour := { s.harbour with emptying := none } }
        exec (.powerGate cmd) s = .next ((match pid with
          | none => t
          | some p => power t p).ownerDone 0 0))))
  ∧ (∀ (s : State) (k : Nat) (why : TripKind), k < 16 → (s.slice k).tripped = false →
    let pid := (s.slice k).fwPid
    let t := (s.modSlice k fun x => { x with tripped := true, harts := [] }).modPartition pid Partition.ideError
    let t := t.report (if pid = 0 then [] else [pid]) { type := 0x0A, slice := k, info := BitVec.ofNat 64 (tripCode why) }
    exec (.sliceTrip k why) s = .next ((t.contextsOn k).foldl (fun (t : State) c => t.loseContext c none) t))
  ∧ (∀ (s : State) (ks : List Nat), ks ≠ [] → ks.Nodup → (∀ k ∈ ks, k < 16 ∧ (s.slice k).tripped = false) →
    exec (.dieBridgeFailure ks) s = .next (ks.foldl (fun (t : State) k => t.trip k .dieBridge) s))
  ∧ (∀ (s : State) (pid k : Nat) (p : Partition), tget s.partitions pid = some p → 256 * k < p.sg →
    (p.gm.errCode k ≠ 0 → exec (.patrolRead pid k) s = .next s)
    ∧ (p.gm.errCode k = 0 → p.gm.uncorr.contains k = false → exec (.patrolRead pid k) s = .next (s.correctSector pid k))
    ∧ (p.gm.errCode k = 0 → p.gm.uncorr.contains k = true → exec (.patrolRead pid k) s = .next ((s.modPartition pid fun p => { p with gm := p.gm.detect k }).report [pid]
      { type := 1, aval := true, slice := s.homeSlice pid (256 * k), addr := BitVec.ofNat 64 (256 * k) } .global)))
  ∧ (∀ (s : State) (cmd : BitVec 128) (row : Option Nat), s.ownerTakes 0x02 cmd = true → let v := cmd.toNat
    let slice := bitsAt v 0 8
    let bad : Prop := 16 ≤ slice ∨ 64 ≤ bitsAt v 8 8 ∨ 64 ≤ bitsAt v 16 8 ∨ 3 ≤ bitsAt v 24 8 ∨ bitsAt v 32 32 ≠ 0
    let logged (n : Nat) : State := s.logRecord {
      type := 0x0F, aval := true, slice := slice, addr := BitVec.ofNat 64 (bankBase slice (bitsAt v 8 8) (bitsAt v 16 8)), info := BitVec.ofNat 64 n, pid := (s.slice slice).fwPid }
    (bad → exec (.hbmtest cmd row) s = .next (s.ownerDone 2 0))
    ∧ (¬bad → (s.slice slice).parking = true → exec (.hbmtest cmd row) s = .next ((logged 3).ownerDone 3 0))
    ∧ (¬bad → (s.slice slice).parking = false →
      (row = none → exec (.hbmtest cmd row) s = .next ((logged 0).ownerDone 0 0))
      ∧ (∀ r, row = some r →
        let u := (logged 1).modSlice slice fun x => { x with parking := true, retiredBanks := x.retiredBanks ++ [(bitsAt v 8 8, bitsAt v 16 8)] }
        exec (.hbmtest cmd row) s = .next ((u.virtualRecord (u.slice slice).fwPid { type := 0x0F, slice := slice, info := 1 }).ownerDone 1 r))))
  ∧ (∀ (s : State) (buf : DWord) (n : Nat), s.ownerTakes 0x03 (BitVec.ofNat 128 (buf.toNat + n * 2 ^ 64)) = true →
    exec (.logread buf n) s = .next (({ s with harbour := { s.harbour with
      ownerMem := writeBytes s.harbour.ownerMem buf.toNat ((s.harbour.log.take n).flatMap ErrRec.bytes) } } : State).modOwner fun m => m.finish 0))


/-! ### Encoding -/

/-- R34, R35, R37: decoding and encoding agree. The word of an instruction decodes to it, with every field at every value; and a word that decodes is the word of what it decodes to, so that no two instructions share a word. -/
def Obligations.DecodeEncodeRoundTrip : Prop :=
  (∀ (i : Instr) (w : Word), encode i = some w → decode w = .ok i) ∧ (∀ (i : Instr) (w : Word), decode w = .ok i → encode i = some w)

/-- Words that the spec writes out decode to the instructions that it gives for them: R116, R118, R122, R124, R126, R129, R130, R132, R137 and the examples of the instruction files. -/
def Obligations.DecodeSampleWords : Prop :=
  ([0x9C022922, 0x0E210FFF, 0x1CA00A20, 0x0445FFFF, 0x002A0000, 0x0C308800, 0x1056789A, 0x12512345].map (fun n => decodeTableWord 32 n)
    = [Instr.fmul 1 0x00 0x11 0x12 1, .saddi 0 2 2 0xFFF, .fadd 0 0x14 0x00 0x14 1, .brc 0 1 2 0x1FFFF, .trl 0 0x14 0 0, .sadd 0 3 1 2, .sli 0 5 0x6789A, .slih 0 5 0x12345].map some)
  ∧ ([0x0A02E000, 0x0A000001, 0x00488000, 0x004A8000, 0x0061FF80, 0x00800000, 0x00A00000, 0x00C80000, 0x00000000].map (fun n => decodeTableWord 32 n)
    = [Instr.jmpi 0 0x17, .ret 0, .grd 0 2 0 2, .grd 0 2 1 2, .waitc 0 0 15 63 0, .yield 0, .exit 0, .freeze 0 1, .nop 0].map some)
  ∧ ([0x189A2900, 0x1AB2C3FC, 0x5E9A9FC0, 0x1EA01928, 0x20022927, 0x24C32001, 0x28122902, 0x16C80004, 0x14222000, 0x14922202].map (fun n => decodeTableWord 32 n)
    = [Instr.vadd 0 0x13 0x11 0x12, .vaddi 0 0x16 0x16 0x3FC, .vli 0 0x13 5 0x1FC0, .ffma 0 0x14 0x00 0x32 0x14 0, .ffman 0 0x00 0x11 0x12 0x13 1, .frsq 0 0x18 0x19 0
      , .vcmp 0 2 0x11 0x12 0 2, .ptov 0 0x19, .vtos 0 4 0x11, .vretag 0 0x12 0x11 4].map some)
  ∧ ([0x32AAC250, 0x34AACA54, 0x36926B00, 0x38040000, 0x2E922980, 0x30004010, 0x30B22020, 0x30BA2058].map (fun n => decodeTableWord 32 n)
    = [Instr.ld 0 0x15 0x16 0 2 5 0 0, .st 0 0x15 0x16 1 2 5 1 0, .atom 0 0x12 0x13 1 3 0 0 0, .fence 0 1, .shfl 0 0x12 0x11 0x13 0 0, .voteBal 0 0 2 0
      , .redadd 0 0x16 0x11 0, .scanaddx 0 0x17 0x11 0].map some)

/-! ### The machine as a whole -/

/-- R8, R9, R11, R14, R21, R34: a step runs the decoded instruction. Where the focus group stands between the words of a chain group, else where the agenda, or with an empty agenda the focus group that goes on, names a stream, the step is the execution of what the group's word decodes to;
one that decodes to nothing is an illegal word; a packet that is not mapped whole is a fetch fault; at the end of a run the step is its end. The group's word is word k of the packet that it holds, or with none held the word at address 12p + 4k of a packet whose three words are mapped. Between the words of a chain group nothing else comes, and then first the chain groups that issue jointly with it (R164); an event that the agenda names takes place. -/
def Obligations.StepRunsDecodedWord : Prop :=
  (∀ (s t : State) (r : StreamRef) (cid gid : Nat) (c : Crew) (g : Group), t.focus = some r → t.carried r = some (cid, gid) → tget t.crews cid = some c → c.group? gid = some g →
    ((s = t ∧ s.focusMidChain = true) ∨ (s.focusMidChain = false ∧ s.jointNext = none ∧ ∃ rest, s.agenda = .issue r :: rest ∧ t = { s with agenda := rest, focus := some r })
      ∨ (s = t ∧ s.jointNext = none ∧ s.agenda = [] ∧ s.focusGoes = true)) →
    (g.atEnd = true → step s = exec .runEnd t)
    ∧ (g.atEnd = false → t.groupWord c g = none → step s = .fault .fetchUnmapped)
    ∧ (∀ w, g.atEnd = false → t.groupWord c g = some w →
      (∀ i, decode w = .ok i → step s = exec i t) ∧ (∀ e, decode w = .error e → step s = exec (.illegalOpcodeWord w) t)))
  ∧ (∀ (s : State) (c : Crew) (g : Group), g.word < 3 →
    (∀ ws, g.code = some (g.packet, ws) → s.groupWord c g = ws[g.word]?)
    ∧ ((∀ x, g.code = some x → x.1 ≠ g.packet) →
      (∀ b : Nat → Nat → Byte, (∀ k, k < 3 → s.readProgram c.launch (12 * g.packet.toNat + 4 * k) 4 = some [b k 0, b k 1, b k 2, b k 3]) →
        s.groupWord c g = some (b g.word 3 ++ b g.word 2 ++ b g.word 1 ++ b g.word 0))
      ∧ (∀ k, k < 3 → s.readProgram c.launch (12 * g.packet.toNat + 4 * k) 4 = none → s.groupWord c g = none)))
  ∧ (∀ (s : State) (i : Instr) (rest : List Agendum), s.focusMidChain = false → s.jointNext = none → s.agenda = .event i :: rest → isEvent i = true → step s = exec i { s with agenda := rest })
  ∧ (∀ (s : State) (r : StreamRef) (cid gid : Nat), s.focusMidChain = false → s.jointNext = some (r, cid, gid) → step s = stepJoint r cid gid s)

/-- R4, R42, R60, R72, R75, R207, R358, R409, R418, R429, R457: what reset leaves, and what the spec gives as values at creation: no crew, block, launch, queue, context or partition; every window register of a slice at its reset value; a new lane's v0-v31 and h registers 0 with tag RAW, p0 true and p1-p7 false, an empty result queue;
a new crew's s0-s31 0 with tag RAW and its control registers 0. -/
def Obligations.ResetValues : Prop :=
  (let s := State.reset; s.crews = [] ∧ s.blocks = [] ∧ s.launches = [] ∧ s.queues = [] ∧ s.contexts = [] ∧ s.partitions = [] ∧ s.saved = [] ∧ s.vault = {} ∧ s.harbour.handles = []
      ∧ s.harbour.sessions = [] ∧ s.harbour.booted = false)
  ∧ (let x : Slice := {}; x.fwPid = 0 ∧ x.fwTab = List.replicate 16 0 ∧ x.quantum = List.replicate 24 0x200000 ∧ x.balance = 4 ∧ x.fqBase = 0 ∧ x.fqLog2n = 0 ∧ x.fqProd = 0 ∧ x.fqCons = 0
      ∧ x.pways = 0 ∧ x.pwBusy = false ∧ x.cecnt = 0)
  ∧ (let l : Lane := {}; (∀ k, k < 32 → (l.v[k]?.map fun v => (v.bits, v.tag)) = some (0, Tag.raw)) ∧ (∀ k, k < 8 → (l.h[k]?.map fun v => (v.bits, v.tag)) = some (0, Tag.raw)) ∧ l.p = 1 ∧ l.q = [])
  ∧ (∀ (n : Nat) (start shandler : DWord), let r := freshRegs n start shandler none; r.lanes = List.replicate n {} ∧ (∀ k, k < 32 → (r.s[k]?.map fun v => (v.bits, v.tag)) = some (0, Tag.raw)) ∧ r.fpmode = 0 ∧ r.fpflags = 0 ∧ r.fptrap = 0 ∧ r.tile = 0
      ∧ r.cnt = {} ∧ r.cowcnt = 0 ∧ r.treg = {} ∧ r.restart = start ∧ r.shandler = shandler)

namespace Sys2Proof.Statements

/-- The invariant of the machine: every memory is in its canonical form, and the segment of every block, on a core or saved, ends at a 64-byte granule (R228). -/
def Inv (s : State) : Prop :=
  s.memWf = true ∧ (∀ p ∈ s.blocks, p.2.ts % 64 = 0) ∧ (∀ u ∈ s.saved, ∀ b ∈ u.blocks, b.ts % 64 = 0)

end Sys2Proof.Statements

/-- Every step keeps the invariant of the machine: the canonical form of all its memories, and segments that end at a 64-byte granule. -/
def Obligations.StepKeepsInvariant : Prop :=
  ∀ s t : State, Inv s → step s = .next t → Inv t

/-- The machine after reset has the invariant of StepKeepsInvariant, and so has one in which an instruction word has been placed. -/
def Obligations.ResetHasInvariant : Prop :=
  Inv State.reset ∧ ∀ n w : Nat, Inv (State.reset.withFetchWord n w)

/-! ### Frames -/

/-- R14, R15, R42-R44, R114, R145: what scalar and vector words leave alone. A word of SALU or VINT on operands that it accepts changes nothing outside its crew but its core's clock: no byte of any scratchpad, vault or global memory, no other crew, core or special register; where its operands pop a queue, beyond what the pop does;
where it ends the chain group of a halted group, before a handler that then begins. In its crew a SALU word changes no scalar register but S[SD], a VINT word none at all, no predicate, in the active lanes no vector register but its destination, and in the other lanes nothing but the result queue of those of its group. -/
def Obligations.RegisterWordFrame : Prop :=
  (∀ r ∈ scalarRows, ∀ (s : State) (c : Ctx) (ch : BitVec 1) (d a b : BitVec 5), Ready s (r.word ch d a b) c → c.active ≠ [] →
    r.tagA (c.getS a).tag = true → r.tagB (c.getS a).tag (c.getS b).tag = true → (c.getS a).tag ≠ .poison → (c.getS b).tag ≠ .poison →
    ∃ t w, exec (r.word ch d a b) s = .next (if c.grp.halted = true ∧ c.chainNext = none then t.settleTraps c.blk.id else t)
      ∧ SameOutside c.cid c.crew.core s t ∧ tget t.crews c.cid = some w
      ∧ (∀ k : Fin 32, k.val ≠ d.toNat → w.regs.s[k] = c.crew.regs.s[k]) ∧ (∀ k : Fin 4, k.val + 28 ≠ d.toNat → w.regs.hs[k] = c.crew.regs.hs[k])
      ∧ w.regs.lanes = c.crew.regs.lanes ∧ w.regs.fpmode = c.crew.regs.fpmode ∧ w.regs.fpflags = c.crew.regs.fpflags ∧ w.regs.fptrap = c.crew.regs.fptrap
      ∧ w.regs.tile = c.crew.regs.tile ∧ w.regs.cnt = c.crew.regs.cnt ∧ w.regs.restart = c.crew.regs.restart ∧ w.regs.treg = c.crew.regs.treg ∧ w.regs.shandler = c.crew.regs.shandler)
  ∧ (∀ r ∈ vectorRows, ∀ (s : State) (c : Ctx) (ch : BitVec 1) (d a b : BitVec 6), Ready s (r.word ch d a b) c →
    ∀ o, c.go.vecOperands (s.atEffect (r.word ch d a b) c) (some d) [a, b] (sameTag Tag.anyInt) = .ok o →
    ∃ t w, exec (r.word ch d a b) s = .next (if c.grp.halted = true ∧ c.chainNext = none then t.settleTraps c.blk.id else t)
      ∧ SameOutside c.cid c.crew.core o.state t ∧ ((∀ x ∈ [a, b], ∀ k, Src.ofCode x ≠ .pop k) → SameOutside c.cid c.crew.core s t) ∧ tget t.crews c.cid = some w
      ∧ w.regs.s = c.crew.regs.s ∧ w.regs.hs = c.crew.regs.hs ∧ w.regs.fpmode = c.crew.regs.fpmode ∧ w.regs.fpflags = c.crew.regs.fpflags ∧ w.regs.fptrap = c.crew.regs.fptrap
      ∧ w.regs.tile = c.crew.regs.tile ∧ w.regs.cnt = c.crew.regs.cnt ∧ w.regs.restart = c.crew.regs.restart ∧ w.regs.treg = c.crew.regs.treg ∧ w.regs.shandler = c.crew.regs.shandler
      ∧ (∀ l, l ∉ c.active → ∃ q, w.regs.lane l = { c.crew.regs.lane l with q := q } ∧ (l ∉ c.crew.groupLanes c.grp → q = (c.crew.regs.lane l).q))
      ∧ (∀ l, (w.regs.lane l).p = (c.crew.regs.lane l).p)
      ∧ (∀ l (k : Fin 32), Dst.ofCode d ≠ .v k → (w.regs.lane l).v[k] = (c.crew.regs.lane l).v[k]) ∧ (∀ l (k : Fin 8), Dst.ofCode d ≠ .h k → (w.regs.lane l).h[k] = (c.crew.regs.lane l).h[k]))

/-- R230, R247, R317: what a store leaves alone. The oldest store of a crew, whose lanes all fall in scratchpad, changes in its block's scratchpad no byte outside the bytes that it stores, no other block, no vault and no global memory, where its memories have their canonical form (ResetHasInvariant, StepKeepsInvariant);
a vault store that arrives, which no earlier one to its bytes holds back, gives its bytes their values and changes no other vault byte and nothing else, or is refused by the firewall of its slice and changes no vault byte. -/
def Obligations.StoreFrame : Prop :=
  (∀ (s : State) (cid : Nat) (c : Crew) (e : StoreEnt) (lanes : List (Nat × Loc × List Byte)) (offs : List (Nat × List Byte)) (b : Block),
    tget s.crews cid = some c → c.storeQ.head? = some e → e.op = .st lanes → e.release = false →
    (∀ l ∈ c.loads, e.id ≤ l.id) → s.acquireDue c e.id = false → s.memWf = true →
    lanes.map (fun x => x.2) = offs.map (fun x => (Loc.spad x.1, x.2)) → offs ≠ [] → tget s.blocks c.block = some b → b.ts % 64 = 0 →
    ∃ t b', exec (.storePerform cid) s = .next t ∧ tget t.blocks c.block = some b' ∧ t.vault = s.vault ∧ t.partitions = s.partitions ∧ t.cores = s.cores
      ∧ (∀ k, k ≠ c.block → tget t.blocks k = tget s.blocks k) ∧ (∀ k, k ≠ cid → tget t.crews k = tget s.crews k)
      ∧ (∀ a, (∀ x ∈ offs, a < x.1 ∨ x.1 + x.2.length ≤ a) → t.spadBytes b' c.side a 1 = s.spadBytes b c.side a 1))
  ∧ (∀ (s : State) (core n : Nat) (v : VaultPend), (s.core core).vaultPend[n]? = some v →
    (∀ u ∈ (s.core core).vaultPend ++ (s.core (mateCore core)).vaultPend.filter (fun u => u.twin || v.twin), v.seq ≤ u.seq ∨ u.overlaps v = false) →
    ∃ t, exec (.vaultStoreHomeArrival core n) s = .next t ∧ t.blocks = s.blocks ∧ t.crews = s.crews
      ∧ let refused := s.vaultRefused core (s.slice (core / 32)).fwPid (.vault (16 * v.gran))
      (refused = true → t.vault = s.vault) ∧ (refused = false → t.partitions = s.partitions ∧ t.stageGroups = s.stageGroups
      ∧ (s.memWf = true → v.writes.Pairwise (fun x y => x.1 + x.2.length ≤ y.1 ∨ y.1 + y.2.length ≤ x.1) → ∀ w ∈ v.writes, t.vault.bytes w.1 w.2.length = w.2)
      ∧ (∀ a, (∀ w ∈ v.writes, a < w.1 ∨ w.1 + w.2.length ≤ a) → t.vault.bytes a 1 = s.vault.bytes a 1)))

/-! ### Statements made of several -/

/-- R53, R56, R145, R146, R148, R149, R152: the bitwise, shift, count and packing words of VINT, the immediate words VINTI and VLI, and VIMAD.
R53, R56, R145, R146: the bitwise VINT words in A's tag, the shifts by B[5:0] modulo the element width, the words on A alone, and the packing words VPACK, VUNPK and VBFE.
R148, R149, R152: the immediate words VINTI, VLI and the multiply-add VIMAD. -/
def Obligations.VectorBitAndImmediateResults : Prop :=
  ((∀ r ∈ bitRows, ∀ (s : State) (c : Ctx) (ch : BitVec 1) (d a b : BitVec 6),
    Pushes (r.1 ch d a b) s c d [a, b] (fun _ => none) fun vs =>
      let low (x : RegVal) : DWord := if x.tag.is32 then x.bits &&& 0xFFFFFFFF else x.bits
      { bits := if (opnd vs 0).tag.is32 then r.2 (low (opnd vs 0)) (low (opnd vs 1)) &&& 0xFFFFFFFF else r.2 (low (opnd vs 0)) (low (opnd vs 1))
        tag := (opnd vs 0).tag })
  ∧ (∀ r ∈ shiftRows, ∀ (s : State) (c : Ctx) (ch : BitVec 1) (d a b : BitVec 6),
    Pushes (r.1 ch d a b) s c d [a, b] (twoTags Tag.anyIntM Tag.isInt) fun vs =>
      elements (opnd vs 0).tag ((elemsOf (opnd vs 0).tag (opnd vs 0).bits).map fun x =>
        r.2 (opnd vs 0).tag x ((opnd vs 1).bits.toNat % 64 % (opnd vs 0).tag.elemBits)))
  ∧ (∀ r ∈ unaryRows, ∀ (s : State) (c : Ctx) (ch : BitVec 1) (d a b : BitVec 6),
    Pushes (r.1 ch d a b) s c d [a] (sameTag r.2.1) fun vs =>
      { (elements (opnd vs 0).tag ((elemsOf (opnd vs 0).tag (opnd vs 0).bits).map (r.2.2.2 (opnd vs 0).tag))) with tag := r.2.2.1 (opnd vs 0).tag })
  ∧ (∀ (s : State) (c : Ctx) (ch : BitVec 1) (d a b : BitVec 6),
    Pushes (.vpack ch d a b) s c d [a, b] (sameTag Tag.packable) fun vs =>
      { bits := (opnd vs 1).bits.extractLsb' 0 32 ++ (opnd vs 0).bits.extractLsb' 0 32
        tag := if (opnd vs 0).tag.is32 then .raw else (opnd vs 0).tag })
  ∧ (∀ (s : State) (c : Ctx) (ch : BitVec 1) (d a b : BitVec 6),
    Pushes (.vunpk ch d a b) s c d [a, b] (twoTags Tag.unpackable Tag.isInt) fun vs =>
      let x := opnd vs 0
      let half := if (opnd vs 1).bits.getLsbD 0 then x.bits.extractLsb' 32 32 else x.bits.extractLsb' 0 32
      { bits := (if x.tag == .tt8x8 then (0x77777777 : BitVec 32) else 0) ++ half, tag := x.tag })
  ∧ (∀ (s : State) (c : Ctx) (ch : BitVec 1) (d a b : BitVec 6),
    Pushes (.vbfe ch d a b) s c d [a, b] (twoTags Tag.isInt Tag.isInt) fun vs =>
      let t := (opnd vs 0).tag
      let pos := (opnd vs 1).bits.toNat % 64
      let k := min ((opnd vs 1).bits.toNat / 256 % 64) (t.elemBits - pos)
      let f := (opnd vs 0).low t.elemBits / 2 ^ pos % 2 ^ k
      elements t [if t.isSigned ∧ k ≠ 0 then signedOf k f else f]))
  ∧ ((∀ r ∈ vectorImmRows, ∀ (s : State) (c : Ctx) (ch : BitVec 1) (d a : BitVec 6) (i : BitVec 10),
    Pushes (r.1 ch d a i) s c d [a] (sameTag r.2.1) fun vs =>
      let t := (opnd vs 0).tag
      elements t ((elemsOf t (opnd vs 0).bits).map fun x => r.2.2 x (wrapTo t.elemBits i.toInt) i.toInt))
  ∧ (∀ r ∈ vectorShiftImmRows, ∀ (s : State) (c : Ctx) (ch : BitVec 1) (d a n : BitVec 6),
    Pushes (r.1 ch d a n) s c d [a] (sameTag Tag.anyIntM) fun vs =>
      elements (opnd vs 0).tag ((elemsOf (opnd vs 0).tag (opnd vs 0).bits).map fun x => r.2 (opnd vs 0).tag x (n.toNat % (opnd vs 0).tag.elemBits)))
  ∧ (∀ (s : State) (c : Ctx) (ch : BitVec 1) (d : BitVec 6) (t : BitVec 4) (i : BitVec 15),
    Ready s (.vli ch d t i) c → c.badDst (Dst.ofCode d) = false →
    Runs (.vli ch d t i) s c fun u => u.pushWrite c d (c.active.map fun l => (l, vliValue (Tag.ofCode t.toNat) i)))
  ∧ (∀ (s : State) (c : Ctx) (ch : BitVec 1) (d a b e : BitVec 6) (x : BitVec 1),
    Pushes (.vimad ch d a b e x) s c d [a, b, e] (sameTag Tag.anyInt) fun vs =>
      let t := (opnd vs 0).tag
      let es (k : Nat) : List Nat := elemsOf t (opnd vs k).bits
      elements t (((es 0).zip (es 1)).zipWith (fun (p : Nat × Nat) (z : Nat) => (z : Int) + if x = 1 then -((p.1 : Int) * p.2) else (p.1 : Int) * p.2) (es 2))))

/-- R50, R92, R156: VCMP writes its predicate lane by lane, and what each integer condition tests.
R50, R92, R156: VCMP writes its predicate in every active lane with the condition, alone or combined with the predicate's old value by AND or OR; it pushes nothing, and its flags are merged.
R156: the conditions on two integers of one tag, as numbers: EQ, NE, LT, LE, GT and GE on signed values, LTN, LEN, GTN and GEN on unsigned ones. No flag is raised. -/
def Obligations.CompareResults : Prop :=
  (∀ (s : State) (c : Ctx) (ch : BitVec 1) (p : BitVec 3) (a b : BitVec 6) (m : BitVec 2) (k : BitVec 4), Ready s (.vcmp ch p a b m k) c →
    ∀ o, c.go.vecOperands (s.atEffect (.vcmp ch p a b m k) c) none [a, b] (sameTag (cmpTags k.toNat)) = .ok o →
    noFpx c (orFlags (o.vals.map fun x => (cmpLane k.toNat c.regs.ftz x.2).2)) →
    exec (.vcmp ch p a b m k) s = .next (s.behind ((o.state.writeP c p.toNat (o.vals.map fun x =>
      (x.1,
        let old := (c.regs.lane x.1).getP p.toNat
        let new := (cmpLane k.toNat c.regs.ftz x.2).1
        if m = 0 then new else if m = 1 then old && new else old || new))).mergeFlags c.cid
      (orFlags (o.vals.map fun x => (cmpLane k.toNat c.regs.ftz x.2).2))) c))
  ∧ (∀ (x y : RegVal) (ftz : Bool), x.tag.isInt = true → y.tag = x.tag →
    let w := x.tag.scalarWidth
    let sx := signedOf w (x.low w)
    let sy := signedOf w (y.low w)
    cmpLane 0 ftz [x, y] = (decide (sx = sy), 0) ∧ cmpLane 1 ftz [x, y] = (decide (sx ≠ sy), 0)
    ∧ cmpLane 2 ftz [x, y] = (decide (sx < sy), 0) ∧ cmpLane 3 ftz [x, y] = (decide (sx ≤ sy), 0)
    ∧ cmpLane 4 ftz [x, y] = (decide (sx > sy), 0) ∧ cmpLane 5 ftz [x, y] = (decide (sx ≥ sy), 0)
    ∧ cmpLane 6 ftz [x, y] = (decide (x.low w < y.low w), 0) ∧ cmpLane 7 ftz [x, y] = (decide (x.low w ≤ y.low w), 0)
    ∧ cmpLane 8 ftz [x, y] = (decide (x.low w > y.low w), 0) ∧ cmpLane 9 ftz [x, y] = (decide (x.low w ≥ y.low w), 0))

/-- R3, R4, R68-R75, R377-R379: who may use a control register, what CSRR, CSRW, CSRS and CSRC do, and which bits of each register a write sets.
CSRR, CSRW, CSRS and CSRC complete: each answers the next state given.
R68, R378: the registers 0x400-0x406 outside handler mode and 0x800-0xFFF outside the supervisor handler: CSRR, CSRW, CSRS and CSRC trap there with PROT, DETAIL 2 and AUX 1. They are crew-uniform (R111, R377): with no active lane they have no effect and raise no trap.
R68-R75, R377, R379: the control register words where they are allowed. CSRR writes the register's value, tagged N64 (%tmask M64), to its scalar; CSRW, CSRS and CSRC put the scalar, its OR with the old value, or the old value without its bits; a STRICT launch that reads %clk traps with NDET, and a %tile code that the crew's width does not hold with ILLOP (its DETAIL 2 and the lanes of %tmask are the model's choice, log 22).
R3, R4, R72, R75: what a write puts into a control register: the defined bits of %fpmode, %fpflags, %fptrap, %tile and %shandler; every other register of the crew's space but %sact keeps its value. -/
def Obligations.ControlRegisters : Prop :=
  (∀ (s : State) (c : Ctx) (ch : BitVec 1) (d : BitVec 5) (r : BitVec 12) (i : Instr),
    i ∈ [.csrr ch d r, .csrw ch d r, .csrs ch d r, .csrc ch d r] → Ready s i c →
    (c.active = [] → Runs i s c id)
    ∧ (c.active ≠ [] → ((0x800 ≤ r.toNat ∧ c.crew.inSupervisor c.grp = false) ∨ (0x400 ≤ r.toNat ∧ r.toNat ≤ 0x406 ∧ c.handler = false)) →
    Traps i s c (c.go.fail .prot c.active 2 1)))
  ∧ ((∀ (s : State) (c : Ctx) (ch : BitVec 1) (d : BitVec 5) (r : BitVec 12), Ready s (.csrr ch d r) c → c.active ≠ [] → c.csrProt r.toNat = none →
    ((r.toNat = 0x024 ∧ c.record.strict = true) → Traps (.csrr ch d r) s c (c.go.fail .ndet c.active))
    ∧ (¬(r.toNat = 0x024 ∧ c.record.strict = true) → Runs (.csrr ch d r) s c fun t => t.writeS c d {
        bits := BitVec.ofNat 64 (t.csrRead c r.toNat), tag := if r.toNat = 0x402 then .m64 else .n64 }))
  ∧ (∀ (s : State) (c : Ctx) (ch : BitVec 1) (a : BitVec 5) (r : BitVec 12),
    ((c.getS a).tag.isInt = true ∨ (c.getS a).tag = .m64) → c.csrProt r.toNat = none →
    ∀ q ∈ [((.csrw : BitVec 1 → BitVec 5 → BitVec 12 → Instr), fun (_ x : DWord) => x), (.csrs, fun o x => o ||| x), (.csrc, fun o x => o &&& ~~~x)],
      Ready s (q.1 ch a r) c → c.active ≠ [] →
      let v := q.2 (BitVec.ofNat 64 ((s.atEffect (q.1 ch a r) c).csrRead c r.toNat)) (c.getS a).bits
      let wide := r.toNat = 0x104 ∧ (5 < v.toNat % 8 ∨ (v.toNat % 8 ≠ 0 ∧ c.crew.width < 2 ^ (v.toNat % 8)))
      (wide → Traps (q.1 ch a r) s c (c.go.fail .illop c.active 2))
      ∧ (¬wide → Runs (q.1 ch a r) s c fun t => t.csrPut c r.toNat v)))
  ∧ (∀ (s : State) (c : Ctx) (w : Crew) (n : Nat) (v : DWord), tget s.crews c.cid = some w →
    ∃ u, tget (s.csrPut c n v).crews c.cid = some u
      ∧ u.regs.fpmode = (if n = 0x100 then v &&& 7 else w.regs.fpmode)
      ∧ u.regs.fpflags = (if n = 0x101 then v &&& 31 else w.regs.fpflags)
      ∧ u.regs.fptrap = (if n = 0x102 then v &&& 31 else w.regs.fptrap)
      ∧ u.regs.tile = (if n = 0x104 then v.extractLsb' 0 3 else w.regs.tile)
      ∧ u.regs.shandler = (if n = 0x801 then v &&& 0x00FFFFFFFFFFFFFF else w.regs.shandler)
      ∧ u.regs.s = w.regs.s ∧ u.regs.hs = w.regs.hs ∧ u.regs.lanes = w.regs.lanes ∧ u.regs.cnt = w.regs.cnt ∧ u.regs.restart = w.regs.restart
      ∧ u.regs.treg = w.regs.treg ∧ u.groups = w.groups)

/-- R119-R123, R130-R134, R375: what the control-transfer words record for the end of their run.
R119, R120, R121, R122, R123: what a branch, a call or a jump decides when it issues: the lanes that take it and their targets. CALL and JMPI.L put the packet after their own, tagged N64, into v31; the target of JMPI.L is read before.
R130-R134, R375: EXIT, FREEZE and the three returns are decided when they issue: EXIT for its active lanes outside handlers and template crews, FREEZE in the template crew of its level with every lane active, RTE in handler mode. -/
def Obligations.TransferWords : Prop :=
  ((∀ (s : State) (c : Ctx) (ch : BitVec 1) (i : BitVec 25), Ready s (.br ch i) c →
    Runs (.br ch i) s c fun t => t.transfer c (.jump (maskOf c.active) (c.active.map fun l => (l, c.grp.packet + i.signExtend 64))))
  ∧ (∀ (s : State) (c : Ctx) (ch : BitVec 1) (k : BitVec 3) (a : BitVec 5) (i : BitVec 17), Ready s (.brc ch k a i) c →
    (c.active = [] ∨ (c.getS a).tag.shiftable = true) →
    let v := signedOf (c.getS a).tag.scalarWidth ((c.getS a).low (c.getS a).tag.scalarWidth)
    let go : Prop := match k.toNat with
      | 0 => v = 0
      | 1 => v ≠ 0
      | 2 => v < 0
      | 3 => v ≥ 0
      | 4 => v ≤ 0
      | _ => v > 0
    (go → Runs (.brc ch k a i) s c fun t => t.transfer c (.jump (maskOf c.active) (c.active.map fun l => (l, c.grp.packet + i.signExtend 64))))
    ∧ (¬go → Runs (.brc ch k a i) s c fun t => t.transfer c (.jump 0 [])))
  ∧ (∀ (s : State) (c : Ctx) (ch : BitVec 1) (p : BitVec 3) (n : BitVec 1) (i : BitVec 21), Ready s (.brp ch p n i) c →
    let take := c.active.filter fun l => if n = 1 then !(c.regs.lane l).getP p.toNat else (c.regs.lane l).getP p.toNat
    Runs (.brp ch p n i) s c fun t => t.transfer c (.jump (maskOf take) (take.map fun l => (l, c.grp.packet + i.signExtend 64))))
  ∧ (∀ (s : State) (c : Ctx) (ch : BitVec 1) (i : BitVec 25), Ready s (.call ch i) c →
    Runs (.call ch i) s c fun t => (t.writeV c 31 (c.active.map fun l => (l, { bits := c.grp.packet + 1, tag := .n64 }))).transfer c
      (.jump (maskOf c.active) (c.active.map fun l => (l, c.grp.packet + i.signExtend 64))))
  ∧ (∀ (s : State) (c : Ctx) (ch : BitVec 1) (a : BitVec 6), Ready s (.jmpi ch a) c →
    ∀ o, c.go.vecOperands (s.atEffect (.jmpi ch a) c) none [a] (sameTag Tag.isPacket) = .ok o →
    exec (.jmpi ch a) s = .next (s.behind (o.state.transfer c (.jump (maskOf c.active) (o.vals.map fun v => (v.1, (opnd v.2 0).bits)))) c))
  ∧ (∀ (s : State) (c : Ctx) (ch : BitVec 1), Ready s (.ret ch) c →
    (∀ l ∈ c.active, ((c.regs.lane l).getV 31).tag = .i64 ∨ ((c.regs.lane l).getV 31).tag = .n64) →
    Runs (.ret ch) s c fun t => t.transfer c (.jump (maskOf c.active) (c.active.map fun l => (l, ((c.regs.lane l).getV 31).bits))))
  ∧ (∀ (s : State) (c : Ctx) (ch : BitVec 1) (a : BitVec 6), Ready s (.jmpiL ch a) c →
    ∀ o, c.go.vecOperands (s.atEffect (.jmpiL ch a) c) none [a] (sameTag Tag.isPacket) = .ok o →
    exec (.jmpiL ch a) s = .next (s.behind ((o.state.writeV c 31 (c.active.map fun l => (l, { bits := c.grp.packet + 1, tag := .n64 }))).transfer c
      (.jump (maskOf c.active) (o.vals.map fun v => (v.1, (opnd v.2 0).bits)))) c)))
  ∧ ((∀ (s : State) (c : Ctx) (ch : BitVec 1), Ready s (.exit ch) c →
    (c.active = [] → Runs (.exit ch) s c id)
    ∧ (c.active ≠ [] → c.handler = false → c.crew.role = .normal → Runs (.exit ch) s c fun t => t.transfer c (.exit (maskOf c.active)))
    ∧ (c.active ≠ [] → c.handler = true → Traps (.exit ch) s c (c.go.fail .illop c.active 5))
    ∧ (c.active ≠ [] → c.handler = false → c.crew.role ≠ .normal → Traps (.exit ch) s c (c.go.fail .freeze c.active 3)))
  ∧ (∀ (s : State) (c : Ctx) (ch : BitVec 1) (l : BitVec 2), Ready s (.freeze ch l) c → c.handler = false →
    ((l = 1 ∧ c.crew.role = .launchTemplate ∧ (c.record.level = 1 ∨ c.record.level = 2)) ∨ (l = 2 ∧ c.crew.role = .blockTemplate ∧ c.record.level = 2)) →
    (∀ x, x < c.crew.width → x ∈ c.active) →
    Runs (.freeze ch l) s c fun t => t.transfer c (.freeze l.toNat))
  ∧ (∀ r ∈ [((.rteRetry : BitVec 1 → Instr), RteForm.retry), (.rteCommit, .commit), (.rteSkip, .skip)],
    ∀ (s : State) (c : Ctx) (ch : BitVec 1), Ready s (r.1 ch) c →
      (c.active = [] → Runs (r.1 ch) s c id)
      ∧ (c.active ≠ [] → c.handler = true → Runs (r.1 ch) s c fun t => t.transfer c (.rte r.2))
      ∧ (c.active ≠ [] → c.handler = false → Traps (r.1 ch) s c (c.go.fail .illop c.active 5))))

/-- R21, R119, R130, R134, R375: what the end of a run does with the transfer that the run recorded.
The end of a run completes: it answers the next state given.
R119: a transfer decided in a run takes effect at its end. With no invalid target among the lanes that take it, each of the group's lanes goes on at its target, or behind the run's final packet where it takes none; with one, the group traps with BOUNDS and no lane moves. The shadow of a pair leaves a run when its lead has (R463).
R21, R130, R134, R375: the other ends of a run. Without a transfer every lane goes on behind the final packet; after EXIT the lanes that were active exit; a FREEZE leaves the group waiting for its image; a return waits until the crew's stores have performed, and then returns.
A shadow's group whose lead has not left its run waits. -/
def Obligations.RunEnds : Prop :=
  (∀ (s : State) (r : StreamRef) (cid gid : Nat) (c : Crew) (g : Group) (b : Block) (t : Transfer) (take : DWord) (dest : List (Nat × DWord)),
    s.focus = some r → s.carried r = some (cid, gid) → tget s.crews cid = some c → c.id = cid → c.group? gid = some g → tget s.blocks c.block = some b →
    s.canIssue b c g = true → g.atEnd = true → s.onTrail c g = true → g.transfer = some t → t.kind = .jump take dest →
    let goal (l : Nat) : DWord := if take.getLsbD l then (tget dest l).getD (g.final.getD g.packet + 1) else g.final.getD g.packet + 1
    let bad := (c.groupLanes g).filter fun l => take.getLsbD l && !validPacket (goal l)
    (bad = [] → exec .runEnd s = .next ((s.trailStep c g).leaveRun cid g [] ((c.groupLanes g).map fun l => (l, goal l))))
    ∧ (bad ≠ [] → exec .runEnd s = .next (s.raiseTrap cid g.id (s.badTarget c g t (bad.map fun l => (l, goal l))))))
  ∧ (∀ (s : State) (r : StreamRef) (cid gid : Nat) (c : Crew) (g : Group) (b : Block),
    s.focus = some r → s.carried r = some (cid, gid) → tget s.crews cid = some c → c.id = cid → c.group? gid = some g → tget s.blocks c.block = some b →
    s.canIssue b c g = true → g.atEnd = true →
    (s.onTrail c g = false → exec .runEnd s = .next ((s.modGroup cid g.id fun g => { g with wait := some .follow }).dropStreams fun k x => k == cid && x == g.id))
    ∧ (s.onTrail c g = true →
    (g.transfer = none → exec .runEnd s = .next ((s.trailStep c g).leaveRun cid g [] ((c.groupLanes g).map fun l => (l, g.final.getD g.packet + 1))))
    ∧ (∀ t m, g.transfer = some t → t.kind = .exit m → exec .runEnd s = .next (((s.trailStep c g).leaveRun cid g ((c.groupLanes g).filter m.getLsbD)
        (((c.groupLanes g).filter fun l => !m.getLsbD l).map fun l => (l, g.final.getD g.packet + 1))).endCrew cid))
    ∧ (∀ t n, g.transfer = some t → t.kind = .freeze n →
        exec .runEnd s = .next ((s.modGroup cid g.id fun g => { g with wait := some .freeze }).dropStreams fun k x => k == cid && x == g.id))
    ∧ (∀ t f, g.transfer = some t → t.kind = .rte f → c.storeQ = [] → exec .runEnd s = .next (s.returnFrom cid g.id f))
    ∧ (∀ t f, g.transfer = some t → t.kind = .rte f → c.storeQ ≠ [] →
        exec .runEnd s = .next ((s.modGroup cid g.id fun g => { g with wait := some .rte }).dropStreams fun k x => k == cid && x == g.id))))

/-- R35, R36, R374: TRAP and BRK, and words that are not legal.
TRAP, BRK and a word that decodes to nothing complete: each answers the next state given.
R111, R374: TRAP and BRK are crew-uniform. With at least one active lane they trap with their own cause in every active lane, n[7:0] as DETAIL and n[11:8] as AUX in %tinfo with the word; in handler mode they trap with ILLOP.
With no active lane they have no effect.
R20, R35, R36, R111: a word that the tables give no meaning traps with ILLEGAL in every active lane, and so does an instruction with a field value that is marked illegal:
in the midst of a chain group, and where its own chain group begins with no deferred trap due and no word of it waiting; also with no active lane. -/
def Obligations.TrapWords : Prop :=
  (∀ r ∈ [((.trap : BitVec 1 → BitVec 12 → Instr), Cause.trap), (.brk, .brk)], ∀ (s : State) (c : Ctx) (ch : BitVec 1) (n : BitVec 12),
    Ready s (r.1 ch n) c →
    (c.active = [] → Runs (r.1 ch n) s c id)
    ∧ (c.active ≠ [] → c.handler = false → Traps (r.1 ch n) s c {
      cause := r.2, packet := c.grp.packet, word := c.grp.word, mask := maskOf c.active, amask := maskOf c.active
      info := BitVec.ofNat 64 (c.word.toNat + n.toNat * 2 ^ 32) })
    ∧ (c.active ≠ [] → c.handler = true → Traps (r.1 ch n) s c (c.go.fail .illop c.active 5)))
  ∧ (∀ (s : State) (i : Instr) (c : Ctx), isEvent i = false → s.ctx? i = some c → s.mayIssue c = true →
    (c.grp.snap = none → c.dueTrap = none ∧ s.chainWait c i = none) →
    ((∃ w, i = .illegalOpcodeWord w) ∨ i.wellFormed = false) → Traps i s c (c.go.fail .illegal c.active))

/-- R24, R124, R127, R129, R135-R137: the words of CTL that transfer nothing, and WAITC while it waits.
R24, R124, R127, R129, R135, R136, R137: the CTL words that transfer no control. NOP, YIELD and a WAITC whose waits are over change nothing or the group's place among the others; TRL names what the next run waits for, GRD sets a guard over the next words, SETRL the restart packet, ELECT one lane's predicate.
R127: a WAITC that begins and ends a chain group and finds a counter of its crew above its limit parks its group, and changes nothing else of the machine than the group's place. -/
def Obligations.ControlWords : Prop :=
  ((∀ (s : State) (c : Ctx) (ch : BitVec 1), Ready s (.nop ch) c → Runs (.nop ch) s c id)
  ∧ (∀ (s : State) (c : Ctx) (ch : BitVec 1) (x y z : BitVec 6), Ready s (.trl ch x y z) c →
    (∀ k ∈ [x, y, z], k = 0 ∨ (0x10 ≤ k.toNat ∧ k.toNat < 0x30) ∨ (c.handler = true ∧ 0x30 ≤ k.toNat ∧ k.toNat < 0x38)) →
    Runs (.trl ch x y z) s c fun t => t.modGrp c fun g => { g with trailer := [x, y, z].filter fun k => k ≠ 0 })
  ∧ (∀ (s : State) (c : Ctx) (ch : BitVec 1) (p : BitVec 3) (n : BitVec 1) (k : BitVec 3), Ready s (.grd ch p n k) c →
    Runs (.grd ch p n k) s c fun t => t.modGrp c fun g => { g with guards := g.guards ++ [({
      allow := maskOf ((List.range c.crew.width).filter fun l => if n = 1 then !(c.regs.lane l).getP p.toNat else (c.regs.lane l).getP p.toNat)
      left := k.toNat + 2 } : Guard)] })
  ∧ (∀ (s : State) (c : Ctx) (ch : BitVec 1) (l st : BitVec 4) (y : BitVec 6) (t : BitVec 4), Ready s (.waitc ch l st y t) c → c.active ≠ [] →
    Runs (.waitc ch l st y t) s c id)
  ∧ (∀ (s : State) (c : Ctx) (ch : BitVec 1), Ready s (.yield ch) c → c.active ≠ [] →
    Runs (.yield ch) s c fun t => t.modGrp c fun g => { g with yielding := true })
  ∧ (∀ (s : State) (c : Ctx) (ch : BitVec 1) (i : BitVec 21), Ready s (.setrl ch i) c → c.active ≠ [] →
    (validPacket (c.grp.packet + i.signExtend 64) = true →
      Runs (.setrl ch i) s c fun t => t.modRegs c.cid fun r => { r with restart := c.grp.packet + i.signExtend 64 })
    ∧ (validPacket (c.grp.packet + i.signExtend 64) = false →
      Traps (.setrl ch i) s c (c.go.fail .bounds c.active (addr := c.grp.packet + i.signExtend 64))))
  ∧ (∀ (s : State) (c : Ctx) (ch : BitVec 1) (p : BitVec 3), Ready s (.elect ch p) c →
    Runs (.elect ch p) s c fun t => t.writeP c p.toNat (c.active.map fun l => (l, decide (c.active.head? = some l)))))
  ∧ (∀ (s : State) (c : Ctx) (ch : BitVec 1) (l st : BitVec 4) (y : BitVec 6) (t : BitVec 4), s.ctx? (.waitc ch l st y t) = some c →
    s.mayIssue c = true → c.crew.shadow = none → c.grp.snap = none → c.active ≠ [] → c.chainNext = none →
    ((l ≠ 15 ∧ l.toNat < c.regs.cnt.loads) ∨ (st ≠ 15 ∧ st.toNat < c.regs.cnt.stores) ∨ (y ≠ 63 ∧ y.toNat < c.regs.cnt.copies)
      ∨ (t ≠ 15 ∧ t.toNat < c.regs.cnt.tileops)) →
    exec (.waitc ch l st y t) s = .next ((s.modGrp c fun g => { g with wait := some .waitc, since := none }).dropStreams
      fun k g => k == c.cid && g == c.grp.id))

/-- R83, R107, R108, R169, R171, R172: reductions and scans over integers and over floating-point values.
REDADD, REDMIN, REDMAX, REDAND, REDOR, REDXOR, SCANADD, SCANADDX and MATCH complete: each answers the next state that Crosses gives.
R83, R108, R169, R171: the reductions and scans on one integer or packed integer tag, outside a rendezvous: REDADD, SCANADD and SCANADDX give each element's sum modulo 2^e over all present members, over those up to the lane, and over those before it;
REDMIN and REDMAX the least and the greatest; REDAND, REDOR and REDXOR combine the 64 bits under any tags, with the lowest present lane's tag; MATCH gives the present members with the same bits and tag.
R90, R107, R108, R172: REDADD, SCANADD, SCANADDX, REDMIN and REDMAX on a floating-point tag, outside a rendezvous: REDADD adds along the pairwise tree over the tile's lane positions, the scans fold from the lowest lane on,
each addition rounded in RNE under FTZ, and an element that meets no addition as it is read; a signalling NaN among the elements that an active lane's result is formed from, and in a scan its own, raises NV also where it meets no addition (R79; log 53);
REDMIN and REDMAX fold the minimum and maximum that FMIN and FMAX take. -/
def Obligations.ReductionResults : Prop :=
  ((∀ r ∈ sumRows, ∀ (s : State) (c : Ctx) (ch : BitVec 1) (d a : BitVec 6) (m : BitVec 3),
    Crosses (r.1 ch d a m) s c d [a] 0 m (fun g => oneTag Tag.anyInt g ∧ g.tile = 2 ^ Nat.log2 g.tile) fun g l =>
      let t := (g.a l).tag
      (elements t ((List.range t.elemCount).map fun i => (((g.present l).filter (r.2 l)).map fun k => (g.elem t i k : Int)).sum), 0))
  ∧ (∀ r ∈ pickOfRows, ∀ (s : State) (c : Ctx) (ch : BitVec 1) (d a : BitVec 6) (m : BitVec 3),
    Crosses (r.1 ch d a m) s c d [a] 0 m (oneTag Tag.anyInt) fun g l =>
      let t := (g.a l).tag
      (elements t ((List.range t.elemCount).map fun i =>
        let xs := (g.present l).map fun k => elemInt t (g.elem t i k)
        ((if r.2 then xs.max? else xs.min?).getD 0)), 0))
  ∧ (∀ r ∈ bitOfRows, ∀ (s : State) (c : Ctx) (ch : BitVec 1) (d a : BitVec 6) (m : BitVec 3),
    Crosses (r.1 ch d a m) s c d [a] 0 m (fun g => ∀ l ∈ g.lanes, (g.a l).tag ≠ .poison) fun g l =>
      let t := (g.a ((g.present l).headD l)).tag
      (mkVal t ((((g.present l).drop 1).foldl (fun x k => r.2 x (g.a k).bits) (g.a ((g.present l).headD l)).bits).toNat), 0))
  ∧ (∀ (s : State) (c : Ctx) (ch : BitVec 1) (d a : BitVec 6) (m : BitVec 3),
    Crosses (.xmatch ch d a m) s c d [a] 0 m (fun g => ∀ l ∈ g.lanes, (g.a l).tag ≠ .poison) fun g l =>
      ({ bits := maskOf ((g.present l).filter fun k => (g.a k).bits = (g.a l).bits ∧ (g.a k).tag = (g.a l).tag), tag := .m64 }, 0)))
  ∧ ((∀ (s : State) (c : Ctx) (ch : BitVec 1) (d a : BitVec 6) (m : BitVec 3),
    Crosses (.redadd ch d a m) s c d [a] 0 m (fun g => oneTag Tag.isFloat g ∧ g.tile = 2 ^ Nat.log2 g.tile) fun g l =>
      let t := (g.a l).tag
      onElems t ((List.range t.elemCount).map fun i =>
        let r := (treeOf (addIn t.fmt c.regs.ftz) (fun k => if k ∈ g.present l then some (readIn t.fmt c.regs.ftz (g.elem t i k)) else none) (Nat.log2 g.tile) (l / g.tile * g.tile)).getD (0, 0)
        (r.1, r.2 ||| snanOf t.fmt ((g.present l).map (g.elem t i)))))
  ∧ (∀ q ∈ [((.scanadd : BitVec 1 → BitVec 6 → BitVec 6 → BitVec 3 → Instr), fun (l k : Nat) => decide (k ≤ l)), (.scanaddx, fun l k => decide (k < l))],
    ∀ (s : State) (c : Ctx) (ch : BitVec 1) (d a : BitVec 6) (m : BitVec 3),
    Crosses (q.1 ch d a m) s c d [a] 0 m (oneTag Tag.isFloat) fun g l =>
      let t := (g.a l).tag
      onElems t ((List.range t.elemCount).map fun i =>
        let r := scanOf t.fmt c.regs.ftz (((g.present l).filter (q.2 l)).map (g.elem t i))
        (r.1, r.2 ||| snanOf t.fmt (((g.present l).filter fun k => decide (k = l) || q.2 l k).map (g.elem t i)))))
  ∧ (∀ r ∈ pickOfRows, ∀ (s : State) (c : Ctx) (ch : BitVec 1) (d a : BitVec 6) (m : BitVec 3),
    Crosses (r.1 ch d a m) s c d [a] 0 m (oneTag Tag.isFloat) fun g l =>
      let t := (g.a l).tag
      onElems t ((List.range t.elemCount).map fun i =>
        let xs := (g.present l).map (g.elem t i)
        (foldOf (pickElem t.fmt c.regs.ftz r.2 false) (xs.headD 0 :: xs)))))

/-- R249, R261, R262, R264: what an atomic makes of the value at its home, and an update of a landing.
What the events of atomics and landings make of the bytes at their home.
R249: what an atomic makes of the old value m, its operand v and, for CAS, the new value: all on values of w bits; FADD the sum rounded once in RNE without FTZ, in the format of the width.
R261, R262, R264: what an update makes of a landing: INIT sets EXP and ARR; EXPECT.IN and EXPECT.OUT raise a count; ARRIVE and the counting of bytes lower one, and when all three are zero the phase completes: GEN + 1 modulo 16, ARR back to EXP; a count outside its range sets the status to fault and changes nothing else. -/
def Obligations.HomeOperations : Prop :=
  (∀ w m v new : Nat,
    AtomOp.apply .fadd 32 m v new = (addIn .f32 false m v).1 ∧ AtomOp.apply .fadd 64 m v new = (addIn .f64 false m v).1
    ∧ AtomOp.apply .add w m v new = (m + v) % 2 ^ w
    ∧ AtomOp.apply .minn w m v new = min m v ∧ AtomOp.apply .maxn w m v new = max m v
    ∧ signedOf w (AtomOp.apply .min w m v new) = min (signedOf w m) (signedOf w v)
    ∧ signedOf w (AtomOp.apply .max w m v new) = max (signedOf w m) (signedOf w v)
    ∧ (AtomOp.apply .min w m v new = m ∨ AtomOp.apply .min w m v new = v) ∧ (AtomOp.apply .max w m v new = m ∨ AtomOp.apply .max w m v new = v)
    ∧ AtomOp.apply .and w m v new = m &&& v ∧ AtomOp.apply .or w m v new = m ||| v ∧ AtomOp.apply .xor w m v new = m ^^^ v
    ∧ AtomOp.apply .exch w m v new = v ∧ AtomOp.apply .cas w m v new = (if m = v then new else m))
  ∧ (∀ (l : Landing) (n : Nat),
    let tested (x : Landing) : Landing := if x.arr = 0 ∧ x.inb = 0 ∧ x.outb = 0 then { x with gen := (x.gen + 1) % 16, arr := x.exp } else x
    l.update (.init n) = { gen := 0, arr := n, exp := n, st := 0, rsv := 0, inb := 0, outb := 0 }
    ∧ l.update (.expectIn n) = (if l.inb + n < 2 ^ 48 then { l with inb := l.inb + n } else { l with st := 2 })
    ∧ l.update (.expectOut n) = (if l.outb + n < 2 ^ 48 then { l with outb := l.outb + n } else { l with st := 2 })
    ∧ l.update .arrive = (if 0 < l.arr then tested { l with arr := l.arr - 1 } else { l with st := 2 })
    ∧ l.update (.countIn n) = (if n ≤ l.inb then tested { l with inb := l.inb - n } else { l with st := 2 })
    ∧ l.update (.countOut n) = (if n ≤ l.outb then tested { l with outb := l.outb - n } else { l with st := 2 })
    ∧ (l.gen < 16 → l.arr < 2 ^ 12 → l.exp < 2 ^ 12 → l.st < 4 → l.rsv < 4 → l.inb < 2 ^ 48 → l.outb < 2 ^ 48 → Landing.ofBytes l.bytes = l))

/-- R242, R253, R254, R256, R257, R259, R262-R265, R269, R270: fences, berths, landings and streams.
R253, R254, R256, R257, R259: FENCE, PUBLISH and the berth words where the crew's accesses are done and the entry is the block's: FENCE changes nothing, PUBLISH inverts the visible side on this core, or with T on both cores of a twin,
BERTH.SET installs the 32 descriptor bytes, BERTH.CLR invalidates; an empty entry is no error, another block's is PROT with AUX 6.
R242, R262-R265, R269, R270: the landing and stream words. An LND update enters the store queue, release-ordered at its scope, with a pending N64 for LND.ARRIVE; LND.TEST reads the landing's low 32 bits;
LND.WAIT passes when the generation differs from S[SB] and traps with LANDING when the status is not ok; STRM.SET installs a valid descriptor with every lane at element 0, STRM.STOP removes it. -/
def Obligations.SynchronisationWords : Prop :=
  ((∀ (s : State) (c : Ctx) (ch : BitVec 1) (sc : BitVec 3), Ready s (.fence ch sc) c → c.active ≠ [] → Runs (.fence ch sc) s c id)
  ∧ (∀ (s : State) (c : Ctx) (ch : BitVec 1) (b : BitVec 4), Ready s (.publish ch b 0) c → c.active ≠ [] →
    (∀ e, tget ((s.atEffect (.publish ch b 0) c).core c.crew.core).berths b.toNat = some e → e.block = c.blk.id →
      Runs (.publish ch b 0) s c fun t => t.modCore c.crew.core fun r => { r with berths := tput r.berths b.toNat { e with visible := !e.visible } })
    ∧ ((∀ e, tget ((s.atEffect (.publish ch b 0) c).core c.crew.core).berths b.toNat = some e → e.block ≠ c.blk.id) → Traps (.publish ch b 0) s c (c.go.fail .bounds c.active)))
  ∧ (∀ (s : State) (c : Ctx) (ch : BitVec 1) (b : BitVec 4), Ready s (.publish ch b 1) c → c.active ≠ [] →
    (c.blk.isTwin = false → Traps (.publish ch b 1) s c (c.go.fail .illop c.active 5))
    ∧ (c.blk.isTwin = true → (∀ x ∈ c.blk.sides, ∃ e, tget ((s.atEffect (.publish ch b 1) c).core x.core).berths b.toNat = some e ∧ e.block = c.blk.id) →
      Runs (.publish ch b 1) s c fun t => (c.blk.sides.map (·.core)).foldl (fun u k => u.swapBerth k b.toNat) t))
  ∧ (∀ (s : State) (c : Ctx) (ch : BitVec 1) (b : BitVec 4) (a : BitVec 5), Ready s (.berthSet ch b a) c → c.active ≠ [] →
    ∀ x d, (s.atEffect (.berthSet ch b a) c).descriptorAt c.go a 32 = .ok (x, d) → (s.atEffect (.berthSet ch b a) c).berthValid c.go d = true →
    ((∀ e, tget ((s.atEffect (.berthSet ch b a) c).core c.crew.core).berths b.toNat = some e → e.block = c.blk.id) →
      Runs (.berthSet ch b a) s c fun t => { t with nextId := t.nextId + 1 }.setBerth c.crew.core b.toNat (some {
        block := c.blk.id, install := t.nextId, base0 := BitVec.ofNat 64 (leAt d 0 8), base1 := BitVec.ofNat 64 (leAt d 8 8)
        size := leAt d 16 4, vault := leAt d 20 1 % 2 == 1, visible := leAt d 20 1 / 2 % 2 == 1, desc := d }))
    ∧ (∀ e, tget ((s.atEffect (.berthSet ch b a) c).core c.crew.core).berths b.toNat = some e → e.block ≠ c.blk.id →
      Traps (.berthSet ch b a) s c (c.go.fail .prot c.active 0 6)))
  ∧ (∀ (s : State) (c : Ctx) (ch : BitVec 1) (b : BitVec 4), Ready s (.berthClr ch b) c → c.active ≠ [] →
    let e? := tget ((s.atEffect (.berthClr ch b) c).core c.crew.core).berths b.toNat
    (e? = none → Runs (.berthClr ch b) s c id)
    ∧ (∀ e, e? = some e → e.block = c.blk.id → Runs (.berthClr ch b) s c fun t => t.setBerth c.crew.core b.toNat none)
    ∧ (∀ e, e? = some e → e.block ≠ c.blk.id → Traps (.berthClr ch b) s c (c.go.fail .prot c.active 0 6))))
  ∧ ((∀ r ∈ [((.lndInit : BitVec 1 → BitVec 5 → BitVec 5 → BitVec 3 → Instr), LandOp.init, 4096), (.lndExpectIn, .expectIn, 2 ^ 48), (.lndExpectOut, .expectOut, 2 ^ 48)],
    ∀ (s : State) (c : Ctx) (ch : BitVec 1) (a b : BitVec 5) (sc : BitVec 3), Ready s (r.1 ch a b sc) c → c.active ≠ [] →
    ((c.getS a).tag = .i64 ∨ (c.getS a).tag = .n64) → (c.getS b).tag.isInt = true → (c.getS b).toUnsigned < r.2.2 →
    ∀ off : Nat, (c.getS a).bits.toNat = off → off % 16 = 0 → off + 16 ≤ c.blk.ts + c.blk.p + c.blk.ch → c.crew.storeQ.length < 32 →
    (c.blk.newClaims c.crew.side [(off, 16)]).length ≤ (c.blk.side c.crew.side).pool →
    Runs (r.1 ch a b sc) s c fun t => enqueued (t.claim c.blk.id c.crew.side (c.blk.newClaims c.crew.side [(off, 16)])) c {
      id := c.crew.nextOp, op := .lnd (r.2.1 (c.getS b).toUnsigned) (.spad off) none, release := true, scope := sc.toNat
      word := c.word, atSeq := c.crew.seq, hor := c.crew.tickets.headD c.crew.seq, lane := c.active.headD 0 })
  ∧ (∀ (s : State) (c : Ctx) (ch : BitVec 1) (d a : BitVec 5) (sc : BitVec 3), Ready s (.lndArrive ch d a sc) c → c.active ≠ [] →
    ((c.getS a).tag = .i64 ∨ (c.getS a).tag = .n64) → ∀ off : Nat, (c.getS a).bits.toNat = off → off % 16 = 0 →
    off + 16 ≤ c.blk.ts + c.blk.p + c.blk.ch → c.crew.storeQ.length < 32 →
    (c.blk.newClaims c.crew.side [(off, 16)]).length ≤ (c.blk.side c.crew.side).pool →
    Runs (.lndArrive ch d a sc) s c fun t =>
      enqueued ((t.claim c.blk.id c.crew.side (c.blk.newClaims c.crew.side [(off, 16)])).writeS c d { tag := .n64, pend := some c.crew.nextOp }) c {
        id := c.crew.nextOp, op := .lnd .arrive (.spad off) (some d.toNat), release := true, scope := sc.toNat
        word := c.word, atSeq := c.crew.seq, hor := c.crew.tickets.headD c.crew.seq, lane := c.active.headD 0 })
  ∧ (∀ (s : State) (c : Ctx) (ch : BitVec 1) (d a b : BitVec 5) (sc : BitVec 3) (off : Nat), c.active ≠ [] →
    ((c.getS a).tag = .i64 ∨ (c.getS a).tag = .n64) → (c.getS a).bits.toNat = off → off % 16 = 0 → off + 16 ≤ c.blk.ts + c.blk.p + c.blk.ch →
    let pl : Place := .spad c.crew.block c.crew.side off
    let landing (i : Instr) : Landing := Landing.ofBytes ((s.atEffect i c).crewBytes c.crew c.crew.nextOp pl 16)
    (Ready s (.lndTest ch d a sc) c →
      Runs (.lndTest ch d a sc) s c fun t => t.writeS c d {
        bits := BitVec.ofNat 64 ((landing (.lndTest ch d a sc)).low % 2 ^ 32)
        tag := if t.crewPoisoned c.crew c.crew.nextOp pl 16 then .poison else .n64 })
    ∧ (Ready s (.lndWait ch a b sc) c → (c.getS b).tag.isInt = true →
      ((landing (.lndWait ch a b sc)).st = 0 → Runs (.lndWait ch a b sc) s c id)
      ∧ ((landing (.lndWait ch a b sc)).st ≠ 0 → Traps (.lndWait ch a b sc) s c { c.go.fail .landing c.active (addr := BitVec.ofNat 64 off) with
          info := BitVec.ofNat 64 ((landing (.lndWait ch a b sc)).low % 2 ^ 32) })))
  ∧ (∀ (s : State) (c : Ctx) (ch : BitVec 1) (a : BitVec 5) (q : BitVec 2), Ready s (.strmSet ch a q) c → c.active ≠ [] →
    ∀ x d, (s.atEffect (.strmSet ch a q) c).descriptorAt c.go a 32 = .ok (x, d) →
    ((s.atEffect (.strmSet ch a q) c).streamValid c.go d = true → Runs (.strmSet ch a q) s c fun t => t.modCrew c.cid fun w => { w with
      streams := tput w.streams q.toNat { desc := d, width := c.crew.width, pos := List.replicate c.crew.width 0, setAt := c.crew.nextOp, word := c.word, lane := c.active.headD 0 } })
    ∧ ((s.atEffect (.strmSet ch a q) c).streamValid c.go d = false → Traps (.strmSet ch a q) s c (c.go.fail .bounds c.active (addr := x))))
  ∧ (∀ (s : State) (c : Ctx) (ch : BitVec 1) (q : BitVec 2), Ready s (.strmStop ch q) c → c.active ≠ [] →
    Runs (.strmStop ch q) s c fun t => t.modCrew c.cid fun w => { w with streams := tdel w.streams q.toNat }))

/-- R174, R178-R181, R187-R193, R195, R266: the tile words and MMA enter the queue of their side.
R174, R187-R193, R195, R266: the tile words whose operands pass their checks enter one operation, with its checked ranges, at the tail of the block's tile queue; MCHK makes its scalar pending; MOVTS and TCVT replace a shape record at once; MOVST reads one.
R174, R178-R181: MMA. When both views and the scales they use are valid, their formats make a legal pair that takes these scales, and the views and the accumulator hold m × K, K × n and m × n elements, the operation enters the tile queue with the records as they stand.
With T, in the crew of a twin's leader, each side takes n / 2 of the columns, and the follower's view of B, of the same format and with scales where the leader's has them, is captured with its scales too. -/
def Obligations.TileAndMmaWordsEnter : Prop :=
  ((∀ (s : State) (c : Ctx) (ch : BitVec 1) (t : BitVec 4) (a : BitVec 5), Ready s (.movts ch t a) c → c.active ≠ [] →
    ((c.getS a).tag.isInt = true ∨ (c.getS a).tag = .raw) → t.toNat < (ownSide c).tileCount →
    (Shape.ofBits (c.getS a).bits).valid (ownSide c).tileCount (tileBytesOf c) = true →
    Runs (.movts ch t a) s c fun u => u.modSide c.blk.id c.crew.side fun sd => { sd with shapes := sd.shapes.set t.toNat (c.getS a).bits })
  ∧ (∀ (s : State) (c : Ctx) (ch : BitVec 1) (d : BitVec 5) (t : BitVec 4), Ready s (.movst ch d t) c → c.active ≠ [] →
    (∀ r, (ownSide c).shapes[t.toNat]? = some r → Runs (.movst ch d t) s c fun u => u.writeS c d { bits := r, tag := .n64 })
    ∧ ((ownSide c).shapes[t.toNat]? = none → Traps (.movst ch d t) s c (c.go.fail .bounds c.active)))
  ∧ (∀ (s : State) (c : Ctx) (ch : BitVec 1) (a : BitVec 5) (g : AccGeo), Ready s (.accz ch a) c → c.active ≠ [] → geometryTag (c.getS a) →
    AccGeo.ofBits (c.getS a).bits (accBytes c.blk c.record) = some g → Runs (.accz ch a) s c fun u => tileEntered u c (.accz g))
  ∧ (∀ (s : State) (c : Ctx) (ch : BitVec 1) (t : BitVec 4) (r : DWord), Ready s (.tzero ch t) c → c.active ≠ [] →
    (ownSide c).view (tileBytesOf c) t.toNat = some r → Runs (.tzero ch t) s c fun u => tileEntered u c (.tzero r))
  ∧ (∀ (s : State) (c : Ctx) (ch : BitVec 1) (d : BitVec 5), Ready s (.mchk ch d) c → c.active ≠ [] → c.blk.template = false →
    Runs (.mchk ch d) s c fun u => tileEntered (u.writeS c d { tag := .n64, pend := some c.crew.nextOp }) c (.mchk d.toNat))
  ∧ (∀ (s : State) (c : Ctx) (ch : BitVec 1) (t : BitVec 4) (x : BitVec 1) (m : BitVec 2) (f : BitVec 4) (old : DWord),
    Ready s (.tcvt ch t x m f) c → c.active ≠ [] → (ownSide c).view (tileBytesOf c) t.toNat = some old → (Shape.ofBits old).fmt ≠ 10 →
    let new : DWord := (old &&& ~~~0xF#64) ||| f.zeroExtend 64
    (Shape.ofBits new).rows * (Shape.ofBits new).pitch ≤ tileBytesOf c →
    Runs (.tcvt ch t x m f) s c fun u => tileEntered (u.modSide c.blk.id c.crew.side fun sd => { sd with shapes := sd.shapes.set t.toNat new }) c
      (.tcvt old new (if m = 0 then 0 else if m = 1 then 1 else (c.regs.fpmode.extractLsb' 0 2).toNat) (m == 3) (x == 1)))
  ∧ (∀ (s : State) (c : Ctx) (ch : BitVec 1) (d a : BitVec 5) (p : BitVec 1) (g : AccGeo) (sp : Span), Ready s (.accld ch d a p) c → c.active ≠ [] →
    geometryTag (c.getS d) → (c.getS a).tag.isInt = true → AccGeo.ofBits (c.getS d).bits (accBytes c.blk c.record) = some g →
    (c.getS a).toAddress.toNat % g.fmt.bytes = 0 → g.pitch % g.fmt.bytes = 0 → g.cols * g.fmt.bytes ≤ g.pitch →
    (s.atEffect (.accld ch d a p) c).spanAt c p.toNat (c.getS a).toAddress ((g.rows - 1) * g.pitch + g.cols * g.fmt.bytes) false = .ok sp →
    Runs (.accld ch d a p) s c fun u => tileEntered u c (.accld g sp))
  ∧ (∀ (s : State) (c : Ctx) (ch : BitVec 1) (d a b : BitVec 5) (x y q p u : BitVec 1) (f : BitVec 3) (t : BitVec 2) (g : AccGeo) (sp : Span),
    let i : Instr := .accst ch d a b x y q p u f t
    let par := q = 1 ∨ y = 1 ∨ t = 2
    let e := ofmtBytes f.toNat
    let row := g.cols * (1 + u.toNat) * e
    let pa := if par then (c.getS b).toAddress.toNat else 0
    Ready s i c → c.active ≠ [] → geometryTag (c.getS d) → (c.getS a).tag.isInt = true → (par → (c.getS b).tag.isInt = true) →
    AccGeo.ofBits (c.getS d).bits (accBytes c.blk c.record) = some g →
    (c.getS a).toAddress.toNat % e = 0 → g.pitch % e = 0 → pa % 16 = 0 → row ≤ g.pitch →
    pa + (if par then 16 + 4 * g.cols * (q.toNat + y.toNat) else 0) ≤ c.blk.ts + c.blk.p + c.blk.ch →
    (s.atEffect i c).spanAt c p.toNat (c.getS a).toAddress ((g.rows - 1) * g.pitch + row) true = .ok sp →
    Runs i s c fun v => tileEntered v c (.accst g sp (c.getS a).toAddress pa t.toNat f.toNat (u == 1) (q == 1) (y == 1) (x == 1)))
  ∧ (∀ (s : State) (c : Ctx) (ch : BitVec 1) (t : BitVec 4) (a b : BitVec 5) (p : BitVec 2) (r : DWord) (sp : Span), c.active ≠ [] →
    (c.getS a).tag.isInt = true → (c.getS b).tag.isInt = true → (ownSide c).view (tileBytesOf c) t.toNat = some r →
    let h := Shape.ofBits r
    let e := fmtBytes h.fmt
    let pitch := (c.getS b).toInteger
    (c.getS a).toAddress.toNat % e = 0 → pitch % (e : Int) = 0 → ((h.cols * e : Nat) : Int) ≤ pitch →
    let n := (h.rows - 1) * pitch.toNat + h.cols * e
    (Ready s (.ldt ch t a b p) c → (s.atEffect (.ldt ch t a b p) c).spanAt c p.toNat (c.getS a).toAddress n false = .ok sp →
      Runs (.ldt ch t a b p) s c fun u => tileEntered u c (.ldt r sp pitch.toNat))
    ∧ (Ready s (.stt ch t a b p) c → (s.atEffect (.stt ch t a b p) c).spanAt c p.toNat (c.getS a).toAddress n true = .ok sp →
      Runs (.stt ch t a b p) s c fun u => tileEntered u c (.stt r sp pitch.toNat))))
  ∧ (∀ (s : State) (c : Ctx) (ch : BitVec 1) (b : BitVec 6) (a t : BitVec 4) (n : BitVec 6) (m : BitVec 2) (g z : BitVec 1) (ra rb : DWord) (sa sb : Option DWord),
    c.active ≠ [] →
    (ownSide c).view (tileBytesOf c) a.toNat = some ra → (ownSide c).view (tileBytesOf c) t.toNat = some rb →
    let ha := Shape.ofBits ra
    let hb := Shape.ofBits rb
    mmaScale (ownSide c) (tileBytesOf c) ha sa → mmaScale (ownSide c) (tileBytesOf c) hb sb →
    let mv := 64 * 2 ^ m.toNat
    let nv := 16 * (n.toNat + 1)
    let k := mmaK ha.fmt hb.fmt
    let holds (r : Option DWord) (rows cols : Nat) : Prop := ∀ x, r = some x → rows ≤ (Shape.ofBits x).rows ∧ cols ≤ (Shape.ofBits x).cols
    k ≠ 0 → holds (some ra) mv k → holds sa mv (k / 32) →
    (Ready s (.mma ch b a t n m g z 0) c → holds (some rb) k nv → holds sb (k / 32) nv →
      b.toNat * 16384 + mv * nv * (mmaAcc ha.fmt).bytes ≤ accBytes c.blk c.record →
      Runs (.mma ch b a t n m g z 0) s c fun u => tileEntered u c (.mma b.toNat ra rb sa sb none none nv mv (g == 1) (z == 1) false))
    ∧ (∀ (rf : DWord) (sf : Option DWord), Ready s (.mma ch b a t n m g z 1) c → c.blk.isTwin = true → c.crew.side = 0 →
      (c.blk.side 1).view (tileBytesOf c) t.toNat = some rf → mmaScale (c.blk.side 1) (tileBytesOf c) (Shape.ofBits rf) sf →
      (Shape.ofBits rf).fmt = hb.fmt → sf.isSome = sb.isSome →
      (∀ v ∈ [rb, rf], holds (some v) k (nv / 2)) → (∀ v ∈ [sb, sf], holds v (k / 32) (nv / 2)) →
      b.toNat * 16384 + mv * (nv / 2) * (mmaAcc ha.fmt).bytes ≤ accBytes c.blk c.record →
      Runs (.mma ch b a t n m g z 1) s c fun u => tileEntered u c (.mma b.toNat ra rb sa sb (some rf) sf (nv / 2) mv (g == 1) (z == 1) true)))

/-- R360, R363, R368, R370, R456: a trap with a handler to enter, and one without.
R360, R368, R370: taking a trap. With a handler to enter and a frame that can be written, the crew's 0x400-0x406 hold the cause, the packet, the failing lanes, the address, the skid, the details and the frame's address;
the group stands at a run start at HANDLER or %shandler with its lanes, no guard in force and an empty result queue, and the crew is in handler mode.
R363, R456: a trap with no handler to enter kills its block: where every crew stands under its own number, the crews of the block have no group left; and its launch, unless it completes already, leaves for completion with FAULT. -/
def Obligations.TrapEntry : Prop :=
  (∀ (s s1 : State) (cid gid : Nat) (t : TrapInfo) (c : Crew) (g : Group), tget s.crews cid = some c → c.id = cid → c.shadow = none →
    c.group? gid = some g →
    let user := userRoute (s.recordOf c.launch) t.cause
    let target := if user then (s.recordOf c.launch).handler else c.regs.shandler
    target ≠ 0 → s.writeFrame c (frameBytes c g t (!user) (s.tskidOf c gid)) = some s1 →
    ∃ w h, tget (s.enterHandler cid gid t).crews cid = some w ∧ w.group? gid = some h
      ∧ w.regs.treg.tcause.toNat = t.cause.code ∧ w.regs.treg.tpc = t.packet ∧ w.regs.treg.tmask = t.mask ∧ w.regs.treg.taddr = t.addr
      ∧ w.regs.treg.tskid = s.tskidOf c gid ∧ w.regs.treg.tinfo = t.info ∧ w.regs.treg.tframe = s.frameAddr c
      ∧ w.handler.map (·.supervisor) = some (!user) ∧ h.packet = target ∧ h.runStart = target ∧ h.word = 0 ∧ h.final = none ∧ h.lanes = g.lanes
      ∧ h.guards = [] ∧ h.fill = 0 ∧ h.trap = none ∧ (∀ l, (w.regs.lane l).v = (c.regs.lane l).v) ∧ w.regs.s = c.regs.s ∧ w.regs.fpflags = c.regs.fpflags)
  ∧ (∀ (s : State) (cid gid : Nat) (t : TrapInfo) (c : Crew) (g : Group) (l : Launch), tget s.crews cid = some c → c.id = cid → c.group? gid = some g →
    tget s.launches c.launch = some l → l.phase ≠ .completing → l.phase ≠ .complete →
    userRoute (s.recordOf c.launch) t.cause = false → c.regs.shandler = 0 →
    s.enterHandler cid gid t = s.killBlock c t
    ∧ ∃ m, tget (s.killBlock c t).launches c.launch = some m ∧ m.phase = .completing ∧ m.status = .fault
    ∧ ((s.crews.map Prod.fst).Nodup → (∀ p ∈ s.crews, p.2.id = p.1) →
      ∀ k w, tget (s.killBlock c t).crews k = some w → w.block = c.block → w.groups = []))

/-- R19, R214, R215, R218: an issue opportunity, and the order in which groups are selected.
An issue opportunity completes: it answers the next state given.
R19, R213, R215, R218: an issue opportunity. A free stream with an eligible group puts the selected one on itself, and the others count an opportunity passed over: a group within its run goes on; one at a run start begins its run when the run check passes, and with its count returned to 0 traps with RUNLEN and the check's DETAIL when it does not.
R214, R215: the group that a stream selects is eligible for it, and no eligible group stands before it in the order of the seven keys. -/
def Obligations.IssueOpportunities : Prop :=
  (∀ (s : State) (r : StreamRef) (c : Crew) (g : Group), r.half < 2 → r.stream < 2 → tget (s.core r.core).streams (2 * r.half + r.stream) = none →
    s.selected r = some (c, g) →
    let u : State := { s.passOver ((s.eligibles r).filter fun x => !(x.1.id == c.id && x.2.id == g.id)) with focus := some r }
    ((g.atEnd = true ∨ g.final.isSome = true) → exec (.issueOpportunity r) s = .next (u.carry r c.id g.id))
    ∧ (∀ ps, g.atEnd = false → g.final = none → u.runPackets c.launch g.packet 8 = some ps →
      (∀ n, runCheck ps = .ok n → exec (.issueOpportunity r) s = .next ((((u.fillCode c.launch (r.core / 32) g.packet n).modGroup c.id g.id fun g => { g with
        runStart := g.packet, word := 0, final := some (g.packet + BitVec.ofNat 64 (n - 1)), fill := 0, trailer := [], tileCode := c.regs.tile }).carry r c.id g.id).trailStep c g))
      ∧ (∀ d, runCheck ps = .error d → exec (.issueOpportunity r) s = .next ((u.modGroup c.id g.id fun g => { g with passed := 0, owed := none, yielded := false }).raiseTrap c.id g.id {
        cause := .runlen, packet := g.packet, word := 0, mask := maskOf (c.groupLanes g), amask := maskOf (c.groupLanes g)
        info := BitVec.ofNat 64 (((ps.headD []).headD 0).toNat + d % 256 * 2 ^ 32) }))))
  ∧ (∀ (s : State) (r : StreamRef) (c : Crew) (g : Group), s.selected r = some (c, g) →
    (c, g) ∈ s.eligibles r ∧ s.eligible r c g = true
    ∧ ∀ x ∈ s.eligibles r, keysBefore (s.selectKeys r x.1 x.2) (s.selectKeys r c g) = false)

/-- R281-R285, R293, R294, R297, R314, R315, R345-R347: copies, gathers and scatters as they issue; FPREF, FCANCEL and LAUNCH.
FCOPY, FGATH, FSCAT, FPREF, FCANCEL and LAUNCH complete: each answers the next state given.
R281-R285, R293, R294, R297: FCOPY, FGATH and FSCAT. With a valid descriptor, its addresses aligned to the smaller of the element size and 16, its scratchpad ranges inside the block's scratchpad, a berth that is the block's,
and no write that leaves a protected world undeclassified, the command takes a Ferry slot.
R314, R315, R345-R347: FPREF fills the lines of the protected ways that its launch may fill, and without a key changes nothing; FCANCEL of a handle that names no running transfer of the crew answers 0, and of one that runs ends it and answers the bytes not yet counted, whose destination is undefined and by which its landing is counted down;
LAUNCH, once what its crew issued is done and the ring has room, writes the 128-byte record into the ring's next slot, raises TAIL and answers the launch id. -/
def Obligations.CopyAndLaunchWords : Prop :=
  ((∀ (s : State) (c : Ctx) (ch : BitVec 1) (d a b : BitVec 5) (l : BitVec 1), let i : Instr := .fcopy ch d a b l
    let t := s.atEffect i c
    let ds := descOf t c a 64
    let x := copyDesc ds
    let al := min (2 ^ min x.esize 8) 16
    let sr := boxRange x.src x.srcAxes x.bytes
    let dr := boxRange x.dst x.dstAxes x.bytes
    Ready s i c → c.active ≠ [] → descGood t c a 64 → landFieldGood c b l → copyValid ds = true →
    x.src % al = 0 → x.dst % al = 0 → (∀ y ∈ x.dims, y.src % (al : Int) = 0 ∧ y.dst % (al : Int) = 0) →
    rangeGood c x.srcSpad sr.1 sr.2 false → rangeGood c x.dstSpad dr.1 dr.2 true →
    (x.berth = false → (x.dstSpad = true ∨ x.declass = true ∨ t.leavesWorld c.go (BitVec.ofInt 64 dr.1).toNat (dr.2 - dr.1).toNat = false) →
      Commands i s c d (landOfField c b l) false { op := .fcopy, crew := 0, block := 0, handle := 0, desc := ds, total := x.bytes * x.elems })
    ∧ (∀ vault base, x.berth = true → t.berthHidden c.go dr.1 dr.2 = some (vault, base) →
      (vault = false ∨ x.declass = true
        ∨ t.leavesWorld c.go (BitVec.ofInt 64 (dr.1 + ((base + BitVec.ofInt 64 ((x.dst : Int) - dr.1)).toInt - x.dst))).toNat (dr.2 - dr.1).toNat = false) →
      Commands i s c d (landOfField c b l) false { op := .fcopy, crew := 0, block := 0, handle := 0, desc := ds, total := x.bytes * x.elems
                                                   berthBase := some (vault, base + BitVec.ofInt 64 ((x.dst : Int) - dr.1)) }))
  ∧ (∀ r ∈ [((.fgath : BitVec 1 → BitVec 5 → BitVec 5 → BitVec 5 → BitVec 1 → Instr), EngOp.fgath), (.fscat, .fscat)],
    ∀ (s : State) (c : Ctx) (ch : BitVec 1) (d a b : BitVec 5) (l : BitVec 1), let i := r.1 ch d a b l
    let t := s.atEffect i c
    let ds := descOf t c a 64
    let x := gathDesc ds
    let al := min (2 ^ min x.esize 8) 16
    let n := x.count * x.bytes
    Ready s i c → c.active ≠ [] → descGood t c a 64 → landFieldGood c b l → gathValid ds (decide (r.2 = .fscat)) = true →
    x.table % al = 0 → x.list % al = 0 → x.iscale % al = 0 → x.idx % x.idxBytes = 0 →
    rangeGood c true x.idx (x.idx + x.count * x.idxBytes : Nat) false → rangeGood c x.listSpad x.list (x.list + n : Nat) (decide (r.2 = .fgath)) →
    let target (k : Nat) : Int :=
      let v := leAt (t.crewBytes c.crew c.crew.nextOp (.spad c.blk.id c.crew.side x.idx) (x.count * x.idxBytes)) (k * x.idxBytes) x.idxBytes
      (x.table : Int) + (if x.wide then signedOf 64 v else (v : Int)) * x.iscale
    (r.2 = .fscat → x.tableSpad = true → ∀ k, k < x.count → 0 ≤ target k → c.blk.inSegment (target k).toNat = false) →
    (r.2 = .fscat → x.declass = true ∨ x.tableSpad = true ∨ ∀ k, k < x.count → t.leavesWorld c.go (BitVec.ofInt 64 (target k)).toNat x.bytes = false) →
    (x.berth = false → (r.2 = .fgath → x.declass = true ∨ x.listSpad = true ∨ t.leavesWorld c.go x.list n = false) →
      Commands i s c d (landOfField c b l) false { op := r.2, crew := 0, block := 0, handle := 0, desc := ds, total := n })
    ∧ (∀ vault base, x.berth = true → t.berthHidden c.go x.list (x.list + n : Nat) = some (vault, base) →
      (vault = false ∨ x.declass = true ∨ t.leavesWorld c.go base.toNat n = false) →
      Commands i s c d (landOfField c b l) false { op := r.2, crew := 0, block := 0, handle := 0, desc := ds, total := n, berthBase := some (vault, base) })))
  ∧ ((∀ (s : State) (c : Ctx) (ch : BitVec 1) (a b : BitVec 5) (h : BitVec 2), Ready s (.fpref ch a b h) c → c.active ≠ [] →
    (c.getS a).tag.isInt = true → (c.getS b).tag.isInt = true →
    Runs (.fpref ch a b h) s c (fun t => t.prefetch c.crew.core c.crew.launch (c.getS a).toAddress.toNat (c.getS b).bits.toNat)
    ∧ (c.record.key = 0 → Runs (.fpref ch a b h) s c id))
  ∧ (∀ (s : State) (c : Ctx) (ch : BitVec 1) (d a : BitVec 5), Ready s (.fcancel ch d a) c → c.active ≠ [] → (c.getS a).tag = .n64 →
    let i : Instr := .fcancel ch d a
    let named (x : Nat × FerryCmd) : Bool := x.2.crew == c.cid && x.2.handle == (c.getS a).bits && !x.2.done && x.2.ending.isNone && x.2.op.cancels
    (((s.atEffect i c).core c.crew.core).ferry.find? named = none → Runs i s c fun t => t.writeS c d { bits := 0, tag := .n64 })
    ∧ (∀ slot f, ((s.atEffect i c).core c.crew.core).ferry.find? named = some (slot, f) →
      Runs i s c fun t =>
        let rest := f.total - f.prog
        let t := t.undefineRest c.crew.core f c.crew.launch c.pid (rest / f.unit) (f.prog / f.unit)
        let t := match f.ftag with
          | none => t
          | some k => t.modSlice (c.crew.core / 32) fun y => { y with paused := y.paused.filter fun q => q.ftag ≠ k }
        ((t.modCmd c.crew.core slot fun f => { f with ending := some 0, cancelled := true, paused := none, ftag := none }).finishCmd c.crew.core slot).writeS c d
          (mkVal .n64 rest)))
  ∧ (∀ (s : State) (c : Ctx) (ch : BitVec 1) (d a b : BitVec 5) (q : Queue) (l : Launch), let i : Instr := .launch ch d a b
    let t := s.atEffect i c
    let bytes := descOf t c a 128
    Ready s i c → c.active ≠ [] → descGood t c a 128 → (c.getS b).tag.isInt = true → t.queue? c.pid (c.getS b).toAddress.toNat = some q →
    tget t.launches c.crew.launch = some l → q.launchMode = true → q.ctx = l.ctx → (c.record.key = 0 ∨ leAt bytes 36 4 = c.record.key.toNat) →
    (q.tail - q.head).toNat < 2 ^ q.log2n →
    Runs i s c fun t => (((t.writeVirtual c.pid (q.slotAddr (q.tail + 1).toNat) bytes).getD t).modQueue q.uid fun q => { q with tail := q.tail + 1 }).writeS c d
      (mkVal .n64 (launchIdOf q.qnum (q.tail + 1).toNat).toNat)))
end

