-- ==== Sys2Proof/Laws/Decode.lean ====
section
/-! SUPPORT. Bits taken out of words that were put together from fields. -/

namespace Sys2Proof.Laws

/-- Bits that lie in the low part of two joined bit vectors. -/
theorem extract_low {m n : Nat} (x : BitVec m) (y : BitVec n) (lo k : Nat) (h : lo + k ≤ n) :
    @BitVec.extractLsb' (no_index (m + n)) lo k (@HAppend.hAppend (BitVec m) (BitVec n) (BitVec (no_index (m + n))) _ x y)
      = y.extractLsb' lo k := by
  apply BitVec.eq_of_getLsbD_eq
  intro i hi
  have : lo + i < n := by omega
  simp [BitVec.getLsbD_append, this]

/-- Bits that lie in the high part of two joined bit vectors. -/
theorem extract_high {m n : Nat} (x : BitVec m) (y : BitVec n) (lo k : Nat) (h : n ≤ lo) :
    @BitVec.extractLsb' (no_index (m + n)) lo k (@HAppend.hAppend (BitVec m) (BitVec n) (BitVec (no_index (m + n))) _ x y)
      = x.extractLsb' (lo - n) k := by
  apply BitVec.eq_of_getLsbD_eq
  intro i hi
  have : ¬ (lo + i < n) := by omega
  have e : lo + i - n = lo - n + i := by omega
  simp [BitVec.getLsbD_append, this, e]

/-- All bits of a bit vector. -/
theorem extract_all {n : Nat} (x : BitVec n) : @BitVec.extractLsb' (no_index n) 0 n x = x := by
  apply BitVec.eq_of_getLsbD_eq
  intro i hi
  simp [hi]

end Sys2Proof.Laws
end

