-- ==== Sys2Proof/Laws/State.lean ====
section
/-! SUPPORT. One lemma for each field of State and each update of State: what the update leaves as it was. -/

namespace Sys2Proof.Laws

open Sys2Proof.Machine

/-! ### setCrew -/

@[simp] theorem setCrew_agenda (s : State) (k : Nat) (c : Crew) : (s.setCrew k c).agenda = s.agenda := rfl
@[simp] theorem setCrew_focus (s : State) (k : Nat) (c : Crew) : (s.setCrew k c).focus = s.focus := rfl
@[simp] theorem setCrew_blocks (s : State) (k : Nat) (c : Crew) : (s.setCrew k c).blocks = s.blocks := rfl
@[simp] theorem setCrew_stageGroups (s : State) (k : Nat) (c : Crew) : (s.setCrew k c).stageGroups = s.stageGroups := rfl
@[simp] theorem setCrew_launches (s : State) (k : Nat) (c : Crew) : (s.setCrew k c).launches = s.launches := rfl
@[simp] theorem setCrew_queues (s : State) (k : Nat) (c : Crew) : (s.setCrew k c).queues = s.queues := rfl
@[simp] theorem setCrew_contexts (s : State) (k : Nat) (c : Crew) : (s.setCrew k c).contexts = s.contexts := rfl
@[simp] theorem setCrew_partitions (s : State) (k : Nat) (c : Crew) : (s.setCrew k c).partitions = s.partitions := rfl
@[simp] theorem setCrew_slices (s : State) (k : Nat) (c : Crew) : (s.setCrew k c).slices = s.slices := rfl
@[simp] theorem setCrew_cores (s : State) (k : Nat) (c : Crew) : (s.setCrew k c).cores = s.cores := rfl
@[simp] theorem setCrew_vault (s : State) (k : Nat) (c : Crew) : (s.setCrew k c).vault = s.vault := rfl
@[simp] theorem setCrew_freezing (s : State) (k : Nat) (c : Crew) : (s.setCrew k c).freezing = s.freezing := rfl
@[simp] theorem setCrew_saved (s : State) (k : Nat) (c : Crew) : (s.setCrew k c).saved = s.saved := rfl
@[simp] theorem setCrew_landUpds (s : State) (k : Nat) (c : Crew) : (s.setCrew k c).landUpds = s.landUpds := rfl
@[simp] theorem setCrew_requests (s : State) (k : Nat) (c : Crew) : (s.setCrew k c).requests = s.requests := rfl
@[simp] theorem setCrew_strays (s : State) (k : Nat) (c : Crew) : (s.setCrew k c).strays = s.strays := rfl
@[simp] theorem setCrew_collectives (s : State) (k : Nat) (c : Crew) : (s.setCrew k c).collectives = s.collectives := rfl
@[simp] theorem setCrew_collCount (s : State) (k : Nat) (c : Crew) : (s.setCrew k c).collCount = s.collCount := rfl
@[simp] theorem setCrew_harbour (s : State) (k : Nat) (c : Crew) : (s.setCrew k c).harbour = s.harbour := rfl
@[simp] theorem setCrew_node (s : State) (k : Nat) (c : Crew) : (s.setCrew k c).node = s.node := rfl
@[simp] theorem setCrew_hostAnswer (s : State) (k : Nat) (c : Crew) : (s.setCrew k c).hostAnswer = s.hostAnswer := rfl
@[simp] theorem setCrew_hostEp (s : State) (k : Nat) (c : Crew) : (s.setCrew k c).hostEp = s.hostEp := rfl
@[simp] theorem setCrew_measAnswer (s : State) (k : Nat) (c : Crew) : (s.setCrew k c).measAnswer = s.measAnswer := rfl
@[simp] theorem setCrew_nextId (s : State) (k : Nat) (c : Crew) : (s.setCrew k c).nextId = s.nextId := rfl
@[simp] theorem setCrew_freeCtr (s : State) (k : Nat) (c : Crew) : (s.setCrew k c).freeCtr = s.freeCtr := rfl

/-! ### modCrew -/

@[simp] theorem modCrew_agenda (s : State) (k : Nat) (f : Crew → Crew) : (s.modCrew k f).agenda = s.agenda := by
  unfold State.modCrew; split <;> rfl
@[simp] theorem modCrew_focus (s : State) (k : Nat) (f : Crew → Crew) : (s.modCrew k f).focus = s.focus := by
  unfold State.modCrew; split <;> rfl
@[simp] theorem modCrew_blocks (s : State) (k : Nat) (f : Crew → Crew) : (s.modCrew k f).blocks = s.blocks := by
  unfold State.modCrew; split <;> rfl
@[simp] theorem modCrew_stageGroups (s : State) (k : Nat) (f : Crew → Crew) : (s.modCrew k f).stageGroups = s.stageGroups := by
  unfold State.modCrew; split <;> rfl
@[simp] theorem modCrew_launches (s : State) (k : Nat) (f : Crew → Crew) : (s.modCrew k f).launches = s.launches := by
  unfold State.modCrew; split <;> rfl
@[simp] theorem modCrew_queues (s : State) (k : Nat) (f : Crew → Crew) : (s.modCrew k f).queues = s.queues := by
  unfold State.modCrew; split <;> rfl
@[simp] theorem modCrew_contexts (s : State) (k : Nat) (f : Crew → Crew) : (s.modCrew k f).contexts = s.contexts := by
  unfold State.modCrew; split <;> rfl
@[simp] theorem modCrew_partitions (s : State) (k : Nat) (f : Crew → Crew) : (s.modCrew k f).partitions = s.partitions := by
  unfold State.modCrew; split <;> rfl
@[simp] theorem modCrew_slices (s : State) (k : Nat) (f : Crew → Crew) : (s.modCrew k f).slices = s.slices := by
  unfold State.modCrew; split <;> rfl
@[simp] theorem modCrew_cores (s : State) (k : Nat) (f : Crew → Crew) : (s.modCrew k f).cores = s.cores := by
  unfold State.modCrew; split <;> rfl
@[simp] theorem modCrew_vault (s : State) (k : Nat) (f : Crew → Crew) : (s.modCrew k f).vault = s.vault := by
  unfold State.modCrew; split <;> rfl
@[simp] theorem modCrew_freezing (s : State) (k : Nat) (f : Crew → Crew) : (s.modCrew k f).freezing = s.freezing := by
  unfold State.modCrew; split <;> rfl
@[simp] theorem modCrew_saved (s : State) (k : Nat) (f : Crew → Crew) : (s.modCrew k f).saved = s.saved := by
  unfold State.modCrew; split <;> rfl
@[simp] theorem modCrew_landUpds (s : State) (k : Nat) (f : Crew → Crew) : (s.modCrew k f).landUpds = s.landUpds := by
  unfold State.modCrew; split <;> rfl
@[simp] theorem modCrew_requests (s : State) (k : Nat) (f : Crew → Crew) : (s.modCrew k f).requests = s.requests := by
  unfold State.modCrew; split <;> rfl
@[simp] theorem modCrew_strays (s : State) (k : Nat) (f : Crew → Crew) : (s.modCrew k f).strays = s.strays := by
  unfold State.modCrew; split <;> rfl
@[simp] theorem modCrew_collectives (s : State) (k : Nat) (f : Crew → Crew) : (s.modCrew k f).collectives = s.collectives := by
  unfold State.modCrew; split <;> rfl
@[simp] theorem modCrew_collCount (s : State) (k : Nat) (f : Crew → Crew) : (s.modCrew k f).collCount = s.collCount := by
  unfold State.modCrew; split <;> rfl
@[simp] theorem modCrew_harbour (s : State) (k : Nat) (f : Crew → Crew) : (s.modCrew k f).harbour = s.harbour := by
  unfold State.modCrew; split <;> rfl
@[simp] theorem modCrew_node (s : State) (k : Nat) (f : Crew → Crew) : (s.modCrew k f).node = s.node := by
  unfold State.modCrew; split <;> rfl
@[simp] theorem modCrew_hostAnswer (s : State) (k : Nat) (f : Crew → Crew) : (s.modCrew k f).hostAnswer = s.hostAnswer := by
  unfold State.modCrew; split <;> rfl
@[simp] theorem modCrew_hostEp (s : State) (k : Nat) (f : Crew → Crew) : (s.modCrew k f).hostEp = s.hostEp := by
  unfold State.modCrew; split <;> rfl
@[simp] theorem modCrew_measAnswer (s : State) (k : Nat) (f : Crew → Crew) : (s.modCrew k f).measAnswer = s.measAnswer := by
  unfold State.modCrew; split <;> rfl
@[simp] theorem modCrew_nextId (s : State) (k : Nat) (f : Crew → Crew) : (s.modCrew k f).nextId = s.nextId := by
  unfold State.modCrew; split <;> rfl
@[simp] theorem modCrew_freeCtr (s : State) (k : Nat) (f : Crew → Crew) : (s.modCrew k f).freeCtr = s.freeCtr := by
  unfold State.modCrew; split <;> rfl

/-! ### modBlock -/

@[simp] theorem modBlock_agenda (s : State) (k : Nat) (f : Block → Block) : (s.modBlock k f).agenda = s.agenda := by
  unfold State.modBlock; split <;> rfl
@[simp] theorem modBlock_focus (s : State) (k : Nat) (f : Block → Block) : (s.modBlock k f).focus = s.focus := by
  unfold State.modBlock; split <;> rfl
@[simp] theorem modBlock_crews (s : State) (k : Nat) (f : Block → Block) : (s.modBlock k f).crews = s.crews := by
  unfold State.modBlock; split <;> rfl
@[simp] theorem modBlock_stageGroups (s : State) (k : Nat) (f : Block → Block) : (s.modBlock k f).stageGroups = s.stageGroups := by
  unfold State.modBlock; split <;> rfl
@[simp] theorem modBlock_launches (s : State) (k : Nat) (f : Block → Block) : (s.modBlock k f).launches = s.launches := by
  unfold State.modBlock; split <;> rfl
@[simp] theorem modBlock_queues (s : State) (k : Nat) (f : Block → Block) : (s.modBlock k f).queues = s.queues := by
  unfold State.modBlock; split <;> rfl
@[simp] theorem modBlock_contexts (s : State) (k : Nat) (f : Block → Block) : (s.modBlock k f).contexts = s.contexts := by
  unfold State.modBlock; split <;> rfl
@[simp] theorem modBlock_partitions (s : State) (k : Nat) (f : Block → Block) : (s.modBlock k f).partitions = s.partitions := by
  unfold State.modBlock; split <;> rfl
@[simp] theorem modBlock_slices (s : State) (k : Nat) (f : Block → Block) : (s.modBlock k f).slices = s.slices := by
  unfold State.modBlock; split <;> rfl
@[simp] theorem modBlock_cores (s : State) (k : Nat) (f : Block → Block) : (s.modBlock k f).cores = s.cores := by
  unfold State.modBlock; split <;> rfl
@[simp] theorem modBlock_vault (s : State) (k : Nat) (f : Block → Block) : (s.modBlock k f).vault = s.vault := by
  unfold State.modBlock; split <;> rfl
@[simp] theorem modBlock_freezing (s : State) (k : Nat) (f : Block → Block) : (s.modBlock k f).freezing = s.freezing := by
  unfold State.modBlock; split <;> rfl
@[simp] theorem modBlock_saved (s : State) (k : Nat) (f : Block → Block) : (s.modBlock k f).saved = s.saved := by
  unfold State.modBlock; split <;> rfl
@[simp] theorem modBlock_landUpds (s : State) (k : Nat) (f : Block → Block) : (s.modBlock k f).landUpds = s.landUpds := by
  unfold State.modBlock; split <;> rfl
@[simp] theorem modBlock_requests (s : State) (k : Nat) (f : Block → Block) : (s.modBlock k f).requests = s.requests := by
  unfold State.modBlock; split <;> rfl
@[simp] theorem modBlock_strays (s : State) (k : Nat) (f : Block → Block) : (s.modBlock k f).strays = s.strays := by
  unfold State.modBlock; split <;> rfl
@[simp] theorem modBlock_collectives (s : State) (k : Nat) (f : Block → Block) : (s.modBlock k f).collectives = s.collectives := by
  unfold State.modBlock; split <;> rfl
@[simp] theorem modBlock_collCount (s : State) (k : Nat) (f : Block → Block) : (s.modBlock k f).collCount = s.collCount := by
  unfold State.modBlock; split <;> rfl
@[simp] theorem modBlock_harbour (s : State) (k : Nat) (f : Block → Block) : (s.modBlock k f).harbour = s.harbour := by
  unfold State.modBlock; split <;> rfl
@[simp] theorem modBlock_node (s : State) (k : Nat) (f : Block → Block) : (s.modBlock k f).node = s.node := by
  unfold State.modBlock; split <;> rfl
@[simp] theorem modBlock_hostAnswer (s : State) (k : Nat) (f : Block → Block) : (s.modBlock k f).hostAnswer = s.hostAnswer := by
  unfold State.modBlock; split <;> rfl
@[simp] theorem modBlock_hostEp (s : State) (k : Nat) (f : Block → Block) : (s.modBlock k f).hostEp = s.hostEp := by
  unfold State.modBlock; split <;> rfl
@[simp] theorem modBlock_measAnswer (s : State) (k : Nat) (f : Block → Block) : (s.modBlock k f).measAnswer = s.measAnswer := by
  unfold State.modBlock; split <;> rfl
@[simp] theorem modBlock_nextId (s : State) (k : Nat) (f : Block → Block) : (s.modBlock k f).nextId = s.nextId := by
  unfold State.modBlock; split <;> rfl
@[simp] theorem modBlock_freeCtr (s : State) (k : Nat) (f : Block → Block) : (s.modBlock k f).freeCtr = s.freeCtr := by
  unfold State.modBlock; split <;> rfl

/-! ### modLaunch -/

@[simp] theorem modLaunch_agenda (s : State) (k : Nat) (f : Launch → Launch) : (s.modLaunch k f).agenda = s.agenda := by
  unfold State.modLaunch; split <;> rfl
@[simp] theorem modLaunch_focus (s : State) (k : Nat) (f : Launch → Launch) : (s.modLaunch k f).focus = s.focus := by
  unfold State.modLaunch; split <;> rfl
@[simp] theorem modLaunch_crews (s : State) (k : Nat) (f : Launch → Launch) : (s.modLaunch k f).crews = s.crews := by
  unfold State.modLaunch; split <;> rfl
@[simp] theorem modLaunch_blocks (s : State) (k : Nat) (f : Launch → Launch) : (s.modLaunch k f).blocks = s.blocks := by
  unfold State.modLaunch; split <;> rfl
@[simp] theorem modLaunch_stageGroups (s : State) (k : Nat) (f : Launch → Launch) : (s.modLaunch k f).stageGroups = s.stageGroups := by
  unfold State.modLaunch; split <;> rfl
@[simp] theorem modLaunch_queues (s : State) (k : Nat) (f : Launch → Launch) : (s.modLaunch k f).queues = s.queues := by
  unfold State.modLaunch; split <;> rfl
@[simp] theorem modLaunch_contexts (s : State) (k : Nat) (f : Launch → Launch) : (s.modLaunch k f).contexts = s.contexts := by
  unfold State.modLaunch; split <;> rfl
@[simp] theorem modLaunch_partitions (s : State) (k : Nat) (f : Launch → Launch) : (s.modLaunch k f).partitions = s.partitions := by
  unfold State.modLaunch; split <;> rfl
@[simp] theorem modLaunch_slices (s : State) (k : Nat) (f : Launch → Launch) : (s.modLaunch k f).slices = s.slices := by
  unfold State.modLaunch; split <;> rfl
@[simp] theorem modLaunch_cores (s : State) (k : Nat) (f : Launch → Launch) : (s.modLaunch k f).cores = s.cores := by
  unfold State.modLaunch; split <;> rfl
@[simp] theorem modLaunch_vault (s : State) (k : Nat) (f : Launch → Launch) : (s.modLaunch k f).vault = s.vault := by
  unfold State.modLaunch; split <;> rfl
@[simp] theorem modLaunch_freezing (s : State) (k : Nat) (f : Launch → Launch) : (s.modLaunch k f).freezing = s.freezing := by
  unfold State.modLaunch; split <;> rfl
@[simp] theorem modLaunch_saved (s : State) (k : Nat) (f : Launch → Launch) : (s.modLaunch k f).saved = s.saved := by
  unfold State.modLaunch; split <;> rfl
@[simp] theorem modLaunch_landUpds (s : State) (k : Nat) (f : Launch → Launch) : (s.modLaunch k f).landUpds = s.landUpds := by
  unfold State.modLaunch; split <;> rfl
@[simp] theorem modLaunch_requests (s : State) (k : Nat) (f : Launch → Launch) : (s.modLaunch k f).requests = s.requests := by
  unfold State.modLaunch; split <;> rfl
@[simp] theorem modLaunch_strays (s : State) (k : Nat) (f : Launch → Launch) : (s.modLaunch k f).strays = s.strays := by
  unfold State.modLaunch; split <;> rfl
@[simp] theorem modLaunch_collectives (s : State) (k : Nat) (f : Launch → Launch) : (s.modLaunch k f).collectives = s.collectives := by
  unfold State.modLaunch; split <;> rfl
@[simp] theorem modLaunch_collCount (s : State) (k : Nat) (f : Launch → Launch) : (s.modLaunch k f).collCount = s.collCount := by
  unfold State.modLaunch; split <;> rfl
@[simp] theorem modLaunch_harbour (s : State) (k : Nat) (f : Launch → Launch) : (s.modLaunch k f).harbour = s.harbour := by
  unfold State.modLaunch; split <;> rfl
@[simp] theorem modLaunch_node (s : State) (k : Nat) (f : Launch → Launch) : (s.modLaunch k f).node = s.node := by
  unfold State.modLaunch; split <;> rfl
@[simp] theorem modLaunch_hostAnswer (s : State) (k : Nat) (f : Launch → Launch) : (s.modLaunch k f).hostAnswer = s.hostAnswer := by
  unfold State.modLaunch; split <;> rfl
@[simp] theorem modLaunch_hostEp (s : State) (k : Nat) (f : Launch → Launch) : (s.modLaunch k f).hostEp = s.hostEp := by
  unfold State.modLaunch; split <;> rfl
@[simp] theorem modLaunch_measAnswer (s : State) (k : Nat) (f : Launch → Launch) : (s.modLaunch k f).measAnswer = s.measAnswer := by
  unfold State.modLaunch; split <;> rfl
@[simp] theorem modLaunch_nextId (s : State) (k : Nat) (f : Launch → Launch) : (s.modLaunch k f).nextId = s.nextId := by
  unfold State.modLaunch; split <;> rfl
@[simp] theorem modLaunch_freeCtr (s : State) (k : Nat) (f : Launch → Launch) : (s.modLaunch k f).freeCtr = s.freeCtr := by
  unfold State.modLaunch; split <;> rfl

/-! ### modPartition -/

@[simp] theorem modPartition_agenda (s : State) (k : Nat) (f : Partition → Partition) : (s.modPartition k f).agenda = s.agenda := by
  unfold State.modPartition; split <;> rfl
@[simp] theorem modPartition_focus (s : State) (k : Nat) (f : Partition → Partition) : (s.modPartition k f).focus = s.focus := by
  unfold State.modPartition; split <;> rfl
@[simp] theorem modPartition_crews (s : State) (k : Nat) (f : Partition → Partition) : (s.modPartition k f).crews = s.crews := by
  unfold State.modPartition; split <;> rfl
@[simp] theorem modPartition_blocks (s : State) (k : Nat) (f : Partition → Partition) : (s.modPartition k f).blocks = s.blocks := by
  unfold State.modPartition; split <;> rfl
@[simp] theorem modPartition_stageGroups (s : State) (k : Nat) (f : Partition → Partition) : (s.modPartition k f).stageGroups = s.stageGroups := by
  unfold State.modPartition; split <;> rfl
@[simp] theorem modPartition_launches (s : State) (k : Nat) (f : Partition → Partition) : (s.modPartition k f).launches = s.launches := by
  unfold State.modPartition; split <;> rfl
@[simp] theorem modPartition_queues (s : State) (k : Nat) (f : Partition → Partition) : (s.modPartition k f).queues = s.queues := by
  unfold State.modPartition; split <;> rfl
@[simp] theorem modPartition_contexts (s : State) (k : Nat) (f : Partition → Partition) : (s.modPartition k f).contexts = s.contexts := by
  unfold State.modPartition; split <;> rfl
@[simp] theorem modPartition_slices (s : State) (k : Nat) (f : Partition → Partition) : (s.modPartition k f).slices = s.slices := by
  unfold State.modPartition; split <;> rfl
@[simp] theorem modPartition_cores (s : State) (k : Nat) (f : Partition → Partition) : (s.modPartition k f).cores = s.cores := by
  unfold State.modPartition; split <;> rfl
@[simp] theorem modPartition_vault (s : State) (k : Nat) (f : Partition → Partition) : (s.modPartition k f).vault = s.vault := by
  unfold State.modPartition; split <;> rfl
@[simp] theorem modPartition_freezing (s : State) (k : Nat) (f : Partition → Partition) : (s.modPartition k f).freezing = s.freezing := by
  unfold State.modPartition; split <;> rfl
@[simp] theorem modPartition_saved (s : State) (k : Nat) (f : Partition → Partition) : (s.modPartition k f).saved = s.saved := by
  unfold State.modPartition; split <;> rfl
@[simp] theorem modPartition_landUpds (s : State) (k : Nat) (f : Partition → Partition) : (s.modPartition k f).landUpds = s.landUpds := by
  unfold State.modPartition; split <;> rfl
@[simp] theorem modPartition_requests (s : State) (k : Nat) (f : Partition → Partition) : (s.modPartition k f).requests = s.requests := by
  unfold State.modPartition; split <;> rfl
@[simp] theorem modPartition_strays (s : State) (k : Nat) (f : Partition → Partition) : (s.modPartition k f).strays = s.strays := by
  unfold State.modPartition; split <;> rfl
@[simp] theorem modPartition_collectives (s : State) (k : Nat) (f : Partition → Partition) : (s.modPartition k f).collectives = s.collectives := by
  unfold State.modPartition; split <;> rfl
@[simp] theorem modPartition_collCount (s : State) (k : Nat) (f : Partition → Partition) : (s.modPartition k f).collCount = s.collCount := by
  unfold State.modPartition; split <;> rfl
@[simp] theorem modPartition_harbour (s : State) (k : Nat) (f : Partition → Partition) : (s.modPartition k f).harbour = s.harbour := by
  unfold State.modPartition; split <;> rfl
@[simp] theorem modPartition_node (s : State) (k : Nat) (f : Partition → Partition) : (s.modPartition k f).node = s.node := by
  unfold State.modPartition; split <;> rfl
@[simp] theorem modPartition_hostAnswer (s : State) (k : Nat) (f : Partition → Partition) : (s.modPartition k f).hostAnswer = s.hostAnswer := by
  unfold State.modPartition; split <;> rfl
@[simp] theorem modPartition_hostEp (s : State) (k : Nat) (f : Partition → Partition) : (s.modPartition k f).hostEp = s.hostEp := by
  unfold State.modPartition; split <;> rfl
@[simp] theorem modPartition_measAnswer (s : State) (k : Nat) (f : Partition → Partition) : (s.modPartition k f).measAnswer = s.measAnswer := by
  unfold State.modPartition; split <;> rfl
@[simp] theorem modPartition_nextId (s : State) (k : Nat) (f : Partition → Partition) : (s.modPartition k f).nextId = s.nextId := by
  unfold State.modPartition; split <;> rfl
@[simp] theorem modPartition_freeCtr (s : State) (k : Nat) (f : Partition → Partition) : (s.modPartition k f).freeCtr = s.freeCtr := by
  unfold State.modPartition; split <;> rfl

/-! ### modSlice -/

@[simp] theorem modSlice_agenda (s : State) (k : Nat) (f : Slice → Slice) : (s.modSlice k f).agenda = s.agenda := rfl
@[simp] theorem modSlice_focus (s : State) (k : Nat) (f : Slice → Slice) : (s.modSlice k f).focus = s.focus := rfl
@[simp] theorem modSlice_crews (s : State) (k : Nat) (f : Slice → Slice) : (s.modSlice k f).crews = s.crews := rfl
@[simp] theorem modSlice_blocks (s : State) (k : Nat) (f : Slice → Slice) : (s.modSlice k f).blocks = s.blocks := rfl
@[simp] theorem modSlice_stageGroups (s : State) (k : Nat) (f : Slice → Slice) : (s.modSlice k f).stageGroups = s.stageGroups := rfl
@[simp] theorem modSlice_launches (s : State) (k : Nat) (f : Slice → Slice) : (s.modSlice k f).launches = s.launches := rfl
@[simp] theorem modSlice_queues (s : State) (k : Nat) (f : Slice → Slice) : (s.modSlice k f).queues = s.queues := rfl
@[simp] theorem modSlice_contexts (s : State) (k : Nat) (f : Slice → Slice) : (s.modSlice k f).contexts = s.contexts := rfl
@[simp] theorem modSlice_partitions (s : State) (k : Nat) (f : Slice → Slice) : (s.modSlice k f).partitions = s.partitions := rfl
@[simp] theorem modSlice_cores (s : State) (k : Nat) (f : Slice → Slice) : (s.modSlice k f).cores = s.cores := rfl
@[simp] theorem modSlice_vault (s : State) (k : Nat) (f : Slice → Slice) : (s.modSlice k f).vault = s.vault := rfl
@[simp] theorem modSlice_freezing (s : State) (k : Nat) (f : Slice → Slice) : (s.modSlice k f).freezing = s.freezing := rfl
@[simp] theorem modSlice_saved (s : State) (k : Nat) (f : Slice → Slice) : (s.modSlice k f).saved = s.saved := rfl
@[simp] theorem modSlice_landUpds (s : State) (k : Nat) (f : Slice → Slice) : (s.modSlice k f).landUpds = s.landUpds := rfl
@[simp] theorem modSlice_requests (s : State) (k : Nat) (f : Slice → Slice) : (s.modSlice k f).requests = s.requests := rfl
@[simp] theorem modSlice_strays (s : State) (k : Nat) (f : Slice → Slice) : (s.modSlice k f).strays = s.strays := rfl
@[simp] theorem modSlice_collectives (s : State) (k : Nat) (f : Slice → Slice) : (s.modSlice k f).collectives = s.collectives := rfl
@[simp] theorem modSlice_collCount (s : State) (k : Nat) (f : Slice → Slice) : (s.modSlice k f).collCount = s.collCount := rfl
@[simp] theorem modSlice_harbour (s : State) (k : Nat) (f : Slice → Slice) : (s.modSlice k f).harbour = s.harbour := rfl
@[simp] theorem modSlice_node (s : State) (k : Nat) (f : Slice → Slice) : (s.modSlice k f).node = s.node := rfl
@[simp] theorem modSlice_hostAnswer (s : State) (k : Nat) (f : Slice → Slice) : (s.modSlice k f).hostAnswer = s.hostAnswer := rfl
@[simp] theorem modSlice_hostEp (s : State) (k : Nat) (f : Slice → Slice) : (s.modSlice k f).hostEp = s.hostEp := rfl
@[simp] theorem modSlice_measAnswer (s : State) (k : Nat) (f : Slice → Slice) : (s.modSlice k f).measAnswer = s.measAnswer := rfl
@[simp] theorem modSlice_nextId (s : State) (k : Nat) (f : Slice → Slice) : (s.modSlice k f).nextId = s.nextId := rfl
@[simp] theorem modSlice_freeCtr (s : State) (k : Nat) (f : Slice → Slice) : (s.modSlice k f).freeCtr = s.freeCtr := rfl

/-! ### modCore -/

@[simp] theorem modCore_agenda (s : State) (k : Nat) (f : Core → Core) : (s.modCore k f).agenda = s.agenda := rfl
@[simp] theorem modCore_focus (s : State) (k : Nat) (f : Core → Core) : (s.modCore k f).focus = s.focus := rfl
@[simp] theorem modCore_crews (s : State) (k : Nat) (f : Core → Core) : (s.modCore k f).crews = s.crews := rfl
@[simp] theorem modCore_blocks (s : State) (k : Nat) (f : Core → Core) : (s.modCore k f).blocks = s.blocks := rfl
@[simp] theorem modCore_stageGroups (s : State) (k : Nat) (f : Core → Core) : (s.modCore k f).stageGroups = s.stageGroups := rfl
@[simp] theorem modCore_launches (s : State) (k : Nat) (f : Core → Core) : (s.modCore k f).launches = s.launches := rfl
@[simp] theorem modCore_queues (s : State) (k : Nat) (f : Core → Core) : (s.modCore k f).queues = s.queues := rfl
@[simp] theorem modCore_contexts (s : State) (k : Nat) (f : Core → Core) : (s.modCore k f).contexts = s.contexts := rfl
@[simp] theorem modCore_partitions (s : State) (k : Nat) (f : Core → Core) : (s.modCore k f).partitions = s.partitions := rfl
@[simp] theorem modCore_slices (s : State) (k : Nat) (f : Core → Core) : (s.modCore k f).slices = s.slices := rfl
@[simp] theorem modCore_vault (s : State) (k : Nat) (f : Core → Core) : (s.modCore k f).vault = s.vault := rfl
@[simp] theorem modCore_freezing (s : State) (k : Nat) (f : Core → Core) : (s.modCore k f).freezing = s.freezing := rfl
@[simp] theorem modCore_saved (s : State) (k : Nat) (f : Core → Core) : (s.modCore k f).saved = s.saved := rfl
@[simp] theorem modCore_landUpds (s : State) (k : Nat) (f : Core → Core) : (s.modCore k f).landUpds = s.landUpds := rfl
@[simp] theorem modCore_requests (s : State) (k : Nat) (f : Core → Core) : (s.modCore k f).requests = s.requests := rfl
@[simp] theorem modCore_strays (s : State) (k : Nat) (f : Core → Core) : (s.modCore k f).strays = s.strays := rfl
@[simp] theorem modCore_collectives (s : State) (k : Nat) (f : Core → Core) : (s.modCore k f).collectives = s.collectives := rfl
@[simp] theorem modCore_collCount (s : State) (k : Nat) (f : Core → Core) : (s.modCore k f).collCount = s.collCount := rfl
@[simp] theorem modCore_harbour (s : State) (k : Nat) (f : Core → Core) : (s.modCore k f).harbour = s.harbour := rfl
@[simp] theorem modCore_node (s : State) (k : Nat) (f : Core → Core) : (s.modCore k f).node = s.node := rfl
@[simp] theorem modCore_hostAnswer (s : State) (k : Nat) (f : Core → Core) : (s.modCore k f).hostAnswer = s.hostAnswer := rfl
@[simp] theorem modCore_hostEp (s : State) (k : Nat) (f : Core → Core) : (s.modCore k f).hostEp = s.hostEp := rfl
@[simp] theorem modCore_measAnswer (s : State) (k : Nat) (f : Core → Core) : (s.modCore k f).measAnswer = s.measAnswer := rfl
@[simp] theorem modCore_nextId (s : State) (k : Nat) (f : Core → Core) : (s.modCore k f).nextId = s.nextId := rfl
@[simp] theorem modCore_freeCtr (s : State) (k : Nat) (f : Core → Core) : (s.modCore k f).freeCtr = s.freeCtr := rfl

/-! ### dropStreams -/

@[simp] theorem dropStreams_agenda (s : State) (p : Nat → Nat → Bool) : (s.dropStreams p).agenda = s.agenda := rfl
@[simp] theorem dropStreams_focus (s : State) (p : Nat → Nat → Bool) : (s.dropStreams p).focus = s.focus := rfl
@[simp] theorem dropStreams_crews (s : State) (p : Nat → Nat → Bool) : (s.dropStreams p).crews = s.crews := rfl
@[simp] theorem dropStreams_blocks (s : State) (p : Nat → Nat → Bool) : (s.dropStreams p).blocks = s.blocks := rfl
@[simp] theorem dropStreams_stageGroups (s : State) (p : Nat → Nat → Bool) : (s.dropStreams p).stageGroups = s.stageGroups := rfl
@[simp] theorem dropStreams_launches (s : State) (p : Nat → Nat → Bool) : (s.dropStreams p).launches = s.launches := rfl
@[simp] theorem dropStreams_queues (s : State) (p : Nat → Nat → Bool) : (s.dropStreams p).queues = s.queues := rfl
@[simp] theorem dropStreams_contexts (s : State) (p : Nat → Nat → Bool) : (s.dropStreams p).contexts = s.contexts := rfl
@[simp] theorem dropStreams_partitions (s : State) (p : Nat → Nat → Bool) : (s.dropStreams p).partitions = s.partitions := rfl
@[simp] theorem dropStreams_slices (s : State) (p : Nat → Nat → Bool) : (s.dropStreams p).slices = s.slices := rfl
@[simp] theorem dropStreams_vault (s : State) (p : Nat → Nat → Bool) : (s.dropStreams p).vault = s.vault := rfl
@[simp] theorem dropStreams_freezing (s : State) (p : Nat → Nat → Bool) : (s.dropStreams p).freezing = s.freezing := rfl
@[simp] theorem dropStreams_saved (s : State) (p : Nat → Nat → Bool) : (s.dropStreams p).saved = s.saved := rfl
@[simp] theorem dropStreams_landUpds (s : State) (p : Nat → Nat → Bool) : (s.dropStreams p).landUpds = s.landUpds := rfl
@[simp] theorem dropStreams_requests (s : State) (p : Nat → Nat → Bool) : (s.dropStreams p).requests = s.requests := rfl
@[simp] theorem dropStreams_strays (s : State) (p : Nat → Nat → Bool) : (s.dropStreams p).strays = s.strays := rfl
@[simp] theorem dropStreams_collectives (s : State) (p : Nat → Nat → Bool) : (s.dropStreams p).collectives = s.collectives := rfl
@[simp] theorem dropStreams_collCount (s : State) (p : Nat → Nat → Bool) : (s.dropStreams p).collCount = s.collCount := rfl
@[simp] theorem dropStreams_harbour (s : State) (p : Nat → Nat → Bool) : (s.dropStreams p).harbour = s.harbour := rfl
@[simp] theorem dropStreams_node (s : State) (p : Nat → Nat → Bool) : (s.dropStreams p).node = s.node := rfl
@[simp] theorem dropStreams_hostAnswer (s : State) (p : Nat → Nat → Bool) : (s.dropStreams p).hostAnswer = s.hostAnswer := rfl
@[simp] theorem dropStreams_hostEp (s : State) (p : Nat → Nat → Bool) : (s.dropStreams p).hostEp = s.hostEp := rfl
@[simp] theorem dropStreams_measAnswer (s : State) (p : Nat → Nat → Bool) : (s.dropStreams p).measAnswer = s.measAnswer := rfl
@[simp] theorem dropStreams_nextId (s : State) (p : Nat → Nat → Bool) : (s.dropStreams p).nextId = s.nextId := rfl
@[simp] theorem dropStreams_freeCtr (s : State) (p : Nat → Nat → Bool) : (s.dropStreams p).freeCtr = s.freeCtr := rfl

/-! ### logRecord -/

@[simp] theorem logRecord_agenda (s : State) (e : ErrRec) : (s.logRecord e).agenda = s.agenda := rfl
@[simp] theorem logRecord_focus (s : State) (e : ErrRec) : (s.logRecord e).focus = s.focus := rfl
@[simp] theorem logRecord_crews (s : State) (e : ErrRec) : (s.logRecord e).crews = s.crews := rfl
@[simp] theorem logRecord_blocks (s : State) (e : ErrRec) : (s.logRecord e).blocks = s.blocks := rfl
@[simp] theorem logRecord_stageGroups (s : State) (e : ErrRec) : (s.logRecord e).stageGroups = s.stageGroups := rfl
@[simp] theorem logRecord_launches (s : State) (e : ErrRec) : (s.logRecord e).launches = s.launches := rfl
@[simp] theorem logRecord_queues (s : State) (e : ErrRec) : (s.logRecord e).queues = s.queues := rfl
@[simp] theorem logRecord_contexts (s : State) (e : ErrRec) : (s.logRecord e).contexts = s.contexts := rfl
@[simp] theorem logRecord_partitions (s : State) (e : ErrRec) : (s.logRecord e).partitions = s.partitions := rfl
@[simp] theorem logRecord_slices (s : State) (e : ErrRec) : (s.logRecord e).slices = s.slices := rfl
@[simp] theorem logRecord_cores (s : State) (e : ErrRec) : (s.logRecord e).cores = s.cores := rfl
@[simp] theorem logRecord_vault (s : State) (e : ErrRec) : (s.logRecord e).vault = s.vault := rfl
@[simp] theorem logRecord_freezing (s : State) (e : ErrRec) : (s.logRecord e).freezing = s.freezing := rfl
@[simp] theorem logRecord_saved (s : State) (e : ErrRec) : (s.logRecord e).saved = s.saved := rfl
@[simp] theorem logRecord_landUpds (s : State) (e : ErrRec) : (s.logRecord e).landUpds = s.landUpds := rfl
@[simp] theorem logRecord_requests (s : State) (e : ErrRec) : (s.logRecord e).requests = s.requests := rfl
@[simp] theorem logRecord_strays (s : State) (e : ErrRec) : (s.logRecord e).strays = s.strays := rfl
@[simp] theorem logRecord_collectives (s : State) (e : ErrRec) : (s.logRecord e).collectives = s.collectives := rfl
@[simp] theorem logRecord_collCount (s : State) (e : ErrRec) : (s.logRecord e).collCount = s.collCount := rfl
@[simp] theorem logRecord_node (s : State) (e : ErrRec) : (s.logRecord e).node = s.node := rfl
@[simp] theorem logRecord_hostAnswer (s : State) (e : ErrRec) : (s.logRecord e).hostAnswer = s.hostAnswer := rfl
@[simp] theorem logRecord_hostEp (s : State) (e : ErrRec) : (s.logRecord e).hostEp = s.hostEp := rfl
@[simp] theorem logRecord_measAnswer (s : State) (e : ErrRec) : (s.logRecord e).measAnswer = s.measAnswer := rfl
@[simp] theorem logRecord_nextId (s : State) (e : ErrRec) : (s.logRecord e).nextId = s.nextId := rfl
@[simp] theorem logRecord_freeCtr (s : State) (e : ErrRec) : (s.logRecord e).freeCtr = s.freeCtr := rfl

/-! ### modGroup -/

@[simp] theorem modGroup_agenda (s : State) (k g : Nat) (f : Group → Group) : (s.modGroup k g f).agenda = s.agenda := modCrew_agenda s k _
@[simp] theorem modGroup_focus (s : State) (k g : Nat) (f : Group → Group) : (s.modGroup k g f).focus = s.focus := modCrew_focus s k _
@[simp] theorem modGroup_blocks (s : State) (k g : Nat) (f : Group → Group) : (s.modGroup k g f).blocks = s.blocks := modCrew_blocks s k _
@[simp] theorem modGroup_stageGroups (s : State) (k g : Nat) (f : Group → Group) : (s.modGroup k g f).stageGroups = s.stageGroups := modCrew_stageGroups s k _
@[simp] theorem modGroup_launches (s : State) (k g : Nat) (f : Group → Group) : (s.modGroup k g f).launches = s.launches := modCrew_launches s k _
@[simp] theorem modGroup_queues (s : State) (k g : Nat) (f : Group → Group) : (s.modGroup k g f).queues = s.queues := modCrew_queues s k _
@[simp] theorem modGroup_contexts (s : State) (k g : Nat) (f : Group → Group) : (s.modGroup k g f).contexts = s.contexts := modCrew_contexts s k _
@[simp] theorem modGroup_partitions (s : State) (k g : Nat) (f : Group → Group) : (s.modGroup k g f).partitions = s.partitions := modCrew_partitions s k _
@[simp] theorem modGroup_slices (s : State) (k g : Nat) (f : Group → Group) : (s.modGroup k g f).slices = s.slices := modCrew_slices s k _
@[simp] theorem modGroup_cores (s : State) (k g : Nat) (f : Group → Group) : (s.modGroup k g f).cores = s.cores := modCrew_cores s k _
@[simp] theorem modGroup_vault (s : State) (k g : Nat) (f : Group → Group) : (s.modGroup k g f).vault = s.vault := modCrew_vault s k _
@[simp] theorem modGroup_freezing (s : State) (k g : Nat) (f : Group → Group) : (s.modGroup k g f).freezing = s.freezing := modCrew_freezing s k _
@[simp] theorem modGroup_saved (s : State) (k g : Nat) (f : Group → Group) : (s.modGroup k g f).saved = s.saved := modCrew_saved s k _
@[simp] theorem modGroup_landUpds (s : State) (k g : Nat) (f : Group → Group) : (s.modGroup k g f).landUpds = s.landUpds := modCrew_landUpds s k _
@[simp] theorem modGroup_requests (s : State) (k g : Nat) (f : Group → Group) : (s.modGroup k g f).requests = s.requests := modCrew_requests s k _
@[simp] theorem modGroup_strays (s : State) (k g : Nat) (f : Group → Group) : (s.modGroup k g f).strays = s.strays := modCrew_strays s k _
@[simp] theorem modGroup_collectives (s : State) (k g : Nat) (f : Group → Group) : (s.modGroup k g f).collectives = s.collectives := modCrew_collectives s k _
@[simp] theorem modGroup_collCount (s : State) (k g : Nat) (f : Group → Group) : (s.modGroup k g f).collCount = s.collCount := modCrew_collCount s k _
@[simp] theorem modGroup_harbour (s : State) (k g : Nat) (f : Group → Group) : (s.modGroup k g f).harbour = s.harbour := modCrew_harbour s k _
@[simp] theorem modGroup_node (s : State) (k g : Nat) (f : Group → Group) : (s.modGroup k g f).node = s.node := modCrew_node s k _
@[simp] theorem modGroup_hostAnswer (s : State) (k g : Nat) (f : Group → Group) : (s.modGroup k g f).hostAnswer = s.hostAnswer := modCrew_hostAnswer s k _
@[simp] theorem modGroup_hostEp (s : State) (k g : Nat) (f : Group → Group) : (s.modGroup k g f).hostEp = s.hostEp := modCrew_hostEp s k _
@[simp] theorem modGroup_measAnswer (s : State) (k g : Nat) (f : Group → Group) : (s.modGroup k g f).measAnswer = s.measAnswer := modCrew_measAnswer s k _
@[simp] theorem modGroup_nextId (s : State) (k g : Nat) (f : Group → Group) : (s.modGroup k g f).nextId = s.nextId := modCrew_nextId s k _
@[simp] theorem modGroup_freeCtr (s : State) (k g : Nat) (f : Group → Group) : (s.modGroup k g f).freeCtr = s.freeCtr := modCrew_freeCtr s k _

/-! ### modGrp -/

@[simp] theorem modGrp_agenda (s : State) (c : Ctx) (f : Group → Group) : (s.modGrp c f).agenda = s.agenda := modCrew_agenda s _ _
@[simp] theorem modGrp_focus (s : State) (c : Ctx) (f : Group → Group) : (s.modGrp c f).focus = s.focus := modCrew_focus s _ _
@[simp] theorem modGrp_blocks (s : State) (c : Ctx) (f : Group → Group) : (s.modGrp c f).blocks = s.blocks := modCrew_blocks s _ _
@[simp] theorem modGrp_stageGroups (s : State) (c : Ctx) (f : Group → Group) : (s.modGrp c f).stageGroups = s.stageGroups := modCrew_stageGroups s _ _
@[simp] theorem modGrp_launches (s : State) (c : Ctx) (f : Group → Group) : (s.modGrp c f).launches = s.launches := modCrew_launches s _ _
@[simp] theorem modGrp_queues (s : State) (c : Ctx) (f : Group → Group) : (s.modGrp c f).queues = s.queues := modCrew_queues s _ _
@[simp] theorem modGrp_contexts (s : State) (c : Ctx) (f : Group → Group) : (s.modGrp c f).contexts = s.contexts := modCrew_contexts s _ _
@[simp] theorem modGrp_partitions (s : State) (c : Ctx) (f : Group → Group) : (s.modGrp c f).partitions = s.partitions := modCrew_partitions s _ _
@[simp] theorem modGrp_slices (s : State) (c : Ctx) (f : Group → Group) : (s.modGrp c f).slices = s.slices := modCrew_slices s _ _
@[simp] theorem modGrp_cores (s : State) (c : Ctx) (f : Group → Group) : (s.modGrp c f).cores = s.cores := modCrew_cores s _ _
@[simp] theorem modGrp_vault (s : State) (c : Ctx) (f : Group → Group) : (s.modGrp c f).vault = s.vault := modCrew_vault s _ _
@[simp] theorem modGrp_freezing (s : State) (c : Ctx) (f : Group → Group) : (s.modGrp c f).freezing = s.freezing := modCrew_freezing s _ _
@[simp] theorem modGrp_saved (s : State) (c : Ctx) (f : Group → Group) : (s.modGrp c f).saved = s.saved := modCrew_saved s _ _
@[simp] theorem modGrp_landUpds (s : State) (c : Ctx) (f : Group → Group) : (s.modGrp c f).landUpds = s.landUpds := modCrew_landUpds s _ _
@[simp] theorem modGrp_requests (s : State) (c : Ctx) (f : Group → Group) : (s.modGrp c f).requests = s.requests := modCrew_requests s _ _
@[simp] theorem modGrp_strays (s : State) (c : Ctx) (f : Group → Group) : (s.modGrp c f).strays = s.strays := modCrew_strays s _ _
@[simp] theorem modGrp_collectives (s : State) (c : Ctx) (f : Group → Group) : (s.modGrp c f).collectives = s.collectives := modCrew_collectives s _ _
@[simp] theorem modGrp_collCount (s : State) (c : Ctx) (f : Group → Group) : (s.modGrp c f).collCount = s.collCount := modCrew_collCount s _ _
@[simp] theorem modGrp_harbour (s : State) (c : Ctx) (f : Group → Group) : (s.modGrp c f).harbour = s.harbour := modCrew_harbour s _ _
@[simp] theorem modGrp_node (s : State) (c : Ctx) (f : Group → Group) : (s.modGrp c f).node = s.node := modCrew_node s _ _
@[simp] theorem modGrp_hostAnswer (s : State) (c : Ctx) (f : Group → Group) : (s.modGrp c f).hostAnswer = s.hostAnswer := modCrew_hostAnswer s _ _
@[simp] theorem modGrp_hostEp (s : State) (c : Ctx) (f : Group → Group) : (s.modGrp c f).hostEp = s.hostEp := modCrew_hostEp s _ _
@[simp] theorem modGrp_measAnswer (s : State) (c : Ctx) (f : Group → Group) : (s.modGrp c f).measAnswer = s.measAnswer := modCrew_measAnswer s _ _
@[simp] theorem modGrp_nextId (s : State) (c : Ctx) (f : Group → Group) : (s.modGrp c f).nextId = s.nextId := modCrew_nextId s _ _
@[simp] theorem modGrp_freeCtr (s : State) (c : Ctx) (f : Group → Group) : (s.modGrp c f).freeCtr = s.freeCtr := modCrew_freeCtr s _ _

/-! ### modSide -/

@[simp] theorem modSide_agenda (s : State) (b k : Nat) (f : Side → Side) : (s.modSide b k f).agenda = s.agenda := modBlock_agenda s b _
@[simp] theorem modSide_focus (s : State) (b k : Nat) (f : Side → Side) : (s.modSide b k f).focus = s.focus := modBlock_focus s b _
@[simp] theorem modSide_crews (s : State) (b k : Nat) (f : Side → Side) : (s.modSide b k f).crews = s.crews := modBlock_crews s b _
@[simp] theorem modSide_stageGroups (s : State) (b k : Nat) (f : Side → Side) : (s.modSide b k f).stageGroups = s.stageGroups := modBlock_stageGroups s b _
@[simp] theorem modSide_launches (s : State) (b k : Nat) (f : Side → Side) : (s.modSide b k f).launches = s.launches := modBlock_launches s b _
@[simp] theorem modSide_queues (s : State) (b k : Nat) (f : Side → Side) : (s.modSide b k f).queues = s.queues := modBlock_queues s b _
@[simp] theorem modSide_contexts (s : State) (b k : Nat) (f : Side → Side) : (s.modSide b k f).contexts = s.contexts := modBlock_contexts s b _
@[simp] theorem modSide_partitions (s : State) (b k : Nat) (f : Side → Side) : (s.modSide b k f).partitions = s.partitions := modBlock_partitions s b _
@[simp] theorem modSide_slices (s : State) (b k : Nat) (f : Side → Side) : (s.modSide b k f).slices = s.slices := modBlock_slices s b _
@[simp] theorem modSide_cores (s : State) (b k : Nat) (f : Side → Side) : (s.modSide b k f).cores = s.cores := modBlock_cores s b _
@[simp] theorem modSide_vault (s : State) (b k : Nat) (f : Side → Side) : (s.modSide b k f).vault = s.vault := modBlock_vault s b _
@[simp] theorem modSide_freezing (s : State) (b k : Nat) (f : Side → Side) : (s.modSide b k f).freezing = s.freezing := modBlock_freezing s b _
@[simp] theorem modSide_saved (s : State) (b k : Nat) (f : Side → Side) : (s.modSide b k f).saved = s.saved := modBlock_saved s b _
@[simp] theorem modSide_landUpds (s : State) (b k : Nat) (f : Side → Side) : (s.modSide b k f).landUpds = s.landUpds := modBlock_landUpds s b _
@[simp] theorem modSide_requests (s : State) (b k : Nat) (f : Side → Side) : (s.modSide b k f).requests = s.requests := modBlock_requests s b _
@[simp] theorem modSide_strays (s : State) (b k : Nat) (f : Side → Side) : (s.modSide b k f).strays = s.strays := modBlock_strays s b _
@[simp] theorem modSide_collectives (s : State) (b k : Nat) (f : Side → Side) : (s.modSide b k f).collectives = s.collectives := modBlock_collectives s b _
@[simp] theorem modSide_collCount (s : State) (b k : Nat) (f : Side → Side) : (s.modSide b k f).collCount = s.collCount := modBlock_collCount s b _
@[simp] theorem modSide_harbour (s : State) (b k : Nat) (f : Side → Side) : (s.modSide b k f).harbour = s.harbour := modBlock_harbour s b _
@[simp] theorem modSide_node (s : State) (b k : Nat) (f : Side → Side) : (s.modSide b k f).node = s.node := modBlock_node s b _
@[simp] theorem modSide_hostAnswer (s : State) (b k : Nat) (f : Side → Side) : (s.modSide b k f).hostAnswer = s.hostAnswer := modBlock_hostAnswer s b _
@[simp] theorem modSide_hostEp (s : State) (b k : Nat) (f : Side → Side) : (s.modSide b k f).hostEp = s.hostEp := modBlock_hostEp s b _
@[simp] theorem modSide_measAnswer (s : State) (b k : Nat) (f : Side → Side) : (s.modSide b k f).measAnswer = s.measAnswer := modBlock_measAnswer s b _
@[simp] theorem modSide_nextId (s : State) (b k : Nat) (f : Side → Side) : (s.modSide b k f).nextId = s.nextId := modBlock_nextId s b _
@[simp] theorem modSide_freeCtr (s : State) (b k : Nat) (f : Side → Side) : (s.modSide b k f).freeCtr = s.freeCtr := modBlock_freeCtr s b _

/-! ### modRegs -/

@[simp] theorem modRegs_agenda (s : State) (k : Nat) (f : CrewRegs → CrewRegs) : (s.modRegs k f).agenda = s.agenda := modCrew_agenda s k _
@[simp] theorem modRegs_focus (s : State) (k : Nat) (f : CrewRegs → CrewRegs) : (s.modRegs k f).focus = s.focus := modCrew_focus s k _
@[simp] theorem modRegs_blocks (s : State) (k : Nat) (f : CrewRegs → CrewRegs) : (s.modRegs k f).blocks = s.blocks := modCrew_blocks s k _
@[simp] theorem modRegs_stageGroups (s : State) (k : Nat) (f : CrewRegs → CrewRegs) : (s.modRegs k f).stageGroups = s.stageGroups := modCrew_stageGroups s k _
@[simp] theorem modRegs_launches (s : State) (k : Nat) (f : CrewRegs → CrewRegs) : (s.modRegs k f).launches = s.launches := modCrew_launches s k _
@[simp] theorem modRegs_queues (s : State) (k : Nat) (f : CrewRegs → CrewRegs) : (s.modRegs k f).queues = s.queues := modCrew_queues s k _
@[simp] theorem modRegs_contexts (s : State) (k : Nat) (f : CrewRegs → CrewRegs) : (s.modRegs k f).contexts = s.contexts := modCrew_contexts s k _
@[simp] theorem modRegs_partitions (s : State) (k : Nat) (f : CrewRegs → CrewRegs) : (s.modRegs k f).partitions = s.partitions := modCrew_partitions s k _
@[simp] theorem modRegs_slices (s : State) (k : Nat) (f : CrewRegs → CrewRegs) : (s.modRegs k f).slices = s.slices := modCrew_slices s k _
@[simp] theorem modRegs_cores (s : State) (k : Nat) (f : CrewRegs → CrewRegs) : (s.modRegs k f).cores = s.cores := modCrew_cores s k _
@[simp] theorem modRegs_vault (s : State) (k : Nat) (f : CrewRegs → CrewRegs) : (s.modRegs k f).vault = s.vault := modCrew_vault s k _
@[simp] theorem modRegs_freezing (s : State) (k : Nat) (f : CrewRegs → CrewRegs) : (s.modRegs k f).freezing = s.freezing := modCrew_freezing s k _
@[simp] theorem modRegs_saved (s : State) (k : Nat) (f : CrewRegs → CrewRegs) : (s.modRegs k f).saved = s.saved := modCrew_saved s k _
@[simp] theorem modRegs_landUpds (s : State) (k : Nat) (f : CrewRegs → CrewRegs) : (s.modRegs k f).landUpds = s.landUpds := modCrew_landUpds s k _
@[simp] theorem modRegs_requests (s : State) (k : Nat) (f : CrewRegs → CrewRegs) : (s.modRegs k f).requests = s.requests := modCrew_requests s k _
@[simp] theorem modRegs_strays (s : State) (k : Nat) (f : CrewRegs → CrewRegs) : (s.modRegs k f).strays = s.strays := modCrew_strays s k _
@[simp] theorem modRegs_collectives (s : State) (k : Nat) (f : CrewRegs → CrewRegs) : (s.modRegs k f).collectives = s.collectives := modCrew_collectives s k _
@[simp] theorem modRegs_collCount (s : State) (k : Nat) (f : CrewRegs → CrewRegs) : (s.modRegs k f).collCount = s.collCount := modCrew_collCount s k _
@[simp] theorem modRegs_harbour (s : State) (k : Nat) (f : CrewRegs → CrewRegs) : (s.modRegs k f).harbour = s.harbour := modCrew_harbour s k _
@[simp] theorem modRegs_node (s : State) (k : Nat) (f : CrewRegs → CrewRegs) : (s.modRegs k f).node = s.node := modCrew_node s k _
@[simp] theorem modRegs_hostAnswer (s : State) (k : Nat) (f : CrewRegs → CrewRegs) : (s.modRegs k f).hostAnswer = s.hostAnswer := modCrew_hostAnswer s k _
@[simp] theorem modRegs_hostEp (s : State) (k : Nat) (f : CrewRegs → CrewRegs) : (s.modRegs k f).hostEp = s.hostEp := modCrew_hostEp s k _
@[simp] theorem modRegs_measAnswer (s : State) (k : Nat) (f : CrewRegs → CrewRegs) : (s.modRegs k f).measAnswer = s.measAnswer := modCrew_measAnswer s k _
@[simp] theorem modRegs_nextId (s : State) (k : Nat) (f : CrewRegs → CrewRegs) : (s.modRegs k f).nextId = s.nextId := modCrew_nextId s k _
@[simp] theorem modRegs_freeCtr (s : State) (k : Nat) (f : CrewRegs → CrewRegs) : (s.modRegs k f).freeCtr = s.freeCtr := modCrew_freeCtr s k _

/-! ### count -/

@[simp] theorem count_agenda (s : State) (k : Nat) (f : Counts → Counts) : (s.count k f).agenda = s.agenda := modCrew_agenda s k _
@[simp] theorem count_focus (s : State) (k : Nat) (f : Counts → Counts) : (s.count k f).focus = s.focus := modCrew_focus s k _
@[simp] theorem count_blocks (s : State) (k : Nat) (f : Counts → Counts) : (s.count k f).blocks = s.blocks := modCrew_blocks s k _
@[simp] theorem count_stageGroups (s : State) (k : Nat) (f : Counts → Counts) : (s.count k f).stageGroups = s.stageGroups := modCrew_stageGroups s k _
@[simp] theorem count_launches (s : State) (k : Nat) (f : Counts → Counts) : (s.count k f).launches = s.launches := modCrew_launches s k _
@[simp] theorem count_queues (s : State) (k : Nat) (f : Counts → Counts) : (s.count k f).queues = s.queues := modCrew_queues s k _
@[simp] theorem count_contexts (s : State) (k : Nat) (f : Counts → Counts) : (s.count k f).contexts = s.contexts := modCrew_contexts s k _
@[simp] theorem count_partitions (s : State) (k : Nat) (f : Counts → Counts) : (s.count k f).partitions = s.partitions := modCrew_partitions s k _
@[simp] theorem count_slices (s : State) (k : Nat) (f : Counts → Counts) : (s.count k f).slices = s.slices := modCrew_slices s k _
@[simp] theorem count_cores (s : State) (k : Nat) (f : Counts → Counts) : (s.count k f).cores = s.cores := modCrew_cores s k _
@[simp] theorem count_vault (s : State) (k : Nat) (f : Counts → Counts) : (s.count k f).vault = s.vault := modCrew_vault s k _
@[simp] theorem count_freezing (s : State) (k : Nat) (f : Counts → Counts) : (s.count k f).freezing = s.freezing := modCrew_freezing s k _
@[simp] theorem count_saved (s : State) (k : Nat) (f : Counts → Counts) : (s.count k f).saved = s.saved := modCrew_saved s k _
@[simp] theorem count_landUpds (s : State) (k : Nat) (f : Counts → Counts) : (s.count k f).landUpds = s.landUpds := modCrew_landUpds s k _
@[simp] theorem count_requests (s : State) (k : Nat) (f : Counts → Counts) : (s.count k f).requests = s.requests := modCrew_requests s k _
@[simp] theorem count_strays (s : State) (k : Nat) (f : Counts → Counts) : (s.count k f).strays = s.strays := modCrew_strays s k _
@[simp] theorem count_collectives (s : State) (k : Nat) (f : Counts → Counts) : (s.count k f).collectives = s.collectives := modCrew_collectives s k _
@[simp] theorem count_collCount (s : State) (k : Nat) (f : Counts → Counts) : (s.count k f).collCount = s.collCount := modCrew_collCount s k _
@[simp] theorem count_harbour (s : State) (k : Nat) (f : Counts → Counts) : (s.count k f).harbour = s.harbour := modCrew_harbour s k _
@[simp] theorem count_node (s : State) (k : Nat) (f : Counts → Counts) : (s.count k f).node = s.node := modCrew_node s k _
@[simp] theorem count_hostAnswer (s : State) (k : Nat) (f : Counts → Counts) : (s.count k f).hostAnswer = s.hostAnswer := modCrew_hostAnswer s k _
@[simp] theorem count_hostEp (s : State) (k : Nat) (f : Counts → Counts) : (s.count k f).hostEp = s.hostEp := modCrew_hostEp s k _
@[simp] theorem count_measAnswer (s : State) (k : Nat) (f : Counts → Counts) : (s.count k f).measAnswer = s.measAnswer := modCrew_measAnswer s k _
@[simp] theorem count_nextId (s : State) (k : Nat) (f : Counts → Counts) : (s.count k f).nextId = s.nextId := modCrew_nextId s k _
@[simp] theorem count_freeCtr (s : State) (k : Nat) (f : Counts → Counts) : (s.count k f).freeCtr = s.freeCtr := modCrew_freeCtr s k _

/-! ### writeS -/

@[simp] theorem writeS_agenda (s : State) (c : Ctx) (d : BitVec 5) (x : RegVal) : (s.writeS c d x).agenda = s.agenda := modCrew_agenda s _ _
@[simp] theorem writeS_focus (s : State) (c : Ctx) (d : BitVec 5) (x : RegVal) : (s.writeS c d x).focus = s.focus := modCrew_focus s _ _
@[simp] theorem writeS_blocks (s : State) (c : Ctx) (d : BitVec 5) (x : RegVal) : (s.writeS c d x).blocks = s.blocks := modCrew_blocks s _ _
@[simp] theorem writeS_stageGroups (s : State) (c : Ctx) (d : BitVec 5) (x : RegVal) : (s.writeS c d x).stageGroups = s.stageGroups := modCrew_stageGroups s _ _
@[simp] theorem writeS_launches (s : State) (c : Ctx) (d : BitVec 5) (x : RegVal) : (s.writeS c d x).launches = s.launches := modCrew_launches s _ _
@[simp] theorem writeS_queues (s : State) (c : Ctx) (d : BitVec 5) (x : RegVal) : (s.writeS c d x).queues = s.queues := modCrew_queues s _ _
@[simp] theorem writeS_contexts (s : State) (c : Ctx) (d : BitVec 5) (x : RegVal) : (s.writeS c d x).contexts = s.contexts := modCrew_contexts s _ _
@[simp] theorem writeS_partitions (s : State) (c : Ctx) (d : BitVec 5) (x : RegVal) : (s.writeS c d x).partitions = s.partitions := modCrew_partitions s _ _
@[simp] theorem writeS_slices (s : State) (c : Ctx) (d : BitVec 5) (x : RegVal) : (s.writeS c d x).slices = s.slices := modCrew_slices s _ _
@[simp] theorem writeS_cores (s : State) (c : Ctx) (d : BitVec 5) (x : RegVal) : (s.writeS c d x).cores = s.cores := modCrew_cores s _ _
@[simp] theorem writeS_vault (s : State) (c : Ctx) (d : BitVec 5) (x : RegVal) : (s.writeS c d x).vault = s.vault := modCrew_vault s _ _
@[simp] theorem writeS_freezing (s : State) (c : Ctx) (d : BitVec 5) (x : RegVal) : (s.writeS c d x).freezing = s.freezing := modCrew_freezing s _ _
@[simp] theorem writeS_saved (s : State) (c : Ctx) (d : BitVec 5) (x : RegVal) : (s.writeS c d x).saved = s.saved := modCrew_saved s _ _
@[simp] theorem writeS_landUpds (s : State) (c : Ctx) (d : BitVec 5) (x : RegVal) : (s.writeS c d x).landUpds = s.landUpds := modCrew_landUpds s _ _
@[simp] theorem writeS_requests (s : State) (c : Ctx) (d : BitVec 5) (x : RegVal) : (s.writeS c d x).requests = s.requests := modCrew_requests s _ _
@[simp] theorem writeS_strays (s : State) (c : Ctx) (d : BitVec 5) (x : RegVal) : (s.writeS c d x).strays = s.strays := modCrew_strays s _ _
@[simp] theorem writeS_collectives (s : State) (c : Ctx) (d : BitVec 5) (x : RegVal) : (s.writeS c d x).collectives = s.collectives := modCrew_collectives s _ _
@[simp] theorem writeS_collCount (s : State) (c : Ctx) (d : BitVec 5) (x : RegVal) : (s.writeS c d x).collCount = s.collCount := modCrew_collCount s _ _
@[simp] theorem writeS_harbour (s : State) (c : Ctx) (d : BitVec 5) (x : RegVal) : (s.writeS c d x).harbour = s.harbour := modCrew_harbour s _ _
@[simp] theorem writeS_node (s : State) (c : Ctx) (d : BitVec 5) (x : RegVal) : (s.writeS c d x).node = s.node := modCrew_node s _ _
@[simp] theorem writeS_hostAnswer (s : State) (c : Ctx) (d : BitVec 5) (x : RegVal) : (s.writeS c d x).hostAnswer = s.hostAnswer := modCrew_hostAnswer s _ _
@[simp] theorem writeS_hostEp (s : State) (c : Ctx) (d : BitVec 5) (x : RegVal) : (s.writeS c d x).hostEp = s.hostEp := modCrew_hostEp s _ _
@[simp] theorem writeS_measAnswer (s : State) (c : Ctx) (d : BitVec 5) (x : RegVal) : (s.writeS c d x).measAnswer = s.measAnswer := modCrew_measAnswer s _ _
@[simp] theorem writeS_nextId (s : State) (c : Ctx) (d : BitVec 5) (x : RegVal) : (s.writeS c d x).nextId = s.nextId := modCrew_nextId s _ _
@[simp] theorem writeS_freeCtr (s : State) (c : Ctx) (d : BitVec 5) (x : RegVal) : (s.writeS c d x).freeCtr = s.freeCtr := modCrew_freeCtr s _ _

/-! ### pushWrite -/

@[simp] theorem pushWrite_agenda (s : State) (c : Ctx) (d : BitVec 6) (res : List (Nat × RegVal)) : (s.pushWrite c d res).agenda = s.agenda := modCrew_agenda s _ _
@[simp] theorem pushWrite_focus (s : State) (c : Ctx) (d : BitVec 6) (res : List (Nat × RegVal)) : (s.pushWrite c d res).focus = s.focus := modCrew_focus s _ _
@[simp] theorem pushWrite_blocks (s : State) (c : Ctx) (d : BitVec 6) (res : List (Nat × RegVal)) : (s.pushWrite c d res).blocks = s.blocks := modCrew_blocks s _ _
@[simp] theorem pushWrite_stageGroups (s : State) (c : Ctx) (d : BitVec 6) (res : List (Nat × RegVal)) : (s.pushWrite c d res).stageGroups = s.stageGroups := modCrew_stageGroups s _ _
@[simp] theorem pushWrite_launches (s : State) (c : Ctx) (d : BitVec 6) (res : List (Nat × RegVal)) : (s.pushWrite c d res).launches = s.launches := modCrew_launches s _ _
@[simp] theorem pushWrite_queues (s : State) (c : Ctx) (d : BitVec 6) (res : List (Nat × RegVal)) : (s.pushWrite c d res).queues = s.queues := modCrew_queues s _ _
@[simp] theorem pushWrite_contexts (s : State) (c : Ctx) (d : BitVec 6) (res : List (Nat × RegVal)) : (s.pushWrite c d res).contexts = s.contexts := modCrew_contexts s _ _
@[simp] theorem pushWrite_partitions (s : State) (c : Ctx) (d : BitVec 6) (res : List (Nat × RegVal)) : (s.pushWrite c d res).partitions = s.partitions := modCrew_partitions s _ _
@[simp] theorem pushWrite_slices (s : State) (c : Ctx) (d : BitVec 6) (res : List (Nat × RegVal)) : (s.pushWrite c d res).slices = s.slices := modCrew_slices s _ _
@[simp] theorem pushWrite_cores (s : State) (c : Ctx) (d : BitVec 6) (res : List (Nat × RegVal)) : (s.pushWrite c d res).cores = s.cores := modCrew_cores s _ _
@[simp] theorem pushWrite_vault (s : State) (c : Ctx) (d : BitVec 6) (res : List (Nat × RegVal)) : (s.pushWrite c d res).vault = s.vault := modCrew_vault s _ _
@[simp] theorem pushWrite_freezing (s : State) (c : Ctx) (d : BitVec 6) (res : List (Nat × RegVal)) : (s.pushWrite c d res).freezing = s.freezing := modCrew_freezing s _ _
@[simp] theorem pushWrite_saved (s : State) (c : Ctx) (d : BitVec 6) (res : List (Nat × RegVal)) : (s.pushWrite c d res).saved = s.saved := modCrew_saved s _ _
@[simp] theorem pushWrite_landUpds (s : State) (c : Ctx) (d : BitVec 6) (res : List (Nat × RegVal)) : (s.pushWrite c d res).landUpds = s.landUpds := modCrew_landUpds s _ _
@[simp] theorem pushWrite_requests (s : State) (c : Ctx) (d : BitVec 6) (res : List (Nat × RegVal)) : (s.pushWrite c d res).requests = s.requests := modCrew_requests s _ _
@[simp] theorem pushWrite_strays (s : State) (c : Ctx) (d : BitVec 6) (res : List (Nat × RegVal)) : (s.pushWrite c d res).strays = s.strays := modCrew_strays s _ _
@[simp] theorem pushWrite_collectives (s : State) (c : Ctx) (d : BitVec 6) (res : List (Nat × RegVal)) : (s.pushWrite c d res).collectives = s.collectives := modCrew_collectives s _ _
@[simp] theorem pushWrite_collCount (s : State) (c : Ctx) (d : BitVec 6) (res : List (Nat × RegVal)) : (s.pushWrite c d res).collCount = s.collCount := modCrew_collCount s _ _
@[simp] theorem pushWrite_harbour (s : State) (c : Ctx) (d : BitVec 6) (res : List (Nat × RegVal)) : (s.pushWrite c d res).harbour = s.harbour := modCrew_harbour s _ _
@[simp] theorem pushWrite_node (s : State) (c : Ctx) (d : BitVec 6) (res : List (Nat × RegVal)) : (s.pushWrite c d res).node = s.node := modCrew_node s _ _
@[simp] theorem pushWrite_hostAnswer (s : State) (c : Ctx) (d : BitVec 6) (res : List (Nat × RegVal)) : (s.pushWrite c d res).hostAnswer = s.hostAnswer := modCrew_hostAnswer s _ _
@[simp] theorem pushWrite_hostEp (s : State) (c : Ctx) (d : BitVec 6) (res : List (Nat × RegVal)) : (s.pushWrite c d res).hostEp = s.hostEp := modCrew_hostEp s _ _
@[simp] theorem pushWrite_measAnswer (s : State) (c : Ctx) (d : BitVec 6) (res : List (Nat × RegVal)) : (s.pushWrite c d res).measAnswer = s.measAnswer := modCrew_measAnswer s _ _
@[simp] theorem pushWrite_nextId (s : State) (c : Ctx) (d : BitVec 6) (res : List (Nat × RegVal)) : (s.pushWrite c d res).nextId = s.nextId := modCrew_nextId s _ _
@[simp] theorem pushWrite_freeCtr (s : State) (c : Ctx) (d : BitVec 6) (res : List (Nat × RegVal)) : (s.pushWrite c d res).freeCtr = s.freeCtr := modCrew_freeCtr s _ _

/-! ### writeP -/

@[simp] theorem writeP_agenda (s : State) (c : Ctx) (p : Nat) (res : List (Nat × Bool)) : (s.writeP c p res).agenda = s.agenda := modCrew_agenda s _ _
@[simp] theorem writeP_focus (s : State) (c : Ctx) (p : Nat) (res : List (Nat × Bool)) : (s.writeP c p res).focus = s.focus := modCrew_focus s _ _
@[simp] theorem writeP_blocks (s : State) (c : Ctx) (p : Nat) (res : List (Nat × Bool)) : (s.writeP c p res).blocks = s.blocks := modCrew_blocks s _ _
@[simp] theorem writeP_stageGroups (s : State) (c : Ctx) (p : Nat) (res : List (Nat × Bool)) : (s.writeP c p res).stageGroups = s.stageGroups := modCrew_stageGroups s _ _
@[simp] theorem writeP_launches (s : State) (c : Ctx) (p : Nat) (res : List (Nat × Bool)) : (s.writeP c p res).launches = s.launches := modCrew_launches s _ _
@[simp] theorem writeP_queues (s : State) (c : Ctx) (p : Nat) (res : List (Nat × Bool)) : (s.writeP c p res).queues = s.queues := modCrew_queues s _ _
@[simp] theorem writeP_contexts (s : State) (c : Ctx) (p : Nat) (res : List (Nat × Bool)) : (s.writeP c p res).contexts = s.contexts := modCrew_contexts s _ _
@[simp] theorem writeP_partitions (s : State) (c : Ctx) (p : Nat) (res : List (Nat × Bool)) : (s.writeP c p res).partitions = s.partitions := modCrew_partitions s _ _
@[simp] theorem writeP_slices (s : State) (c : Ctx) (p : Nat) (res : List (Nat × Bool)) : (s.writeP c p res).slices = s.slices := modCrew_slices s _ _
@[simp] theorem writeP_cores (s : State) (c : Ctx) (p : Nat) (res : List (Nat × Bool)) : (s.writeP c p res).cores = s.cores := modCrew_cores s _ _
@[simp] theorem writeP_vault (s : State) (c : Ctx) (p : Nat) (res : List (Nat × Bool)) : (s.writeP c p res).vault = s.vault := modCrew_vault s _ _
@[simp] theorem writeP_freezing (s : State) (c : Ctx) (p : Nat) (res : List (Nat × Bool)) : (s.writeP c p res).freezing = s.freezing := modCrew_freezing s _ _
@[simp] theorem writeP_saved (s : State) (c : Ctx) (p : Nat) (res : List (Nat × Bool)) : (s.writeP c p res).saved = s.saved := modCrew_saved s _ _
@[simp] theorem writeP_landUpds (s : State) (c : Ctx) (p : Nat) (res : List (Nat × Bool)) : (s.writeP c p res).landUpds = s.landUpds := modCrew_landUpds s _ _
@[simp] theorem writeP_requests (s : State) (c : Ctx) (p : Nat) (res : List (Nat × Bool)) : (s.writeP c p res).requests = s.requests := modCrew_requests s _ _
@[simp] theorem writeP_strays (s : State) (c : Ctx) (p : Nat) (res : List (Nat × Bool)) : (s.writeP c p res).strays = s.strays := modCrew_strays s _ _
@[simp] theorem writeP_collectives (s : State) (c : Ctx) (p : Nat) (res : List (Nat × Bool)) : (s.writeP c p res).collectives = s.collectives := modCrew_collectives s _ _
@[simp] theorem writeP_collCount (s : State) (c : Ctx) (p : Nat) (res : List (Nat × Bool)) : (s.writeP c p res).collCount = s.collCount := modCrew_collCount s _ _
@[simp] theorem writeP_harbour (s : State) (c : Ctx) (p : Nat) (res : List (Nat × Bool)) : (s.writeP c p res).harbour = s.harbour := modCrew_harbour s _ _
@[simp] theorem writeP_node (s : State) (c : Ctx) (p : Nat) (res : List (Nat × Bool)) : (s.writeP c p res).node = s.node := modCrew_node s _ _
@[simp] theorem writeP_hostAnswer (s : State) (c : Ctx) (p : Nat) (res : List (Nat × Bool)) : (s.writeP c p res).hostAnswer = s.hostAnswer := modCrew_hostAnswer s _ _
@[simp] theorem writeP_hostEp (s : State) (c : Ctx) (p : Nat) (res : List (Nat × Bool)) : (s.writeP c p res).hostEp = s.hostEp := modCrew_hostEp s _ _
@[simp] theorem writeP_measAnswer (s : State) (c : Ctx) (p : Nat) (res : List (Nat × Bool)) : (s.writeP c p res).measAnswer = s.measAnswer := modCrew_measAnswer s _ _
@[simp] theorem writeP_nextId (s : State) (c : Ctx) (p : Nat) (res : List (Nat × Bool)) : (s.writeP c p res).nextId = s.nextId := modCrew_nextId s _ _
@[simp] theorem writeP_freeCtr (s : State) (c : Ctx) (p : Nat) (res : List (Nat × Bool)) : (s.writeP c p res).freeCtr = s.freeCtr := modCrew_freeCtr s _ _

/-! ### transfer -/

@[simp] theorem transfer_agenda (s : State) (c : Ctx) (k : TransferKind) : (s.transfer c k).agenda = s.agenda := modCrew_agenda s _ _
@[simp] theorem transfer_focus (s : State) (c : Ctx) (k : TransferKind) : (s.transfer c k).focus = s.focus := modCrew_focus s _ _
@[simp] theorem transfer_blocks (s : State) (c : Ctx) (k : TransferKind) : (s.transfer c k).blocks = s.blocks := modCrew_blocks s _ _
@[simp] theorem transfer_stageGroups (s : State) (c : Ctx) (k : TransferKind) : (s.transfer c k).stageGroups = s.stageGroups := modCrew_stageGroups s _ _
@[simp] theorem transfer_launches (s : State) (c : Ctx) (k : TransferKind) : (s.transfer c k).launches = s.launches := modCrew_launches s _ _
@[simp] theorem transfer_queues (s : State) (c : Ctx) (k : TransferKind) : (s.transfer c k).queues = s.queues := modCrew_queues s _ _
@[simp] theorem transfer_contexts (s : State) (c : Ctx) (k : TransferKind) : (s.transfer c k).contexts = s.contexts := modCrew_contexts s _ _
@[simp] theorem transfer_partitions (s : State) (c : Ctx) (k : TransferKind) : (s.transfer c k).partitions = s.partitions := modCrew_partitions s _ _
@[simp] theorem transfer_slices (s : State) (c : Ctx) (k : TransferKind) : (s.transfer c k).slices = s.slices := modCrew_slices s _ _
@[simp] theorem transfer_cores (s : State) (c : Ctx) (k : TransferKind) : (s.transfer c k).cores = s.cores := modCrew_cores s _ _
@[simp] theorem transfer_vault (s : State) (c : Ctx) (k : TransferKind) : (s.transfer c k).vault = s.vault := modCrew_vault s _ _
@[simp] theorem transfer_freezing (s : State) (c : Ctx) (k : TransferKind) : (s.transfer c k).freezing = s.freezing := modCrew_freezing s _ _
@[simp] theorem transfer_saved (s : State) (c : Ctx) (k : TransferKind) : (s.transfer c k).saved = s.saved := modCrew_saved s _ _
@[simp] theorem transfer_landUpds (s : State) (c : Ctx) (k : TransferKind) : (s.transfer c k).landUpds = s.landUpds := modCrew_landUpds s _ _
@[simp] theorem transfer_requests (s : State) (c : Ctx) (k : TransferKind) : (s.transfer c k).requests = s.requests := modCrew_requests s _ _
@[simp] theorem transfer_strays (s : State) (c : Ctx) (k : TransferKind) : (s.transfer c k).strays = s.strays := modCrew_strays s _ _
@[simp] theorem transfer_collectives (s : State) (c : Ctx) (k : TransferKind) : (s.transfer c k).collectives = s.collectives := modCrew_collectives s _ _
@[simp] theorem transfer_collCount (s : State) (c : Ctx) (k : TransferKind) : (s.transfer c k).collCount = s.collCount := modCrew_collCount s _ _
@[simp] theorem transfer_harbour (s : State) (c : Ctx) (k : TransferKind) : (s.transfer c k).harbour = s.harbour := modCrew_harbour s _ _
@[simp] theorem transfer_node (s : State) (c : Ctx) (k : TransferKind) : (s.transfer c k).node = s.node := modCrew_node s _ _
@[simp] theorem transfer_hostAnswer (s : State) (c : Ctx) (k : TransferKind) : (s.transfer c k).hostAnswer = s.hostAnswer := modCrew_hostAnswer s _ _
@[simp] theorem transfer_hostEp (s : State) (c : Ctx) (k : TransferKind) : (s.transfer c k).hostEp = s.hostEp := modCrew_hostEp s _ _
@[simp] theorem transfer_measAnswer (s : State) (c : Ctx) (k : TransferKind) : (s.transfer c k).measAnswer = s.measAnswer := modCrew_measAnswer s _ _
@[simp] theorem transfer_nextId (s : State) (c : Ctx) (k : TransferKind) : (s.transfer c k).nextId = s.nextId := modCrew_nextId s _ _
@[simp] theorem transfer_freeCtr (s : State) (c : Ctx) (k : TransferKind) : (s.transfer c k).freeCtr = s.freeCtr := modCrew_freeCtr s _ _

/-! ### mergeFlags -/

@[simp] theorem mergeFlags_agenda (s : State) (k : Nat) (f : Flags) : (s.mergeFlags k f).agenda = s.agenda := modCrew_agenda s k _
@[simp] theorem mergeFlags_focus (s : State) (k : Nat) (f : Flags) : (s.mergeFlags k f).focus = s.focus := modCrew_focus s k _
@[simp] theorem mergeFlags_blocks (s : State) (k : Nat) (f : Flags) : (s.mergeFlags k f).blocks = s.blocks := modCrew_blocks s k _
@[simp] theorem mergeFlags_stageGroups (s : State) (k : Nat) (f : Flags) : (s.mergeFlags k f).stageGroups = s.stageGroups := modCrew_stageGroups s k _
@[simp] theorem mergeFlags_launches (s : State) (k : Nat) (f : Flags) : (s.mergeFlags k f).launches = s.launches := modCrew_launches s k _
@[simp] theorem mergeFlags_queues (s : State) (k : Nat) (f : Flags) : (s.mergeFlags k f).queues = s.queues := modCrew_queues s k _
@[simp] theorem mergeFlags_contexts (s : State) (k : Nat) (f : Flags) : (s.mergeFlags k f).contexts = s.contexts := modCrew_contexts s k _
@[simp] theorem mergeFlags_partitions (s : State) (k : Nat) (f : Flags) : (s.mergeFlags k f).partitions = s.partitions := modCrew_partitions s k _
@[simp] theorem mergeFlags_slices (s : State) (k : Nat) (f : Flags) : (s.mergeFlags k f).slices = s.slices := modCrew_slices s k _
@[simp] theorem mergeFlags_cores (s : State) (k : Nat) (f : Flags) : (s.mergeFlags k f).cores = s.cores := modCrew_cores s k _
@[simp] theorem mergeFlags_vault (s : State) (k : Nat) (f : Flags) : (s.mergeFlags k f).vault = s.vault := modCrew_vault s k _
@[simp] theorem mergeFlags_freezing (s : State) (k : Nat) (f : Flags) : (s.mergeFlags k f).freezing = s.freezing := modCrew_freezing s k _
@[simp] theorem mergeFlags_saved (s : State) (k : Nat) (f : Flags) : (s.mergeFlags k f).saved = s.saved := modCrew_saved s k _
@[simp] theorem mergeFlags_landUpds (s : State) (k : Nat) (f : Flags) : (s.mergeFlags k f).landUpds = s.landUpds := modCrew_landUpds s k _
@[simp] theorem mergeFlags_requests (s : State) (k : Nat) (f : Flags) : (s.mergeFlags k f).requests = s.requests := modCrew_requests s k _
@[simp] theorem mergeFlags_strays (s : State) (k : Nat) (f : Flags) : (s.mergeFlags k f).strays = s.strays := modCrew_strays s k _
@[simp] theorem mergeFlags_collectives (s : State) (k : Nat) (f : Flags) : (s.mergeFlags k f).collectives = s.collectives := modCrew_collectives s k _
@[simp] theorem mergeFlags_collCount (s : State) (k : Nat) (f : Flags) : (s.mergeFlags k f).collCount = s.collCount := modCrew_collCount s k _
@[simp] theorem mergeFlags_harbour (s : State) (k : Nat) (f : Flags) : (s.mergeFlags k f).harbour = s.harbour := modCrew_harbour s k _
@[simp] theorem mergeFlags_node (s : State) (k : Nat) (f : Flags) : (s.mergeFlags k f).node = s.node := modCrew_node s k _
@[simp] theorem mergeFlags_hostAnswer (s : State) (k : Nat) (f : Flags) : (s.mergeFlags k f).hostAnswer = s.hostAnswer := modCrew_hostAnswer s k _
@[simp] theorem mergeFlags_hostEp (s : State) (k : Nat) (f : Flags) : (s.mergeFlags k f).hostEp = s.hostEp := modCrew_hostEp s k _
@[simp] theorem mergeFlags_measAnswer (s : State) (k : Nat) (f : Flags) : (s.mergeFlags k f).measAnswer = s.measAnswer := modCrew_measAnswer s k _
@[simp] theorem mergeFlags_nextId (s : State) (k : Nat) (f : Flags) : (s.mergeFlags k f).nextId = s.nextId := modCrew_nextId s k _
@[simp] theorem mergeFlags_freeCtr (s : State) (k : Nat) (f : Flags) : (s.mergeFlags k f).freeCtr = s.freeCtr := modCrew_freeCtr s k _

/-! ### writeGlobal -/

@[simp] theorem writeGlobal_agenda (s : State) (p a : Nat) (bs : List Byte) : (s.writeGlobal p a bs).agenda = s.agenda := modPartition_agenda s p _
@[simp] theorem writeGlobal_focus (s : State) (p a : Nat) (bs : List Byte) : (s.writeGlobal p a bs).focus = s.focus := modPartition_focus s p _
@[simp] theorem writeGlobal_crews (s : State) (p a : Nat) (bs : List Byte) : (s.writeGlobal p a bs).crews = s.crews := modPartition_crews s p _
@[simp] theorem writeGlobal_blocks (s : State) (p a : Nat) (bs : List Byte) : (s.writeGlobal p a bs).blocks = s.blocks := modPartition_blocks s p _
@[simp] theorem writeGlobal_stageGroups (s : State) (p a : Nat) (bs : List Byte) : (s.writeGlobal p a bs).stageGroups = s.stageGroups := modPartition_stageGroups s p _
@[simp] theorem writeGlobal_launches (s : State) (p a : Nat) (bs : List Byte) : (s.writeGlobal p a bs).launches = s.launches := modPartition_launches s p _
@[simp] theorem writeGlobal_queues (s : State) (p a : Nat) (bs : List Byte) : (s.writeGlobal p a bs).queues = s.queues := modPartition_queues s p _
@[simp] theorem writeGlobal_contexts (s : State) (p a : Nat) (bs : List Byte) : (s.writeGlobal p a bs).contexts = s.contexts := modPartition_contexts s p _
@[simp] theorem writeGlobal_slices (s : State) (p a : Nat) (bs : List Byte) : (s.writeGlobal p a bs).slices = s.slices := modPartition_slices s p _
@[simp] theorem writeGlobal_cores (s : State) (p a : Nat) (bs : List Byte) : (s.writeGlobal p a bs).cores = s.cores := modPartition_cores s p _
@[simp] theorem writeGlobal_vault (s : State) (p a : Nat) (bs : List Byte) : (s.writeGlobal p a bs).vault = s.vault := modPartition_vault s p _
@[simp] theorem writeGlobal_freezing (s : State) (p a : Nat) (bs : List Byte) : (s.writeGlobal p a bs).freezing = s.freezing := modPartition_freezing s p _
@[simp] theorem writeGlobal_saved (s : State) (p a : Nat) (bs : List Byte) : (s.writeGlobal p a bs).saved = s.saved := modPartition_saved s p _
@[simp] theorem writeGlobal_landUpds (s : State) (p a : Nat) (bs : List Byte) : (s.writeGlobal p a bs).landUpds = s.landUpds := modPartition_landUpds s p _
@[simp] theorem writeGlobal_requests (s : State) (p a : Nat) (bs : List Byte) : (s.writeGlobal p a bs).requests = s.requests := modPartition_requests s p _
@[simp] theorem writeGlobal_strays (s : State) (p a : Nat) (bs : List Byte) : (s.writeGlobal p a bs).strays = s.strays := modPartition_strays s p _
@[simp] theorem writeGlobal_collectives (s : State) (p a : Nat) (bs : List Byte) : (s.writeGlobal p a bs).collectives = s.collectives := modPartition_collectives s p _
@[simp] theorem writeGlobal_collCount (s : State) (p a : Nat) (bs : List Byte) : (s.writeGlobal p a bs).collCount = s.collCount := modPartition_collCount s p _
@[simp] theorem writeGlobal_harbour (s : State) (p a : Nat) (bs : List Byte) : (s.writeGlobal p a bs).harbour = s.harbour := modPartition_harbour s p _
@[simp] theorem writeGlobal_node (s : State) (p a : Nat) (bs : List Byte) : (s.writeGlobal p a bs).node = s.node := modPartition_node s p _
@[simp] theorem writeGlobal_hostAnswer (s : State) (p a : Nat) (bs : List Byte) : (s.writeGlobal p a bs).hostAnswer = s.hostAnswer := modPartition_hostAnswer s p _
@[simp] theorem writeGlobal_hostEp (s : State) (p a : Nat) (bs : List Byte) : (s.writeGlobal p a bs).hostEp = s.hostEp := modPartition_hostEp s p _
@[simp] theorem writeGlobal_measAnswer (s : State) (p a : Nat) (bs : List Byte) : (s.writeGlobal p a bs).measAnswer = s.measAnswer := modPartition_measAnswer s p _
@[simp] theorem writeGlobal_nextId (s : State) (p a : Nat) (bs : List Byte) : (s.writeGlobal p a bs).nextId = s.nextId := modPartition_nextId s p _
@[simp] theorem writeGlobal_freeCtr (s : State) (p a : Nat) (bs : List Byte) : (s.writeGlobal p a bs).freeCtr = s.freeCtr := modPartition_freeCtr s p _

end Sys2Proof.Laws
end

