-- ==== Sys2Proof/Laws/Issue.lean ====
section
/-! SUPPORT. What the execution of a word comes to: the lemmas through which a statement about a word becomes one about its body (wordBody). -/

namespace Sys2Proof.Laws

open Sys2Proof.Machine

theorem beginChain_partitions (s : State) (c : Ctx) : (s.beginChain c).partitions = s.partitions := by
  unfold State.beginChain
  split
  · exact modGrp_partitions s c _
  · rfl

/-- Executing a word is issuing it; an event is not a word. -/
theorem exec_word (i : Instr) (h : isEvent i = false) (s : State) : exec i s = issueWord i s := by
  cases i <;> first | rfl | exact absurd h (by simp [isEvent, encode])

/-- A word that stands ready issues: its body in the context whose waits are over decides. -/
theorem exec_ready {s : State} {i : Instr} {c : Ctx} (hr : Ready s i c) (hi : isEvent i = false) :
    exec i s = .next (match wordResult i c.go (s.atEffect i c) with
      | .wait w => (if c.grp.snap.isSome then s else s.beginChain c).park c i w
      | .trap t => (s.atEffect i c).raiseTrap c.cid c.grp.id t
      | .done t => s.behind t c) := by
  rw [exec_word i hi]
  simp only [issueWord, hr.here, hr.may, if_true, State.issueAt, State.atEffect, State.behind, Ctx.go]
  cases hs : c.grp.snap with
  | some r => simp only [Option.isSome_some, if_true, State.runWord] <;> rfl
  | none => simp only [Option.isSome_none, Bool.false_eq_true, if_false, hr.chain hs, hr.due hs, State.runWord] <;> rfl

/-- With every lane's check behind it, the result of a word outside a shadow pair is its body's. -/
theorem wordResult_alone {i : Instr} {c : Ctx} (s : State) (hw : i.wellFormed = true) (ha : c.crew.shadow = none)
    (hu : uniform i = true → c.active ≠ []) : wordResult i c.go s = wordBody i c.go s := by
  have hu' : (uniform i && c.active.isEmpty) = false := by
    cases h : uniform i with
    | false => rfl
    | true => simpa [List.isEmpty_iff] using hu h
  have hr : c.go.ready = true := rfl
  have hs : c.go.crew.shadow = none := ha
  have hl : c.go.active = c.active := rfl
  simp [wordResult, hw, hl, hu', hr, hs]

/-- A word whose body takes effect. -/
theorem runs_of_done {s : State} {i : Instr} {c : Ctx} {f : State → State} (hr : Ready s i c) (hi : isEvent i = false)
    (hu : uniform i = true → c.active ≠ []) (hb : wordBody i c.go (s.atEffect i c) = .done (f (s.atEffect i c))) : Runs i s c f := by
  rw [Runs, exec_ready hr hi, wordResult_alone _ hr.formed hr.alone hu, hb]

/-- A word whose body traps. -/
theorem traps_of_trap {s : State} {i : Instr} {c : Ctx} {t : TrapInfo} (hr : Ready s i c) (hi : isEvent i = false)
    (hu : uniform i = true → c.active ≠ []) (hb : wordBody i c.go (s.atEffect i c) = .trap t) : Traps i s c t := by
  rw [Traps, exec_ready hr hi, wordResult_alone _ hr.formed hr.alone hu, hb]

/-- A crew-uniform word with no active lane only passes (R111). -/
theorem runs_idle {s : State} {i : Instr} {c : Ctx} (hr : Ready s i c) (hi : isEvent i = false)
    (hu : uniform i = true) (ha : c.active = []) : Runs i s c id := by
  have hl : c.go.active = [] := ha
  rw [Runs, exec_ready hr hi]
  simp [wordResult, hr.formed, hu, hl]

end Sys2Proof.Laws
end

