-- ==== Sys2Proof/Laws/Memory.lean ====
section
/-! SUPPORT. The laws of tables and of memories in their canonical form. -/

namespace Sys2Proof.Laws

open Sys2Proof.Machine

/-! ### Tables -/

@[simp] theorem tget_tput_same {α : Type} (t : Table α) (k : Nat) (a : α) : tget (tput t k a) k = some a := by
  induction t with
  | nil => simp [tput, tget]
  | cons p t ih =>
    obtain ⟨j, b⟩ := p
    simp only [tput]
    split
    · simp [tget]
    · split
      · simp [tget]
      · have : j ≠ k := by omega
        simp [tget, this, ih]

@[simp] theorem tget_tput_other {α : Type} (t : Table α) (k j : Nat) (a : α) (h : j ≠ k) : tget (tput t k a) j = tget t j := by
  induction t with
  | nil => simp [tput, tget, Ne.symm h]
  | cons p t ih =>
    obtain ⟨i, b⟩ := p
    simp only [tput]
    split
    · simp [tget, Ne.symm h]
    · split
      · rename_i hk
        subst hk
        simp [tget, Ne.symm h]
      · simp only [tget]
        split <;> simp_all

@[simp] theorem tget_tdel_same {α : Type} (t : Table α) (k : Nat) : tget (tdel t k) k = none := by
  induction t with
  | nil => rfl
  | cons p t ih =>
    obtain ⟨j, b⟩ := p
    by_cases h : j = k
    · simpa [tdel, h] using ih
    · simpa [tdel, h, tget] using ih

@[simp] theorem tget_tdel_other {α : Type} (t : Table α) (k j : Nat) (h : j ≠ k) : tget (tdel t k) j = tget t j := by
  induction t with
  | nil => rfl
  | cons p t ih =>
    obtain ⟨i, b⟩ := p
    by_cases hk : i = k
    · have : i ≠ j := by omega
      simpa [tdel, hk, tget, hk ▸ this] using ih
    · by_cases hj : i = j
      · simp [tdel, tget, hj, h]
      · simpa [tdel, hk, tget, hj] using ih

/-! ### The canonical form -/

/-- A memory whose cells lie above k reads 0 at k and below. -/
theorem readByte_below {k : Nat} {m : Memory} (h : wfAbove k m = true) {a : Nat} (ha : a ≤ k) : readByte m a = 0 := by
  induction m generalizing k with
  | nil => rfl
  | cons p t ih =>
    obtain ⟨j, b⟩ := p
    simp only [wfAbove, Bool.and_eq_true, decide_eq_true_eq] at h
    have : j ≠ a := by omega
    simp only [readByte, this, if_false]
    exact ih h.2 (by omega)

theorem wfAbove_mono {k l : Nat} {m : Memory} (h : wfAbove l m = true) (hk : k ≤ l) : wfAbove k m = true := by
  cases m with
  | nil => rfl
  | cons p t =>
    obtain ⟨j, b⟩ := p
    simp only [wfAbove, Bool.and_eq_true, decide_eq_true_eq] at h ⊢
    exact ⟨⟨by omega, h.1.2⟩, h.2⟩

theorem wf_of_wfAbove {k : Nat} {m : Memory} (h : wfAbove k m = true) : m.wf = true := by
  cases m with
  | nil => rfl
  | cons p t =>
    obtain ⟨j, b⟩ := p
    simp only [wfAbove, Bool.and_eq_true, Memory.wf] at h ⊢
    exact ⟨h.1.2, h.2⟩

theorem writeByte_wfAbove {k : Nat} {m : Memory} (h : wfAbove k m = true) (a : Nat) (ha : k < a) (v : Byte) :
    wfAbove k (writeByte m a v) = true := by
  induction m generalizing k with
  | nil =>
    simp only [writeByte]
    split
    · rfl
    · simp_all [wfAbove]
  | cons p t ih =>
    obtain ⟨j, b⟩ := p
    simp only [wfAbove, Bool.and_eq_true, decide_eq_true_eq] at h
    simp only [writeByte]
    split
    · split
      · simp_all [wfAbove]
      · simp_all [wfAbove]
    · split
      · split
        · exact wfAbove_mono h.2 (by omega)
        · rename_i hj hv
          subst hj
          simp_all [wfAbove]
      · simp only [wfAbove, Bool.and_eq_true, decide_eq_true_eq]
        exact ⟨h.1, ih h.2 (by omega)⟩

/-- Writing a byte keeps the canonical form. -/
theorem writeByte_wf {m : Memory} (h : m.wf = true) (a : Nat) (v : Byte) : (writeByte m a v).wf = true := by
  cases m with
  | nil =>
    simp only [writeByte]
    split
    · rfl
    · simp_all [Memory.wf, wfAbove]
  | cons p t =>
    obtain ⟨j, b⟩ := p
    simp only [Memory.wf, Bool.and_eq_true] at h
    simp only [writeByte]
    split
    · split
      · simp_all [Memory.wf]
      · simp_all [Memory.wf, wfAbove]
    · split
      · split
        · exact wf_of_wfAbove h.2
        · rename_i hj hv
          subst hj
          simp_all [Memory.wf]
      · simp only [Memory.wf, Bool.and_eq_true]
        exact ⟨h.1, writeByte_wfAbove h.2 a (by omega) v⟩

/-- Writing bytes keeps the canonical form. -/
theorem writeBytes_wf {m : Memory} (h : m.wf = true) (a : Nat) (bs : List Byte) : (writeBytes m a bs).wf = true := by
  induction bs generalizing m a with
  | nil => exact h
  | cons b bs ih => exact ih (writeByte_wf h a b) (a + 1)

theorem filter_wfAbove {k : Nat} {m : Memory} (h : wfAbove k m = true) (p : Host.Cell → Bool) : wfAbove k (m.filter p) = true := by
  induction m generalizing k with
  | nil => rfl
  | cons c t ih =>
    obtain ⟨j, b⟩ := c
    simp only [wfAbove, Bool.and_eq_true, decide_eq_true_eq] at h
    simp only [List.filter]
    split
    · simp only [wfAbove, Bool.and_eq_true, decide_eq_true_eq]
      exact ⟨h.1, ih h.2⟩
    · exact wfAbove_mono (ih h.2) (by omega)

/-- Clearing bytes keeps the canonical form. -/
theorem clearBytes_wf {m : Memory} (h : m.wf = true) (a n : Nat) : (clearBytes m a n).wf = true := by
  cases m with
  | nil => rfl
  | cons p t =>
    obtain ⟨j, b⟩ := p
    simp only [Memory.wf, Bool.and_eq_true] at h
    simp only [clearBytes, List.filter]
    split
    · simp only [Memory.wf, Bool.and_eq_true]
      exact ⟨h.1, filter_wfAbove h.2 _⟩
    · exact wf_of_wfAbove (filter_wfAbove h.2 _)

/-! ### Read after write -/

theorem readByte_writeByte_above {k : Nat} {m : Memory} (h : wfAbove k m = true) (a x : Nat) (v : Byte) :
    readByte (writeByte m a v) x = if x = a then v else readByte m x := by
  induction m generalizing k with
  | nil =>
    simp only [writeByte]
    split
    · rename_i hv
      subst hv
      simp [readByte]
    · simp only [readByte]
      split <;> split <;> simp_all
  | cons p t ih =>
    obtain ⟨j, b⟩ := p
    simp only [wfAbove, Bool.and_eq_true, decide_eq_true_eq] at h
    simp only [writeByte]
    split
    · rename_i hj
      split
      · rename_i hv
        subst hv
        split
        · rename_i hx
          subst hx
          have : j ≠ x := by omega
          simp only [readByte, this, if_false]
          exact readByte_below h.2 (by omega)
        · rfl
      · by_cases hx : x = a
        · subst hx
          simp only [readByte, if_true]
        · have hx' : ¬ a = x := fun e => hx e.symm
          simp only [readByte, hx, hx', if_false]
    · rename_i hlt
      split
      · rename_i hj
        subst hj
        split
        · rename_i hv
          subst hv
          split
          · rename_i hx
            subst hx
            exact readByte_below h.2 (by omega)
          · rename_i hx
            have : a ≠ x := fun e => hx e.symm
            simp only [readByte, this, if_false]
        · by_cases hx : x = a
          · subst hx
            simp only [readByte, if_true]
          · have hx' : ¬ a = x := fun e => hx e.symm
            simp only [readByte, hx, hx', if_false]
      · rename_i hne
        simp only [readByte]
        split
        · rename_i hx
          subst hx
          have hne' : ¬ j = a := fun e => hne e.symm
          simp only [hne', if_false]
        · exact ih h.2

/-- A byte of a canonical memory after a write: the written one at its address, the old one at every other. -/
theorem readByte_writeByte {m : Memory} (h : m.wf = true) (a x : Nat) (v : Byte) :
    readByte (writeByte m a v) x = if x = a then v else readByte m x := by
  cases m with
  | nil => exact readByte_writeByte_above (k := 0) rfl a x v
  | cons p t =>
    obtain ⟨j, b⟩ := p
    cases j with
    | succ j =>
      refine readByte_writeByte_above (k := j) ?_ a x v
      simp only [Memory.wf, Bool.and_eq_true] at h
      simp only [wfAbove, Bool.and_eq_true, decide_eq_true_eq]
      exact ⟨⟨by omega, h.1⟩, h.2⟩
    | zero =>
      simp only [Memory.wf, Bool.and_eq_true] at h
      have h0 : ¬ a < 0 := by omega
      simp only [writeByte, h0, if_false]
      split
      · rename_i ha
        subst ha
        split
        · rename_i hv
          subst hv
          split
          · rename_i hx
            subst hx
            exact readByte_below h.2 (Nat.le_refl 0)
          · rename_i hx
            have hx' : ¬ 0 = x := fun e => hx e.symm
            simp only [readByte, hx', if_false]
        · by_cases hx : x = 0
          · subst hx
            simp only [readByte, if_true]
          · have hx' : ¬ 0 = x := fun e => hx e.symm
            simp only [readByte, hx, hx', if_false]
      · rename_i ha
        simp only [readByte]
        split
        · rename_i hx
          subst hx
          have ha' : ¬ 0 = a := fun e => ha e.symm
          simp only [ha', if_false]
        · exact readByte_writeByte_above h.2 a x v

/-- Bytes outside a written range are unchanged. -/
theorem readByte_writeBytes_other {m : Memory} (h : m.wf = true) (a : Nat) (bs : List Byte) (x : Nat) (hx : x < a ∨ a + bs.length ≤ x) :
    readByte (writeBytes m a bs) x = readByte m x := by
  induction bs generalizing m a with
  | nil => rfl
  | cons b bs ih =>
    simp only [List.length_cons] at hx
    simp only [writeBytes]
    rw [ih (writeByte_wf h a b) (a + 1) (by omega), readByte_writeByte h]
    have : x ≠ a := by omega
    simp [this]

/-- Bytes read back where they were written. -/
theorem readBytes_writeBytes {m : Memory} (h : m.wf = true) (a : Nat) (bs : List Byte) : readBytes (writeBytes m a bs) a bs.length = bs := by
  induction bs generalizing m a with
  | nil => rfl
  | cons b bs ih =>
    simp only [List.length_cons, readBytes, writeBytes]
    rw [ih (writeByte_wf h a b), readByte_writeBytes_other (writeByte_wf h a b) (a + 1) bs a (by omega), readByte_writeByte h]
    simp

/-- In any list of cells, a write leaves the bytes at other addresses. -/
theorem readByte_writeByte_other (m : Memory) (a x : Nat) (v : Byte) (hx : x ≠ a) : readByte (writeByte m a v) x = readByte m x := by
  induction m with
  | nil =>
    simp only [writeByte]
    split
    · rfl
    · simp [readByte, Ne.symm hx]
  | cons p t ih =>
    obtain ⟨j, b⟩ := p
    simp only [writeByte]
    split
    · split
      · rfl
      · simp [readByte, Ne.symm hx]
    · split
      · rename_i hj
        subst hj
        split <;> simp [readByte, Ne.symm hx]
      · simp only [readByte]
        rw [ih]

/-- In any list of cells, a write of bytes leaves those outside its range. -/
theorem readByte_writeBytes_outside (m : Memory) (a : Nat) (bs : List Byte) (x : Nat) (hx : x < a ∨ a + bs.length ≤ x) :
    readByte (writeBytes m a bs) x = readByte m x := by
  induction bs generalizing m a with
  | nil => rfl
  | cons b bs ih =>
    simp only [List.length_cons] at hx
    simp only [writeBytes]
    rw [ih _ (a + 1) (by omega), readByte_writeByte_other _ _ _ _ (by omega)]

/-! ### Stores -/

theorem setBytes_wf {st : Store} (h : st.mem.wf = true) (a : Nat) (bs : List Byte) : (st.setBytes a bs).mem.wf = true := writeBytes_wf h a bs

theorem write_wf {st : Store} (h : st.mem.wf = true) (a : Nat) (bs : List Byte) : (st.write a bs).mem.wf = true := writeBytes_wf h a bs

theorem zeroRange_wf {st : Store} (h : st.mem.wf = true) (a n : Nat) : (st.zeroRange a n).mem.wf = true := clearBytes_wf h a n

theorem writeAll_wf {st : Store} (h : st.mem.wf = true) (ws : List (Nat × List Byte)) : (st.writeAll ws).mem.wf = true := by
  show (ws.foldl (fun st w => (st.setBytes w.1 w.2).dropChecks w.1 w.2.length) st).mem.wf = true
  induction ws generalizing st with
  | nil => exact h
  | cons w ws ih => exact ih (writeBytes_wf h w.1 w.2)

theorem writeElems_wf {st : Store} (h : st.mem.wf = true) (ws : List (Nat × List Byte)) (p : Bool) : (st.writeElems ws p).mem.wf = true := writeAll_wf h ws

/-- Several writes leave every byte outside all of them. -/
theorem readByte_writeAll_outside (st : Store) (ws : List (Nat × List Byte)) (x : Nat) (hx : ∀ w ∈ ws, x < w.1 ∨ w.1 + w.2.length ≤ x) :
    readByte (st.writeAll ws).mem x = readByte st.mem x := by
  show readByte (ws.foldl (fun st w => (st.setBytes w.1 w.2).dropChecks w.1 w.2.length) st).mem x = readByte st.mem x
  induction ws generalizing st with
  | nil => rfl
  | cons w ws ih =>
    rw [List.foldl_cons, ih _ fun u hu => hx u (List.mem_cons_of_mem _ hu)]
    exact readByte_writeBytes_outside st.mem w.1 w.2 x (hx w (List.mem_cons_self ..))

@[simp] theorem setBytes_mem (st : Store) (a : Nat) (bs : List Byte) : (st.setBytes a bs).mem = writeBytes st.mem a bs := rfl
@[simp] theorem write_mem (st : Store) (a : Nat) (bs : List Byte) : (st.write a bs).mem = writeBytes st.mem a bs := rfl
@[simp] theorem dropChecks_mem (st : Store) (a n : Nat) : (st.dropChecks a n).mem = st.mem := rfl
@[simp] theorem markPoison_mem (st : Store) (gs : List Nat) : (st.markPoison gs).mem = st.mem := rfl
@[simp] theorem fresh_mem (st : Store) (p : Nat → Bool) : (st.fresh p).mem = st.mem := rfl
@[simp] theorem setCheck_mem (st : Store) (k : Nat) : (st.setCheck k).mem = st.mem := rfl
@[simp] theorem detect_mem (st : Store) (g : Nat) : (st.detect g).mem = st.mem := rfl

end Sys2Proof.Laws
end

