-- ==== Sys2Proof/Laws/PerInstr.lean ====
section
/-! SUPPORT. One lemma per constructor of Instr: the decoder gives back what the encoder wrote. -/

set_option linter.unusedSimpArgs false

namespace Sys2Proof.Laws.RoundTrip

/-- What an instruction's word, where it has one, decodes to. -/
def Statement (i : Instr) : Prop := ∀ w : Word, encode i = some w → decode w = .ok i

/-- An instruction that has no word. -/
theorem noWord {i : Instr} (h : encode i = none) : Statement i := by
  intro w hw
  rw [h] at hw
  cases hw

theorem nop (c : BitVec 1) : Statement (.nop c) := by
  intro w h
  injection h with h
  subst h
  simp [decode, decodeCtl, field, extract_low, extract_high, extract_all, -BitVec.extractLsb'_toNat]

theorem trl (c : BitVec 1) (x : BitVec 6) (y : BitVec 6) (z : BitVec 6) : Statement (.trl c x y z) := by
  intro w h
  injection h with h
  subst h
  simp [decode, decodeCtl, field, extract_low, extract_high, extract_all, -BitVec.extractLsb'_toNat]

theorem grd (c : BitVec 1) (p : BitVec 3) (n : BitVec 1) (k : BitVec 3) : Statement (.grd c p n k) := by
  intro w h
  injection h with h
  subst h
  simp [decode, decodeCtl, field, extract_low, extract_high, extract_all, -BitVec.extractLsb'_toNat]

theorem waitc (c : BitVec 1) (l : BitVec 4) (s : BitVec 4) (y : BitVec 6) (t : BitVec 4) : Statement (.waitc c l s y t) := by
  intro w h
  injection h with h
  subst h
  simp [decode, decodeCtl, field, extract_low, extract_high, extract_all, -BitVec.extractLsb'_toNat]

theorem yield (c : BitVec 1) : Statement (.yield c) := by
  intro w h
  injection h with h
  subst h
  simp [decode, decodeCtl, field, extract_low, extract_high, extract_all, -BitVec.extractLsb'_toNat]

theorem exit (c : BitVec 1) : Statement (.exit c) := by
  intro w h
  injection h with h
  subst h
  simp [decode, decodeCtl, field, extract_low, extract_high, extract_all, -BitVec.extractLsb'_toNat]

theorem freeze (c : BitVec 1) (l : BitVec 2) : Statement (.freeze c l) := by
  intro w h
  injection h with h
  subst h
  simp [decode, decodeCtl, field, extract_low, extract_high, extract_all, -BitVec.extractLsb'_toNat]

theorem setrl (c : BitVec 1) (i : BitVec 21) : Statement (.setrl c i) := by
  intro w h
  injection h with h
  subst h
  simp [decode, decodeCtl, field, extract_low, extract_high, extract_all, -BitVec.extractLsb'_toNat]

theorem elect (c : BitVec 1) (p : BitVec 3) : Statement (.elect c p) := by
  intro w h
  injection h with h
  subst h
  simp [decode, decodeCtl, field, extract_low, extract_high, extract_all, -BitVec.extractLsb'_toNat]

theorem br (c : BitVec 1) (i : BitVec 25) : Statement (.br c i) := by
  intro w h
  injection h with h
  subst h
  simp [decode, decodeBr, field, extract_low, extract_high, extract_all, -BitVec.extractLsb'_toNat]

theorem brc (c : BitVec 1) (k : BitVec 3) (a : BitVec 5) (i : BitVec 17) : Statement (.brc c k a i) := by
  intro w h
  injection h with h
  subst h
  simp [decode, decodeBrc, field, extract_low, extract_high, extract_all, -BitVec.extractLsb'_toNat]

theorem brp (c : BitVec 1) (p : BitVec 3) (n : BitVec 1) (i : BitVec 21) : Statement (.brp c p n i) := by
  intro w h
  injection h with h
  subst h
  simp [decode, decodeBrp, field, extract_low, extract_high, extract_all, -BitVec.extractLsb'_toNat]

theorem call (c : BitVec 1) (i : BitVec 25) : Statement (.call c i) := by
  intro w h
  injection h with h
  subst h
  simp [decode, decodeCall, field, extract_low, extract_high, extract_all, -BitVec.extractLsb'_toNat]

theorem jmpi (c : BitVec 1) (a : BitVec 6) : Statement (.jmpi c a) := by
  intro w h
  injection h with h
  subst h
  simp [decode, decodeJmpr, field, extract_low, extract_high, extract_all, -BitVec.extractLsb'_toNat]

theorem ret (c : BitVec 1) : Statement (.ret c) := by
  intro w h
  injection h with h
  subst h
  simp [decode, decodeJmpr, field, extract_low, extract_high, extract_all, -BitVec.extractLsb'_toNat]

theorem jmpiL (c : BitVec 1) (a : BitVec 6) : Statement (.jmpiL c a) := by
  intro w h
  injection h with h
  subst h
  simp [decode, decodeJmpr, field, extract_low, extract_high, extract_all, -BitVec.extractLsb'_toNat]

theorem sadd (c : BitVec 1) (d : BitVec 5) (a : BitVec 5) (b : BitVec 5) : Statement (.sadd c d a b) := by
  intro w h
  injection h with h
  subst h
  simp [decode, decodeSalu, field, extract_low, extract_high, extract_all, -BitVec.extractLsb'_toNat]

theorem ssub (c : BitVec 1) (d : BitVec 5) (a : BitVec 5) (b : BitVec 5) : Statement (.ssub c d a b) := by
  intro w h
  injection h with h
  subst h
  simp [decode, decodeSalu, field, extract_low, extract_high, extract_all, -BitVec.extractLsb'_toNat]

theorem smul (c : BitVec 1) (d : BitVec 5) (a : BitVec 5) (b : BitVec 5) : Statement (.smul c d a b) := by
  intro w h
  injection h with h
  subst h
  simp [decode, decodeSalu, field, extract_low, extract_high, extract_all, -BitVec.extractLsb'_toNat]

theorem smulh (c : BitVec 1) (d : BitVec 5) (a : BitVec 5) (b : BitVec 5) : Statement (.smulh c d a b) := by
  intro w h
  injection h with h
  subst h
  simp [decode, decodeSalu, field, extract_low, extract_high, extract_all, -BitVec.extractLsb'_toNat]

theorem smulhn (c : BitVec 1) (d : BitVec 5) (a : BitVec 5) (b : BitVec 5) : Statement (.smulhn c d a b) := by
  intro w h
  injection h with h
  subst h
  simp [decode, decodeSalu, field, extract_low, extract_high, extract_all, -BitVec.extractLsb'_toNat]

theorem sand (c : BitVec 1) (d : BitVec 5) (a : BitVec 5) (b : BitVec 5) : Statement (.sand c d a b) := by
  intro w h
  injection h with h
  subst h
  simp [decode, decodeSalu, field, extract_low, extract_high, extract_all, -BitVec.extractLsb'_toNat]

theorem sor (c : BitVec 1) (d : BitVec 5) (a : BitVec 5) (b : BitVec 5) : Statement (.sor c d a b) := by
  intro w h
  injection h with h
  subst h
  simp [decode, decodeSalu, field, extract_low, extract_high, extract_all, -BitVec.extractLsb'_toNat]

theorem sxor (c : BitVec 1) (d : BitVec 5) (a : BitVec 5) (b : BitVec 5) : Statement (.sxor c d a b) := by
  intro w h
  injection h with h
  subst h
  simp [decode, decodeSalu, field, extract_low, extract_high, extract_all, -BitVec.extractLsb'_toNat]

theorem sshl (c : BitVec 1) (d : BitVec 5) (a : BitVec 5) (b : BitVec 5) : Statement (.sshl c d a b) := by
  intro w h
  injection h with h
  subst h
  simp [decode, decodeSalu, field, extract_low, extract_high, extract_all, -BitVec.extractLsb'_toNat]

theorem sshr (c : BitVec 1) (d : BitVec 5) (a : BitVec 5) (b : BitVec 5) : Statement (.sshr c d a b) := by
  intro w h
  injection h with h
  subst h
  simp [decode, decodeSalu, field, extract_low, extract_high, extract_all, -BitVec.extractLsb'_toNat]

theorem ssra (c : BitVec 1) (d : BitVec 5) (a : BitVec 5) (b : BitVec 5) : Statement (.ssra c d a b) := by
  intro w h
  injection h with h
  subst h
  simp [decode, decodeSalu, field, extract_low, extract_high, extract_all, -BitVec.extractLsb'_toNat]

theorem smin (c : BitVec 1) (d : BitVec 5) (a : BitVec 5) (b : BitVec 5) : Statement (.smin c d a b) := by
  intro w h
  injection h with h
  subst h
  simp [decode, decodeSalu, field, extract_low, extract_high, extract_all, -BitVec.extractLsb'_toNat]

theorem smax (c : BitVec 1) (d : BitVec 5) (a : BitVec 5) (b : BitVec 5) : Statement (.smax c d a b) := by
  intro w h
  injection h with h
  subst h
  simp [decode, decodeSalu, field, extract_low, extract_high, extract_all, -BitVec.extractLsb'_toNat]

theorem sminn (c : BitVec 1) (d : BitVec 5) (a : BitVec 5) (b : BitVec 5) : Statement (.sminn c d a b) := by
  intro w h
  injection h with h
  subst h
  simp [decode, decodeSalu, field, extract_low, extract_high, extract_all, -BitVec.extractLsb'_toNat]

theorem smaxn (c : BitVec 1) (d : BitVec 5) (a : BitVec 5) (b : BitVec 5) : Statement (.smaxn c d a b) := by
  intro w h
  injection h with h
  subst h
  simp [decode, decodeSalu, field, extract_low, extract_high, extract_all, -BitVec.extractLsb'_toNat]

theorem seq (c : BitVec 1) (d : BitVec 5) (a : BitVec 5) (b : BitVec 5) : Statement (.seq c d a b) := by
  intro w h
  injection h with h
  subst h
  simp [decode, decodeSalu, field, extract_low, extract_high, extract_all, -BitVec.extractLsb'_toNat]

theorem slt (c : BitVec 1) (d : BitVec 5) (a : BitVec 5) (b : BitVec 5) : Statement (.slt c d a b) := by
  intro w h
  injection h with h
  subst h
  simp [decode, decodeSalu, field, extract_low, extract_high, extract_all, -BitVec.extractLsb'_toNat]

theorem sltn (c : BitVec 1) (d : BitVec 5) (a : BitVec 5) (b : BitVec 5) : Statement (.sltn c d a b) := by
  intro w h
  injection h with h
  subst h
  simp [decode, decodeSalu, field, extract_low, extract_high, extract_all, -BitVec.extractLsb'_toNat]

theorem smov (c : BitVec 1) (d : BitVec 5) (a : BitVec 5) (t : BitVec 5) : Statement (.smov c d a t) := by
  intro w h
  injection h with h
  subst h
  simp [decode, decodeSalu, field, extract_low, extract_high, extract_all, -BitVec.extractLsb'_toNat]

theorem saddi (c : BitVec 1) (d : BitVec 5) (a : BitVec 5) (i : BitVec 12) : Statement (.saddi c d a i) := by
  intro w h
  injection h with h
  subst h
  simp [decode, decodeSalui, field, extract_low, extract_high, extract_all, -BitVec.extractLsb'_toNat]

theorem sandi (c : BitVec 1) (d : BitVec 5) (a : BitVec 5) (i : BitVec 12) : Statement (.sandi c d a i) := by
  intro w h
  injection h with h
  subst h
  simp [decode, decodeSalui, field, extract_low, extract_high, extract_all, -BitVec.extractLsb'_toNat]

theorem sori (c : BitVec 1) (d : BitVec 5) (a : BitVec 5) (i : BitVec 12) : Statement (.sori c d a i) := by
  intro w h
  injection h with h
  subst h
  simp [decode, decodeSalui, field, extract_low, extract_high, extract_all, -BitVec.extractLsb'_toNat]

theorem sxori (c : BitVec 1) (d : BitVec 5) (a : BitVec 5) (i : BitVec 12) : Statement (.sxori c d a i) := by
  intro w h
  injection h with h
  subst h
  simp [decode, decodeSalui, field, extract_low, extract_high, extract_all, -BitVec.extractLsb'_toNat]

theorem sshli (c : BitVec 1) (d : BitVec 5) (a : BitVec 5) (n : BitVec 6) : Statement (.sshli c d a n) := by
  intro w h
  injection h with h
  subst h
  simp [decode, decodeSalui, field, extract_low, extract_high, extract_all, -BitVec.extractLsb'_toNat]

theorem sshri (c : BitVec 1) (d : BitVec 5) (a : BitVec 5) (n : BitVec 6) : Statement (.sshri c d a n) := by
  intro w h
  injection h with h
  subst h
  simp [decode, decodeSalui, field, extract_low, extract_high, extract_all, -BitVec.extractLsb'_toNat]

theorem ssrai (c : BitVec 1) (d : BitVec 5) (a : BitVec 5) (n : BitVec 6) : Statement (.ssrai c d a n) := by
  intro w h
  injection h with h
  subst h
  simp [decode, decodeSalui, field, extract_low, extract_high, extract_all, -BitVec.extractLsb'_toNat]

theorem slti (c : BitVec 1) (d : BitVec 5) (a : BitVec 5) (i : BitVec 12) : Statement (.slti c d a i) := by
  intro w h
  injection h with h
  subst h
  simp [decode, decodeSalui, field, extract_low, extract_high, extract_all, -BitVec.extractLsb'_toNat]

theorem sli (c : BitVec 1) (d : BitVec 5) (i : BitVec 20) : Statement (.sli c d i) := by
  intro w h
  injection h with h
  subst h
  simp [decode, decodeSli, field, extract_low, extract_high, extract_all, -BitVec.extractLsb'_toNat]

theorem slih (c : BitVec 1) (d : BitVec 5) (i : BitVec 20) : Statement (.slih c d i) := by
  intro w h
  injection h with h
  subst h
  simp [decode, decodeSlih, field, extract_low, extract_high, extract_all, -BitVec.extractLsb'_toNat]

theorem vadd (c : BitVec 1) (d : BitVec 6) (a : BitVec 6) (b : BitVec 6) : Statement (.vadd c d a b) := by
  intro w h
  injection h with h
  subst h
  simp [decode, decodeVint, field, extract_low, extract_high, extract_all, -BitVec.extractLsb'_toNat]

theorem vsub (c : BitVec 1) (d : BitVec 6) (a : BitVec 6) (b : BitVec 6) : Statement (.vsub c d a b) := by
  intro w h
  injection h with h
  subst h
  simp [decode, decodeVint, field, extract_low, extract_high, extract_all, -BitVec.extractLsb'_toNat]

theorem vmul (c : BitVec 1) (d : BitVec 6) (a : BitVec 6) (b : BitVec 6) : Statement (.vmul c d a b) := by
  intro w h
  injection h with h
  subst h
  simp [decode, decodeVint, field, extract_low, extract_high, extract_all, -BitVec.extractLsb'_toNat]

theorem vmulh (c : BitVec 1) (d : BitVec 6) (a : BitVec 6) (b : BitVec 6) : Statement (.vmulh c d a b) := by
  intro w h
  injection h with h
  subst h
  simp [decode, decodeVint, field, extract_low, extract_high, extract_all, -BitVec.extractLsb'_toNat]

theorem vmulhn (c : BitVec 1) (d : BitVec 6) (a : BitVec 6) (b : BitVec 6) : Statement (.vmulhn c d a b) := by
  intro w h
  injection h with h
  subst h
  simp [decode, decodeVint, field, extract_low, extract_high, extract_all, -BitVec.extractLsb'_toNat]

theorem vand (c : BitVec 1) (d : BitVec 6) (a : BitVec 6) (b : BitVec 6) : Statement (.vand c d a b) := by
  intro w h
  injection h with h
  subst h
  simp [decode, decodeVint, field, extract_low, extract_high, extract_all, -BitVec.extractLsb'_toNat]

theorem vor (c : BitVec 1) (d : BitVec 6) (a : BitVec 6) (b : BitVec 6) : Statement (.vor c d a b) := by
  intro w h
  injection h with h
  subst h
  simp [decode, decodeVint, field, extract_low, extract_high, extract_all, -BitVec.extractLsb'_toNat]

theorem vxor (c : BitVec 1) (d : BitVec 6) (a : BitVec 6) (b : BitVec 6) : Statement (.vxor c d a b) := by
  intro w h
  injection h with h
  subst h
  simp [decode, decodeVint, field, extract_low, extract_high, extract_all, -BitVec.extractLsb'_toNat]

theorem vandn (c : BitVec 1) (d : BitVec 6) (a : BitVec 6) (b : BitVec 6) : Statement (.vandn c d a b) := by
  intro w h
  injection h with h
  subst h
  simp [decode, decodeVint, field, extract_low, extract_high, extract_all, -BitVec.extractLsb'_toNat]

theorem vshl (c : BitVec 1) (d : BitVec 6) (a : BitVec 6) (b : BitVec 6) : Statement (.vshl c d a b) := by
  intro w h
  injection h with h
  subst h
  simp [decode, decodeVint, field, extract_low, extract_high, extract_all, -BitVec.extractLsb'_toNat]

theorem vshr (c : BitVec 1) (d : BitVec 6) (a : BitVec 6) (b : BitVec 6) : Statement (.vshr c d a b) := by
  intro w h
  injection h with h
  subst h
  simp [decode, decodeVint, field, extract_low, extract_high, extract_all, -BitVec.extractLsb'_toNat]

theorem vsra (c : BitVec 1) (d : BitVec 6) (a : BitVec 6) (b : BitVec 6) : Statement (.vsra c d a b) := by
  intro w h
  injection h with h
  subst h
  simp [decode, decodeVint, field, extract_low, extract_high, extract_all, -BitVec.extractLsb'_toNat]

theorem vmin (c : BitVec 1) (d : BitVec 6) (a : BitVec 6) (b : BitVec 6) : Statement (.vmin c d a b) := by
  intro w h
  injection h with h
  subst h
  simp [decode, decodeVint, field, extract_low, extract_high, extract_all, -BitVec.extractLsb'_toNat]

theorem vmax (c : BitVec 1) (d : BitVec 6) (a : BitVec 6) (b : BitVec 6) : Statement (.vmax c d a b) := by
  intro w h
  injection h with h
  subst h
  simp [decode, decodeVint, field, extract_low, extract_high, extract_all, -BitVec.extractLsb'_toNat]

theorem vminn (c : BitVec 1) (d : BitVec 6) (a : BitVec 6) (b : BitVec 6) : Statement (.vminn c d a b) := by
  intro w h
  injection h with h
  subst h
  simp [decode, decodeVint, field, extract_low, extract_high, extract_all, -BitVec.extractLsb'_toNat]

theorem vmaxn (c : BitVec 1) (d : BitVec 6) (a : BitVec 6) (b : BitVec 6) : Statement (.vmaxn c d a b) := by
  intro w h
  injection h with h
  subst h
  simp [decode, decodeVint, field, extract_low, extract_high, extract_all, -BitVec.extractLsb'_toNat]

theorem vabs (c : BitVec 1) (d : BitVec 6) (a : BitVec 6) (b : BitVec 6) : Statement (.vabs c d a b) := by
  intro w h
  injection h with h
  subst h
  simp [decode, decodeVint, field, extract_low, extract_high, extract_all, -BitVec.extractLsb'_toNat]

theorem vneg (c : BitVec 1) (d : BitVec 6) (a : BitVec 6) (b : BitVec 6) : Statement (.vneg c d a b) := by
  intro w h
  injection h with h
  subst h
  simp [decode, decodeVint, field, extract_low, extract_high, extract_all, -BitVec.extractLsb'_toNat]

theorem vclz (c : BitVec 1) (d : BitVec 6) (a : BitVec 6) (b : BitVec 6) : Statement (.vclz c d a b) := by
  intro w h
  injection h with h
  subst h
  simp [decode, decodeVint, field, extract_low, extract_high, extract_all, -BitVec.extractLsb'_toNat]

theorem vpopc (c : BitVec 1) (d : BitVec 6) (a : BitVec 6) (b : BitVec 6) : Statement (.vpopc c d a b) := by
  intro w h
  injection h with h
  subst h
  simp [decode, decodeVint, field, extract_low, extract_high, extract_all, -BitVec.extractLsb'_toNat]

theorem vadds (c : BitVec 1) (d : BitVec 6) (a : BitVec 6) (b : BitVec 6) : Statement (.vadds c d a b) := by
  intro w h
  injection h with h
  subst h
  simp [decode, decodeVint, field, extract_low, extract_high, extract_all, -BitVec.extractLsb'_toNat]

theorem vsubs (c : BitVec 1) (d : BitVec 6) (a : BitVec 6) (b : BitVec 6) : Statement (.vsubs c d a b) := by
  intro w h
  injection h with h
  subst h
  simp [decode, decodeVint, field, extract_low, extract_high, extract_all, -BitVec.extractLsb'_toNat]

theorem vbfe (c : BitVec 1) (d : BitVec 6) (a : BitVec 6) (b : BitVec 6) : Statement (.vbfe c d a b) := by
  intro w h
  injection h with h
  subst h
  simp [decode, decodeVint, field, extract_low, extract_high, extract_all, -BitVec.extractLsb'_toNat]

theorem vbfi (c : BitVec 1) (d : BitVec 6) (a : BitVec 6) (b : BitVec 6) : Statement (.vbfi c d a b) := by
  intro w h
  injection h with h
  subst h
  simp [decode, decodeVint, field, extract_low, extract_high, extract_all, -BitVec.extractLsb'_toNat]

theorem vpack (c : BitVec 1) (d : BitVec 6) (a : BitVec 6) (b : BitVec 6) : Statement (.vpack c d a b) := by
  intro w h
  injection h with h
  subst h
  simp [decode, decodeVint, field, extract_low, extract_high, extract_all, -BitVec.extractLsb'_toNat]

theorem vunpk (c : BitVec 1) (d : BitVec 6) (a : BitVec 6) (b : BitVec 6) : Statement (.vunpk c d a b) := by
  intro w h
  injection h with h
  subst h
  simp [decode, decodeVint, field, extract_low, extract_high, extract_all, -BitVec.extractLsb'_toNat]

theorem vadda (c : BitVec 1) (d : BitVec 6) (a : BitVec 6) (b : BitVec 6) : Statement (.vadda c d a b) := by
  intro w h
  injection h with h
  subst h
  simp [decode, decodeVint, field, extract_low, extract_high, extract_all, -BitVec.extractLsb'_toNat]

theorem vaddi (c : BitVec 1) (d : BitVec 6) (a : BitVec 6) (i : BitVec 10) : Statement (.vaddi c d a i) := by
  intro w h
  injection h with h
  subst h
  simp [decode, decodeVinti, field, extract_low, extract_high, extract_all, -BitVec.extractLsb'_toNat]

theorem vandi (c : BitVec 1) (d : BitVec 6) (a : BitVec 6) (i : BitVec 10) : Statement (.vandi c d a i) := by
  intro w h
  injection h with h
  subst h
  simp [decode, decodeVinti, field, extract_low, extract_high, extract_all, -BitVec.extractLsb'_toNat]

theorem vori (c : BitVec 1) (d : BitVec 6) (a : BitVec 6) (i : BitVec 10) : Statement (.vori c d a i) := by
  intro w h
  injection h with h
  subst h
  simp [decode, decodeVinti, field, extract_low, extract_high, extract_all, -BitVec.extractLsb'_toNat]

theorem vxori (c : BitVec 1) (d : BitVec 6) (a : BitVec 6) (i : BitVec 10) : Statement (.vxori c d a i) := by
  intro w h
  injection h with h
  subst h
  simp [decode, decodeVinti, field, extract_low, extract_high, extract_all, -BitVec.extractLsb'_toNat]

theorem vshli (c : BitVec 1) (d : BitVec 6) (a : BitVec 6) (n : BitVec 6) : Statement (.vshli c d a n) := by
  intro w h
  injection h with h
  subst h
  simp [decode, decodeVinti, field, extract_low, extract_high, extract_all, -BitVec.extractLsb'_toNat]

theorem vshri (c : BitVec 1) (d : BitVec 6) (a : BitVec 6) (n : BitVec 6) : Statement (.vshri c d a n) := by
  intro w h
  injection h with h
  subst h
  simp [decode, decodeVinti, field, extract_low, extract_high, extract_all, -BitVec.extractLsb'_toNat]

theorem vsrai (c : BitVec 1) (d : BitVec 6) (a : BitVec 6) (n : BitVec 6) : Statement (.vsrai c d a n) := by
  intro w h
  injection h with h
  subst h
  simp [decode, decodeVinti, field, extract_low, extract_high, extract_all, -BitVec.extractLsb'_toNat]

theorem vmuli (c : BitVec 1) (d : BitVec 6) (a : BitVec 6) (i : BitVec 10) : Statement (.vmuli c d a i) := by
  intro w h
  injection h with h
  subst h
  simp [decode, decodeVinti, field, extract_low, extract_high, extract_all, -BitVec.extractLsb'_toNat]

theorem vli (c : BitVec 1) (d : BitVec 6) (t : BitVec 4) (i : BitVec 15) : Statement (.vli c d t i) := by
  intro w h
  injection h with h
  subst h
  simp [decode, decodeVli, field, extract_low, extract_high, extract_all, -BitVec.extractLsb'_toNat]

theorem fadd (c : BitVec 1) (d : BitVec 6) (a : BitVec 6) (b : BitVec 6) (r : BitVec 2) : Statement (.fadd c d a b r) := by
  intro w h
  injection h with h
  subst h
  simp [decode, decodeVfp, field, extract_low, extract_high, extract_all, -BitVec.extractLsb'_toNat]

theorem fsub (c : BitVec 1) (d : BitVec 6) (a : BitVec 6) (b : BitVec 6) (r : BitVec 2) : Statement (.fsub c d a b r) := by
  intro w h
  injection h with h
  subst h
  simp [decode, decodeVfp, field, extract_low, extract_high, extract_all, -BitVec.extractLsb'_toNat]

theorem fmul (c : BitVec 1) (d : BitVec 6) (a : BitVec 6) (b : BitVec 6) (r : BitVec 2) : Statement (.fmul c d a b r) := by
  intro w h
  injection h with h
  subst h
  simp [decode, decodeVfp, field, extract_low, extract_high, extract_all, -BitVec.extractLsb'_toNat]

theorem fdiv (c : BitVec 1) (d : BitVec 6) (a : BitVec 6) (b : BitVec 6) (r : BitVec 2) : Statement (.fdiv c d a b r) := by
  intro w h
  injection h with h
  subst h
  simp [decode, decodeVfp, field, extract_low, extract_high, extract_all, -BitVec.extractLsb'_toNat]

theorem fsqrt (c : BitVec 1) (d : BitVec 6) (a : BitVec 6) (b : BitVec 6) (r : BitVec 2) : Statement (.fsqrt c d a b r) := by
  intro w h
  injection h with h
  subst h
  simp [decode, decodeVfp, field, extract_low, extract_high, extract_all, -BitVec.extractLsb'_toNat]

theorem fmin (c : BitVec 1) (d : BitVec 6) (a : BitVec 6) (b : BitVec 6) : Statement (.fmin c d a b) := by
  intro w h
  injection h with h
  subst h
  simp [decode, decodeVfp, field, extract_low, extract_high, extract_all, -BitVec.extractLsb'_toNat]

theorem fmax (c : BitVec 1) (d : BitVec 6) (a : BitVec 6) (b : BitVec 6) : Statement (.fmax c d a b) := by
  intro w h
  injection h with h
  subst h
  simp [decode, decodeVfp, field, extract_low, extract_high, extract_all, -BitVec.extractLsb'_toNat]

theorem fabs (c : BitVec 1) (d : BitVec 6) (a : BitVec 6) (b : BitVec 6) : Statement (.fabs c d a b) := by
  intro w h
  injection h with h
  subst h
  simp [decode, decodeVfp, field, extract_low, extract_high, extract_all, -BitVec.extractLsb'_toNat]

theorem fneg (c : BitVec 1) (d : BitVec 6) (a : BitVec 6) (b : BitVec 6) : Statement (.fneg c d a b) := by
  intro w h
  injection h with h
  subst h
  simp [decode, decodeVfp, field, extract_low, extract_high, extract_all, -BitVec.extractLsb'_toNat]

theorem fcopysign (c : BitVec 1) (d : BitVec 6) (a : BitVec 6) (b : BitVec 6) : Statement (.fcopysign c d a b) := by
  intro w h
  injection h with h
  subst h
  simp [decode, decodeVfp, field, extract_low, extract_high, extract_all, -BitVec.extractLsb'_toNat]

theorem fminnum (c : BitVec 1) (d : BitVec 6) (a : BitVec 6) (b : BitVec 6) : Statement (.fminnum c d a b) := by
  intro w h
  injection h with h
  subst h
  simp [decode, decodeVfp, field, extract_low, extract_high, extract_all, -BitVec.extractLsb'_toNat]

theorem fmaxnum (c : BitVec 1) (d : BitVec 6) (a : BitVec 6) (b : BitVec 6) : Statement (.fmaxnum c d a b) := by
  intro w h
  injection h with h
  subst h
  simp [decode, decodeVfp, field, extract_low, extract_high, extract_all, -BitVec.extractLsb'_toNat]

theorem ffma (c : BitVec 1) (d : BitVec 6) (a : BitVec 6) (b : BitVec 6) (e : BitVec 6) (x : BitVec 1) : Statement (.ffma c d a b e x) := by
  intro w h
  injection h with h
  subst h
  simp [decode, decodeVfma, field, extract_low, extract_high, extract_all, -BitVec.extractLsb'_toNat]

theorem ffman (c : BitVec 1) (d : BitVec 6) (a : BitVec 6) (b : BitVec 6) (e : BitVec 6) (x : BitVec 1) : Statement (.ffman c d a b e x) := by
  intro w h
  injection h with h
  subst h
  simp [decode, decodeVfman, field, extract_low, extract_high, extract_all, -BitVec.extractLsb'_toNat]

theorem vimad (c : BitVec 1) (d : BitVec 6) (a : BitVec 6) (b : BitVec 6) (e : BitVec 6) (x : BitVec 1) : Statement (.vimad c d a b e x) := by
  intro w h
  injection h with h
  subst h
  simp [decode, decodeVimad, field, extract_low, extract_high, extract_all, -BitVec.extractLsb'_toNat]

theorem frcp (c : BitVec 1) (d : BitVec 6) (a : BitVec 6) (b : BitVec 6) : Statement (.frcp c d a b) := by
  intro w h
  injection h with h
  subst h
  simp [decode, decodeVsfu, field, extract_low, extract_high, extract_all, -BitVec.extractLsb'_toNat]

theorem frsq (c : BitVec 1) (d : BitVec 6) (a : BitVec 6) (b : BitVec 6) : Statement (.frsq c d a b) := by
  intro w h
  injection h with h
  subst h
  simp [decode, decodeVsfu, field, extract_low, extract_high, extract_all, -BitVec.extractLsb'_toNat]

theorem fexp2 (c : BitVec 1) (d : BitVec 6) (a : BitVec 6) (b : BitVec 6) : Statement (.fexp2 c d a b) := by
  intro w h
  injection h with h
  subst h
  simp [decode, decodeVsfu, field, extract_low, extract_high, extract_all, -BitVec.extractLsb'_toNat]

theorem flog2 (c : BitVec 1) (d : BitVec 6) (a : BitVec 6) (b : BitVec 6) : Statement (.flog2 c d a b) := by
  intro w h
  injection h with h
  subst h
  simp [decode, decodeVsfu, field, extract_low, extract_high, extract_all, -BitVec.extractLsb'_toNat]

theorem fsinpi (c : BitVec 1) (d : BitVec 6) (a : BitVec 6) (b : BitVec 6) : Statement (.fsinpi c d a b) := by
  intro w h
  injection h with h
  subst h
  simp [decode, decodeVsfu, field, extract_low, extract_high, extract_all, -BitVec.extractLsb'_toNat]

theorem fcospi (c : BitVec 1) (d : BitVec 6) (a : BitVec 6) (b : BitVec 6) : Statement (.fcospi c d a b) := by
  intro w h
  injection h with h
  subst h
  simp [decode, decodeVsfu, field, extract_low, extract_high, extract_all, -BitVec.extractLsb'_toNat]

theorem ftanh (c : BitVec 1) (d : BitVec 6) (a : BitVec 6) (b : BitVec 6) : Statement (.ftanh c d a b) := by
  intro w h
  injection h with h
  subst h
  simp [decode, decodeVsfu, field, extract_low, extract_high, extract_all, -BitVec.extractLsb'_toNat]

theorem vcvt (c : BitVec 1) (d : BitVec 6) (a : BitVec 6) (p : BitVec 3) (t : BitVec 4) (m : BitVec 2) (s : BitVec 1) : Statement (.vcvt c d a p t m s) := by
  intro w h
  injection h with h
  subst h
  simp [decode, decodeVcvt, field, extract_low, extract_high, extract_all, -BitVec.extractLsb'_toNat]

theorem vcmp (c : BitVec 1) (p : BitVec 3) (a : BitVec 6) (b : BitVec 6) (m : BitVec 2) (k : BitVec 4) : Statement (.vcmp c p a b m k) := by
  intro w h
  injection h with h
  subst h
  simp [decode, decodeVcmp, field, extract_low, extract_high, extract_all, -BitVec.extractLsb'_toNat]

theorem vsel (c : BitVec 1) (d : BitVec 6) (a : BitVec 6) (b : BitVec 6) (p : BitVec 3) (x : BitVec 1) : Statement (.vsel c d a b p x) := by
  intro w h
  injection h with h
  subst h
  simp [decode, decodeVsel, field, extract_low, extract_high, extract_all, -BitVec.extractLsb'_toNat]

theorem vdot (c : BitVec 1) (d : BitVec 6) (a : BitVec 6) (b : BitVec 6) (e : BitVec 6) (x : BitVec 1) : Statement (.vdot c d a b e x) := by
  intro w h
  injection h with h
  subst h
  simp [decode, decodeVdot, field, extract_low, extract_high, extract_all, -BitVec.extractLsb'_toNat]

theorem pand (c : BitVec 1) (d : BitVec 3) (a : BitVec 3) (b : BitVec 3) : Statement (.pand c d a b) := by
  intro w h
  injection h with h
  subst h
  simp [decode, decodePred, field, extract_low, extract_high, extract_all, -BitVec.extractLsb'_toNat]

theorem por (c : BitVec 1) (d : BitVec 3) (a : BitVec 3) (b : BitVec 3) : Statement (.por c d a b) := by
  intro w h
  injection h with h
  subst h
  simp [decode, decodePred, field, extract_low, extract_high, extract_all, -BitVec.extractLsb'_toNat]

theorem pxor (c : BitVec 1) (d : BitVec 3) (a : BitVec 3) (b : BitVec 3) : Statement (.pxor c d a b) := by
  intro w h
  injection h with h
  subst h
  simp [decode, decodePred, field, extract_low, extract_high, extract_all, -BitVec.extractLsb'_toNat]

theorem pandn (c : BitVec 1) (d : BitVec 3) (a : BitVec 3) (b : BitVec 3) : Statement (.pandn c d a b) := by
  intro w h
  injection h with h
  subst h
  simp [decode, decodePred, field, extract_low, extract_high, extract_all, -BitVec.extractLsb'_toNat]

theorem ptov (c : BitVec 1) (d : BitVec 6) : Statement (.ptov c d) := by
  intro w h
  injection h with h
  subst h
  simp [decode, decodePred, field, extract_low, extract_high, extract_all, -BitVec.extractLsb'_toNat]

theorem vtop (c : BitVec 1) (a : BitVec 6) : Statement (.vtop c a) := by
  intro w h
  injection h with h
  subst h
  simp [decode, decodePred, field, extract_low, extract_high, extract_all, -BitVec.extractLsb'_toNat]

theorem vtos (c : BitVec 1) (s : BitVec 5) (a : BitVec 6) : Statement (.vtos c s a) := by
  intro w h
  injection h with h
  subst h
  simp [decode, decodeXfer, field, extract_low, extract_high, extract_all, -BitVec.extractLsb'_toNat]

theorem stov (c : BitVec 1) (d : BitVec 6) (s : BitVec 5) : Statement (.stov c d s) := by
  intro w h
  injection h with h
  subst h
  simp [decode, decodeXfer, field, extract_low, extract_high, extract_all, -BitVec.extractLsb'_toNat]

theorem vretag (c : BitVec 1) (d : BitVec 6) (a : BitVec 6) (t : BitVec 4) : Statement (.vretag c d a t) := by
  intro w h
  injection h with h
  subst h
  simp [decode, decodeXfer, field, extract_low, extract_high, extract_all, -BitVec.extractLsb'_toNat]

theorem shfl (c : BitVec 1) (d : BitVec 6) (a : BitVec 6) (b : BitVec 6) (p : BitVec 1) (m : BitVec 3) : Statement (.shfl c d a b p m) := by
  intro w h
  injection h with h
  subst h
  simp [decode, decodeXlane, field, extract_low, extract_high, extract_all, -BitVec.extractLsb'_toNat]

theorem shflup (c : BitVec 1) (d : BitVec 6) (a : BitVec 6) (b : BitVec 6) (p : BitVec 1) (m : BitVec 3) : Statement (.shflup c d a b p m) := by
  intro w h
  injection h with h
  subst h
  simp [decode, decodeXlane, field, extract_low, extract_high, extract_all, -BitVec.extractLsb'_toNat]

theorem shfldn (c : BitVec 1) (d : BitVec 6) (a : BitVec 6) (b : BitVec 6) (p : BitVec 1) (m : BitVec 3) : Statement (.shfldn c d a b p m) := by
  intro w h
  injection h with h
  subst h
  simp [decode, decodeXlane, field, extract_low, extract_high, extract_all, -BitVec.extractLsb'_toNat]

theorem shflx (c : BitVec 1) (d : BitVec 6) (a : BitVec 6) (b : BitVec 6) (p : BitVec 1) (m : BitVec 3) : Statement (.shflx c d a b p m) := by
  intro w h
  injection h with h
  subst h
  simp [decode, decodeXlane, field, extract_low, extract_high, extract_all, -BitVec.extractLsb'_toNat]

theorem bcast (c : BitVec 1) (d : BitVec 6) (a : BitVec 6) (b : BitVec 6) (p : BitVec 1) (m : BitVec 3) : Statement (.bcast c d a b p m) := by
  intro w h
  injection h with h
  subst h
  simp [decode, decodeXlane, field, extract_low, extract_high, extract_all, -BitVec.extractLsb'_toNat]

theorem voteAny (c : BitVec 1) (d : BitVec 6) (p : BitVec 3) (m : BitVec 3) : Statement (.voteAny c d p m) := by
  intro w h
  injection h with h
  subst h
  simp [decode, decodeXred, field, extract_low, extract_high, extract_all, -BitVec.extractLsb'_toNat]

theorem voteAll (c : BitVec 1) (d : BitVec 6) (p : BitVec 3) (m : BitVec 3) : Statement (.voteAll c d p m) := by
  intro w h
  injection h with h
  subst h
  simp [decode, decodeXred, field, extract_low, extract_high, extract_all, -BitVec.extractLsb'_toNat]

theorem voteBal (c : BitVec 1) (d : BitVec 6) (p : BitVec 3) (m : BitVec 3) : Statement (.voteBal c d p m) := by
  intro w h
  injection h with h
  subst h
  simp [decode, decodeXred, field, extract_low, extract_high, extract_all, -BitVec.extractLsb'_toNat]

theorem voteEq (c : BitVec 1) (d : BitVec 6) (p : BitVec 3) (m : BitVec 3) : Statement (.voteEq c d p m) := by
  intro w h
  injection h with h
  subst h
  simp [decode, decodeXred, field, extract_low, extract_high, extract_all, -BitVec.extractLsb'_toNat]

theorem redadd (c : BitVec 1) (d : BitVec 6) (a : BitVec 6) (m : BitVec 3) : Statement (.redadd c d a m) := by
  intro w h
  injection h with h
  subst h
  simp [decode, decodeXred, field, extract_low, extract_high, extract_all, -BitVec.extractLsb'_toNat]

theorem redmin (c : BitVec 1) (d : BitVec 6) (a : BitVec 6) (m : BitVec 3) : Statement (.redmin c d a m) := by
  intro w h
  injection h with h
  subst h
  simp [decode, decodeXred, field, extract_low, extract_high, extract_all, -BitVec.extractLsb'_toNat]

theorem redmax (c : BitVec 1) (d : BitVec 6) (a : BitVec 6) (m : BitVec 3) : Statement (.redmax c d a m) := by
  intro w h
  injection h with h
  subst h
  simp [decode, decodeXred, field, extract_low, extract_high, extract_all, -BitVec.extractLsb'_toNat]

theorem redand (c : BitVec 1) (d : BitVec 6) (a : BitVec 6) (m : BitVec 3) : Statement (.redand c d a m) := by
  intro w h
  injection h with h
  subst h
  simp [decode, decodeXred, field, extract_low, extract_high, extract_all, -BitVec.extractLsb'_toNat]

theorem redor (c : BitVec 1) (d : BitVec 6) (a : BitVec 6) (m : BitVec 3) : Statement (.redor c d a m) := by
  intro w h
  injection h with h
  subst h
  simp [decode, decodeXred, field, extract_low, extract_high, extract_all, -BitVec.extractLsb'_toNat]

theorem redxor (c : BitVec 1) (d : BitVec 6) (a : BitVec 6) (m : BitVec 3) : Statement (.redxor c d a m) := by
  intro w h
  injection h with h
  subst h
  simp [decode, decodeXred, field, extract_low, extract_high, extract_all, -BitVec.extractLsb'_toNat]

theorem scanadd (c : BitVec 1) (d : BitVec 6) (a : BitVec 6) (m : BitVec 3) : Statement (.scanadd c d a m) := by
  intro w h
  injection h with h
  subst h
  simp [decode, decodeXred, field, extract_low, extract_high, extract_all, -BitVec.extractLsb'_toNat]

theorem scanaddx (c : BitVec 1) (d : BitVec 6) (a : BitVec 6) (m : BitVec 3) : Statement (.scanaddx c d a m) := by
  intro w h
  injection h with h
  subst h
  simp [decode, decodeXred, field, extract_low, extract_high, extract_all, -BitVec.extractLsb'_toNat]

theorem xmatch (c : BitVec 1) (d : BitVec 6) (a : BitVec 6) (m : BitVec 3) : Statement (.xmatch c d a m) := by
  intro w h
  injection h with h
  subst h
  simp [decode, decodeXred, field, extract_low, extract_high, extract_all, -BitVec.extractLsb'_toNat]

theorem ld (c : BitVec 1) (d : BitVec 6) (a : BitVec 6) (p : BitVec 2) (z : BitVec 3) (t : BitVec 4) (o : BitVec 2) (m : BitVec 2) : Statement (.ld c d a p z t o m) := by
  intro w h
  injection h with h
  subst h
  simp [decode, decodeLd, field, extract_low, extract_high, extract_all, -BitVec.extractLsb'_toNat]

theorem st (c : BitVec 1) (d : BitVec 6) (a : BitVec 6) (p : BitVec 2) (z : BitVec 3) (t : BitVec 4) (o : BitVec 2) (m : BitVec 2) : Statement (.st c d a p z t o m) := by
  intro w h
  injection h with h
  subst h
  simp [decode, decodeSt, field, extract_low, extract_high, extract_all, -BitVec.extractLsb'_toNat]

theorem atom (c : BitVec 1) (d : BitVec 6) (a : BitVec 6) (p : BitVec 2) (z : BitVec 3) (k : BitVec 4) (o : BitVec 2) (m : BitVec 2) : Statement (.atom c d a p z k o m) := by
  intro w h
  injection h with h
  subst h
  simp [decode, decodeAtom, field, extract_low, extract_high, extract_all, -BitVec.extractLsb'_toNat]

theorem fence (c : BitVec 1) (s : BitVec 3) : Statement (.fence c s) := by
  intro w h
  injection h with h
  subst h
  simp [decode, decodeFence, field, extract_low, extract_high, extract_all, -BitVec.extractLsb'_toNat]

theorem publish (c : BitVec 1) (b : BitVec 4) (t : BitVec 1) : Statement (.publish c b t) := by
  intro w h
  injection h with h
  subst h
  simp [decode, decodeFence, field, extract_low, extract_high, extract_all, -BitVec.extractLsb'_toNat]

theorem berthSet (c : BitVec 1) (b : BitVec 4) (a : BitVec 5) : Statement (.berthSet c b a) := by
  intro w h
  injection h with h
  subst h
  simp [decode, decodeFence, field, extract_low, extract_high, extract_all, -BitVec.extractLsb'_toNat]

theorem berthClr (c : BitVec 1) (b : BitVec 4) : Statement (.berthClr c b) := by
  intro w h
  injection h with h
  subst h
  simp [decode, decodeFence, field, extract_low, extract_high, extract_all, -BitVec.extractLsb'_toNat]

theorem ldt (c : BitVec 1) (t : BitVec 4) (a : BitVec 5) (b : BitVec 5) (p : BitVec 2) : Statement (.ldt c t a b p) := by
  intro w h
  injection h with h
  subst h
  simp [decode, decodeLdt, field, extract_low, extract_high, extract_all, -BitVec.extractLsb'_toNat]

theorem stt (c : BitVec 1) (t : BitVec 4) (a : BitVec 5) (b : BitVec 5) (p : BitVec 2) : Statement (.stt c t a b p) := by
  intro w h
  injection h with h
  subst h
  simp [decode, decodeStt, field, extract_low, extract_high, extract_all, -BitVec.extractLsb'_toNat]

theorem lndInit (c : BitVec 1) (a : BitVec 5) (b : BitVec 5) (s : BitVec 3) : Statement (.lndInit c a b s) := by
  intro w h
  injection h with h
  subst h
  simp [decode, decodeLnd, field, extract_low, extract_high, extract_all, -BitVec.extractLsb'_toNat]

theorem lndExpectIn (c : BitVec 1) (a : BitVec 5) (b : BitVec 5) (s : BitVec 3) : Statement (.lndExpectIn c a b s) := by
  intro w h
  injection h with h
  subst h
  simp [decode, decodeLnd, field, extract_low, extract_high, extract_all, -BitVec.extractLsb'_toNat]

theorem lndExpectOut (c : BitVec 1) (a : BitVec 5) (b : BitVec 5) (s : BitVec 3) : Statement (.lndExpectOut c a b s) := by
  intro w h
  injection h with h
  subst h
  simp [decode, decodeLnd, field, extract_low, extract_high, extract_all, -BitVec.extractLsb'_toNat]

theorem lndArrive (c : BitVec 1) (d : BitVec 5) (a : BitVec 5) (s : BitVec 3) : Statement (.lndArrive c d a s) := by
  intro w h
  injection h with h
  subst h
  simp [decode, decodeLnd, field, extract_low, extract_high, extract_all, -BitVec.extractLsb'_toNat]

theorem lndWait (c : BitVec 1) (a : BitVec 5) (b : BitVec 5) (s : BitVec 3) : Statement (.lndWait c a b s) := by
  intro w h
  injection h with h
  subst h
  simp [decode, decodeLnd, field, extract_low, extract_high, extract_all, -BitVec.extractLsb'_toNat]

theorem lndTest (c : BitVec 1) (d : BitVec 5) (a : BitVec 5) (s : BitVec 3) : Statement (.lndTest c d a s) := by
  intro w h
  injection h with h
  subst h
  simp [decode, decodeLnd, field, extract_low, extract_high, extract_all, -BitVec.extractLsb'_toNat]

theorem strmSet (c : BitVec 1) (a : BitVec 5) (q : BitVec 2) : Statement (.strmSet c a q) := by
  intro w h
  injection h with h
  subst h
  simp [decode, decodeStrm, field, extract_low, extract_high, extract_all, -BitVec.extractLsb'_toNat]

theorem strmStop (c : BitVec 1) (q : BitVec 2) : Statement (.strmStop c q) := by
  intro w h
  injection h with h
  subst h
  simp [decode, decodeStrm, field, extract_low, extract_high, extract_all, -BitVec.extractLsb'_toNat]

theorem fcopy (c : BitVec 1) (d : BitVec 5) (a : BitVec 5) (b : BitVec 5) (l : BitVec 1) : Statement (.fcopy c d a b l) := by
  intro w h
  injection h with h
  subst h
  simp [decode, decodeFcopy, field, extract_low, extract_high, extract_all, -BitVec.extractLsb'_toNat]

theorem fgath (c : BitVec 1) (d : BitVec 5) (a : BitVec 5) (b : BitVec 5) (l : BitVec 1) : Statement (.fgath c d a b l) := by
  intro w h
  injection h with h
  subst h
  simp [decode, decodeFgath, field, extract_low, extract_high, extract_all, -BitVec.extractLsb'_toNat]

theorem fscat (c : BitVec 1) (d : BitVec 5) (a : BitVec 5) (b : BitVec 5) (l : BitVec 1) : Statement (.fscat c d a b l) := by
  intro w h
  injection h with h
  subst h
  simp [decode, decodeFgath, field, extract_low, extract_high, extract_all, -BitVec.extractLsb'_toNat]

theorem fatom (c : BitVec 1) (d : BitVec 5) (a : BitVec 5) (b : BitVec 5) (l : BitVec 1) : Statement (.fatom c d a b l) := by
  intro w h
  injection h with h
  subst h
  simp [decode, decodeFatom, field, extract_low, extract_high, extract_all, -BitVec.extractLsb'_toNat]

theorem fput (c : BitVec 1) (d : BitVec 5) (a : BitVec 5) (b : BitVec 5) (l : BitVec 1) : Statement (.fput c d a b l) := by
  intro w h
  injection h with h
  subst h
  simp [decode, decodeFput, field, extract_low, extract_high, extract_all, -BitVec.extractLsb'_toNat]

theorem fputs (c : BitVec 1) (d : BitVec 5) (a : BitVec 5) (b : BitVec 5) (l : BitVec 1) : Statement (.fputs c d a b l) := by
  intro w h
  injection h with h
  subst h
  simp [decode, decodeFput, field, extract_low, extract_high, extract_all, -BitVec.extractLsb'_toNat]

theorem fget (c : BitVec 1) (d : BitVec 5) (a : BitVec 5) (b : BitVec 5) (l : BitVec 1) : Statement (.fget c d a b l) := by
  intro w h
  injection h with h
  subst h
  simp [decode, decodeFput, field, extract_low, extract_high, extract_all, -BitVec.extractLsb'_toNat]

theorem collAllred (c : BitVec 1) (d : BitVec 5) (a : BitVec 5) (b : BitVec 5) (l : BitVec 1) : Statement (.collAllred c d a b l) := by
  intro w h
  injection h with h
  subst h
  simp [decode, decodeColl, field, extract_low, extract_high, extract_all, -BitVec.extractLsb'_toNat]

theorem collAllgath (c : BitVec 1) (d : BitVec 5) (a : BitVec 5) (b : BitVec 5) (l : BitVec 1) : Statement (.collAllgath c d a b l) := by
  intro w h
  injection h with h
  subst h
  simp [decode, decodeColl, field, extract_low, extract_high, extract_all, -BitVec.extractLsb'_toNat]

theorem collRedscat (c : BitVec 1) (d : BitVec 5) (a : BitVec 5) (b : BitVec 5) (l : BitVec 1) : Statement (.collRedscat c d a b l) := by
  intro w h
  injection h with h
  subst h
  simp [decode, decodeColl, field, extract_low, extract_high, extract_all, -BitVec.extractLsb'_toNat]

theorem collBcast (c : BitVec 1) (d : BitVec 5) (a : BitVec 5) (b : BitVec 5) (l : BitVec 1) : Statement (.collBcast c d a b l) := by
  intro w h
  injection h with h
  subst h
  simp [decode, decodeColl, field, extract_low, extract_high, extract_all, -BitVec.extractLsb'_toNat]

theorem collCbar (c : BitVec 1) (d : BitVec 5) (a : BitVec 5) (b : BitVec 5) (l : BitVec 1) : Statement (.collCbar c d a b l) := by
  intro w h
  injection h with h
  subst h
  simp [decode, decodeColl, field, extract_low, extract_high, extract_all, -BitVec.extractLsb'_toNat]

theorem nmc (c : BitVec 1) (d : BitVec 5) (a : BitVec 5) (b : BitVec 5) : Statement (.nmc c d a b) := by
  intro w h
  injection h with h
  subst h
  simp [decode, decodeNmc, field, extract_low, extract_high, extract_all, -BitVec.extractLsb'_toNat]

theorem fpref (c : BitVec 1) (a : BitVec 5) (b : BitVec 5) (h : BitVec 2) : Statement (.fpref c a b h) := by
  intro w h
  injection h with h
  subst h
  simp [decode, decodeFctl, field, extract_low, extract_high, extract_all, -BitVec.extractLsb'_toNat]

theorem fcancel (c : BitVec 1) (d : BitVec 5) (a : BitVec 5) : Statement (.fcancel c d a) := by
  intro w h
  injection h with h
  subst h
  simp [decode, decodeFctl, field, extract_low, extract_high, extract_all, -BitVec.extractLsb'_toNat]

theorem mma (c : BitVec 1) (b : BitVec 6) (a : BitVec 4) (t : BitVec 4) (n : BitVec 6) (m : BitVec 2) (g : BitVec 1) (z : BitVec 1) (w : BitVec 1) : Statement (.mma c b a t n m g z w) := by
  intro w h
  injection h with h
  subst h
  simp [decode, decodeMma, field, extract_low, extract_high, extract_all, -BitVec.extractLsb'_toNat]

theorem movts (c : BitVec 1) (t : BitVec 4) (a : BitVec 5) : Statement (.movts c t a) := by
  intro w h
  injection h with h
  subst h
  simp [decode, decodeMctl, field, extract_low, extract_high, extract_all, -BitVec.extractLsb'_toNat]

theorem movst (c : BitVec 1) (d : BitVec 5) (t : BitVec 4) : Statement (.movst c d t) := by
  intro w h
  injection h with h
  subst h
  simp [decode, decodeMctl, field, extract_low, extract_high, extract_all, -BitVec.extractLsb'_toNat]

theorem accz (c : BitVec 1) (a : BitVec 5) : Statement (.accz c a) := by
  intro w h
  injection h with h
  subst h
  simp [decode, decodeMctl, field, extract_low, extract_high, extract_all, -BitVec.extractLsb'_toNat]

theorem mchk (c : BitVec 1) (d : BitVec 5) : Statement (.mchk c d) := by
  intro w h
  injection h with h
  subst h
  simp [decode, decodeMctl, field, extract_low, extract_high, extract_all, -BitVec.extractLsb'_toNat]

theorem tcvt (c : BitVec 1) (t : BitVec 4) (s : BitVec 1) (m : BitVec 2) (f : BitVec 4) : Statement (.tcvt c t s m f) := by
  intro w h
  injection h with h
  subst h
  simp [decode, decodeMctl, field, extract_low, extract_high, extract_all, -BitVec.extractLsb'_toNat]

theorem tzero (c : BitVec 1) (t : BitVec 4) : Statement (.tzero c t) := by
  intro w h
  injection h with h
  subst h
  simp [decode, decodeMctl, field, extract_low, extract_high, extract_all, -BitVec.extractLsb'_toNat]

theorem accst (c : BitVec 1) (d : BitVec 5) (a : BitVec 5) (b : BitVec 5) (x : BitVec 1) (y : BitVec 1) (q : BitVec 1) (p : BitVec 1) (u : BitVec 1) (f : BitVec 3) (t : BitVec 2) : Statement (.accst c d a b x y q p u f t) := by
  intro w h
  injection h with h
  subst h
  simp [decode, decodeAccst, field, extract_low, extract_high, extract_all, -BitVec.extractLsb'_toNat]

theorem accld (c : BitVec 1) (d : BitVec 5) (a : BitVec 5) (p : BitVec 1) : Statement (.accld c d a p) := by
  intro w h
  injection h with h
  subst h
  simp [decode, decodeAccld, field, extract_low, extract_high, extract_all, -BitVec.extractLsb'_toNat]

theorem trap (c : BitVec 1) (n : BitVec 12) : Statement (.trap c n) := by
  intro w h
  injection h with h
  subst h
  simp [decode, decodeSys, field, extract_low, extract_high, extract_all, -BitVec.extractLsb'_toNat]

theorem rteRetry (c : BitVec 1) : Statement (.rteRetry c) := by
  intro w h
  injection h with h
  subst h
  simp [decode, decodeSys, field, extract_low, extract_high, extract_all, -BitVec.extractLsb'_toNat]

theorem rteCommit (c : BitVec 1) : Statement (.rteCommit c) := by
  intro w h
  injection h with h
  subst h
  simp [decode, decodeSys, field, extract_low, extract_high, extract_all, -BitVec.extractLsb'_toNat]

theorem rteSkip (c : BitVec 1) : Statement (.rteSkip c) := by
  intro w h
  injection h with h
  subst h
  simp [decode, decodeSys, field, extract_low, extract_high, extract_all, -BitVec.extractLsb'_toNat]

theorem brk (c : BitVec 1) (n : BitVec 12) : Statement (.brk c n) := by
  intro w h
  injection h with h
  subst h
  simp [decode, decodeSys, field, extract_low, extract_high, extract_all, -BitVec.extractLsb'_toNat]

theorem csrr (c : BitVec 1) (d : BitVec 5) (r : BitVec 12) : Statement (.csrr c d r) := by
  intro w h
  injection h with h
  subst h
  simp [decode, decodeCsr, field, extract_low, extract_high, extract_all, -BitVec.extractLsb'_toNat]

theorem csrw (c : BitVec 1) (a : BitVec 5) (r : BitVec 12) : Statement (.csrw c a r) := by
  intro w h
  injection h with h
  subst h
  simp [decode, decodeCsr, field, extract_low, extract_high, extract_all, -BitVec.extractLsb'_toNat]

theorem csrs (c : BitVec 1) (a : BitVec 5) (r : BitVec 12) : Statement (.csrs c a r) := by
  intro w h
  injection h with h
  subst h
  simp [decode, decodeCsr, field, extract_low, extract_high, extract_all, -BitVec.extractLsb'_toNat]

theorem csrc (c : BitVec 1) (a : BitVec 5) (r : BitVec 12) : Statement (.csrc c a r) := by
  intro w h
  injection h with h
  subst h
  simp [decode, decodeCsr, field, extract_low, extract_high, extract_all, -BitVec.extractLsb'_toNat]

theorem launch (c : BitVec 1) (d : BitVec 5) (a : BitVec 5) (b : BitVec 5) : Statement (.launch c d a b) := by
  intro w h
  injection h with h
  subst h
  simp [decode, decodeLaunch, field, extract_low, extract_high, extract_all, -BitVec.extractLsb'_toNat]

theorem illegalOpcodeWord (w : Word) : Statement (.illegalOpcodeWord w) := noWord rfl

theorem issueOpportunity (r : StreamRef) : Statement (.issueOpportunity r) := noWord rfl

theorem runEnd : Statement .runEnd := noWord rfl

theorem loadReturn (crew : Nat) (lane : Nat) : Statement (.loadReturn crew lane) := noWord rfl

theorem storePerform (crew : Nat) : Statement (.storePerform crew) := noWord rfl

theorem vaultStoreHomeArrival (core : Nat) (n : Nat) : Statement (.vaultStoreHomeArrival core n) := noWord rfl

theorem atomHomeApply (crew : Nat) : Statement (.atomHomeApply crew) := noWord rfl

theorem atomReplyReturn (crew : Nat) (op : Nat) : Statement (.atomReplyReturn crew op) := noWord rfl

theorem landingUpdateApply (n : Nat) : Statement (.landingUpdateApply n) := noWord rfl

theorem streamElementFetch (crew : Nat) (k : Nat) (lane : Nat) : Statement (.streamElementFetch crew k lane) := noWord rfl

theorem tileOpStart (block : Nat) (side : Nat) : Statement (.tileOpStart block side) := noWord rfl

theorem mmaTwinEngage (block : Nat) : Statement (.mmaTwinEngage block) := noWord rfl

theorem tileOpComplete (block : Nat) (side : Nat) : Statement (.tileOpComplete block side) := noWord rfl

theorem engineTransferPart (core : Nat) (slot : Nat) (n : Nat) : Statement (.engineTransferPart core slot n) := noWord rfl

theorem faultQueueRecordWrite (core : Nat) (slot : Nat) : Statement (.faultQueueRecordWrite core slot) := noWord rfl

theorem fqResolveResume (slice : Nat) (ftag : Nat) : Statement (.fqResolveResume slice ftag) := noWord rfl

theorem fqResolveUnresolvable (slice : Nat) (ftag : Nat) : Statement (.fqResolveUnresolvable slice ftag) := noWord rfl

theorem engineCommandComplete (core : Nat) (slot : Nat) : Statement (.engineCommandComplete core slot) := noWord rfl

theorem fatomPerform (core : Nat) (slot : Nat) : Statement (.fatomPerform core slot) := noWord rfl

theorem nmcRun (core : Nat) (slot : Nat) : Statement (.nmcRun core slot) := noWord rfl

theorem cbarArrival (core : Nat) (slot : Nat) : Statement (.cbarArrival core slot) := noWord rfl

theorem ticketedRequestArrival (n : Nat) : Statement (.ticketedRequestArrival n) := noWord rfl

theorem fabricAckReceive (slice : Nat) (txn : Nat) (n : Nat) : Statement (.fabricAckReceive slice txn n) := noWord rfl

theorem handlerEntry (crew : Nat) : Statement (.handlerEntry crew) := noWord rfl

theorem deferredTrapEntry (crew : Nat) : Statement (.deferredTrapEntry crew) := noWord rfl

theorem rendezvousTimeout (crew : Nat) (group : Nat) : Statement (.rendezvousTimeout crew group) := noWord rfl

theorem templateCrewCreate (launch : Nat) (core : Nat) : Statement (.templateCrewCreate launch core) := noWord rfl

theorem imageTake (crew : Nat) : Statement (.imageTake crew) := noWord rfl

theorem doorbellWrite (srcSlice : Nat) (pid : Nat) (addr : DWord) (v : DWord) : Statement (.doorbellWrite srcSlice pid addr v) := noWord rfl

theorem recordAdmission (pid : Nat) (qnum : Nat) : Statement (.recordAdmission pid qnum) := noWord rfl

theorem blockAssign (slice : Nat) : Statement (.blockAssign slice) := noWord rfl

theorem blockDispatch (core : Nat) : Statement (.blockDispatch core) := noWord rfl

theorem cargoStaging (block : Nat) : Statement (.cargoStaging block) := noWord rfl

theorem blockWriteback (block : Nat) : Statement (.blockWriteback block) := noWord rfl

theorem blockRetirement (block : Nat) : Statement (.blockRetirement block) := noWord rfl

theorem launchCompletion (launch : Nat) : Statement (.launchCompletion launch) := noWord rfl

theorem schedQdesc (slice : Nat) (addr : DWord) : Statement (.schedQdesc slice addr) := noWord rfl

theorem schedQstop (slice : Nat) (v : DWord) : Statement (.schedQstop slice v) := noWord rfl

theorem balanceExchange (core : Nat) : Statement (.balanceExchange core) := noWord rfl

theorem quantumExpiry (block : Nat) : Statement (.quantumExpiry block) := noWord rfl

theorem candidateReserve (launch : Nat) (core : Nat) : Statement (.candidateReserve launch core) := noWord rfl

theorem freezeSignal (u : FreezeUnit) : Statement (.freezeSignal u) := noWord rfl

theorem capture (unit : Nat) : Statement (.capture unit) := noWord rfl

theorem contextSave (unit : Nat) : Statement (.contextSave unit) := noWord rfl

theorem restore (unit : Nat) (cores : List Nat) : Statement (.restore unit cores) := noWord rfl

theorem manifestReplayStep (crew : Nat) : Statement (.manifestReplayStep crew) := noWord rfl

theorem watchdog (core : Nat) : Statement (.watchdog core) := noWord rfl

theorem shadowCompare (crew : Nat) : Statement (.shadowCompare crew) := noWord rfl

theorem shadowTimeout (crew : Nat) : Statement (.shadowTimeout crew) := noWord rfl

theorem sactKillBlock (crew : Nat) : Statement (.sactKillBlock crew) := noWord rfl

theorem sactKillContext (crew : Nat) : Statement (.sactKillContext crew) := noWord rfl

theorem pwaysWrite (slice : Nat) (v : DWord) : Statement (.pwaysWrite slice v) := noWord rfl

theorem pwaysChangeComplete (slice : Nat) : Statement (.pwaysChangeComplete slice) := noWord rfl

theorem registerWrite (slice : Nat) (off : Nat) (v : DWord) : Statement (.registerWrite slice off v) := noWord rfl

theorem resizeMove (cmd : BitVec 128) : Statement (.resizeMove cmd) := noWord rfl

theorem interruptSourceEnable (pid : Nat) (src : SourceSetting) : Statement (.interruptSourceEnable pid src) := noWord rfl

theorem hostMemoryAccess (q : HostReq) : Statement (.hostMemoryAccess q) := noWord rfl

theorem pcieInboundWrite (q : HostReq) (ep : Bool) : Statement (.pcieInboundWrite q ep) := noWord rfl

theorem ideIntegrityFailure (pid : Nat) : Statement (.ideIntegrityFailure pid) := noWord rfl

theorem migrationCut (ctx : Nat) : Statement (.migrationCut ctx) := noWord rfl

theorem flitSend (slice : Nat) : Statement (.flitSend slice) := noWord rfl

theorem keyInstall (slice : Nat) (tx : Bool) (slot : Bool) (key : BitVec 256) (salt : BitVec 64) : Statement (.keyInstall slice tx slot key salt) := noWord rfl

theorem flitIdleReceive (slice : Nat) (f : Flit) : Statement (.flitIdleReceive slice f) := noWord rfl

theorem flitDataReceive (slice : Nat) (f : Flit) : Statement (.flitDataReceive slice f) := noWord rfl

theorem flitOpenReceive (slice : Nat) (f : Flit) : Statement (.flitOpenReceive slice f) := noWord rfl

theorem flitMarkerReceive (slice : Nat) (f : Flit) : Statement (.flitMarkerReceive slice f) := noWord rfl

theorem flitCutReceive (slice : Nat) (f : Flit) : Statement (.flitCutReceive slice f) := noWord rfl

theorem flitAbortReceive (slice : Nat) (f : Flit) : Statement (.flitAbortReceive slice f) := noWord rfl

theorem linkRetrain (slice : Nat) : Statement (.linkRetrain slice) := noWord rfl

theorem linkLaneLoss (slice : Nat) (trains : Bool) : Statement (.linkLaneLoss slice trains) := noWord rfl

theorem dieBridgeFailure (slices : List Nat) : Statement (.dieBridgeFailure slices) := noWord rfl

theorem sliceTrip (slice : Nat) (why : TripKind) : Statement (.sliceTrip slice why) := noWord rfl

theorem patrolRead (pid : Nat) (sector : Nat) : Statement (.patrolRead pid sector) := noWord rfl

theorem hbmtest (cmd : BitVec 128) (failRow : Option Nat) : Statement (.hbmtest cmd failRow) := noWord rfl

theorem logread (buf : DWord) (count : Nat) : Statement (.logread buf count) := noWord rfl

theorem powerPstate (cmd : BitVec 128) : Statement (.powerPstate cmd) := noWord rfl

theorem powerGate (cmd : BitVec 128) : Statement (.powerGate cmd) := noWord rfl

theorem fwstage (image : List Byte) : Statement (.fwstage image) := noWord rfl

theorem fwactivate : Statement .fwactivate := noWord rfl

theorem bind (pid : Nat) (addr : DWord) (session : Nat) (wrapped : WrappedKey) : Statement (.bind pid addr session wrapped) := noWord rfl

theorem release (pid : Nat) (handle : Word) : Statement (.release pid handle) := noWord rfl

theorem portmode (pid : Nat) (slice : Nat) (mode : Nat) : Statement (.portmode pid slice mode) := noWord rfl

theorem coldReset (t : BootTrial) : Statement (.coldReset t) := noWord rfl

theorem measurementRequest (port : Nat) (fn : Nat) (pid : Nat) (nonce : DWord) : Statement (.measurementRequest port fn pid nonce) := noWord rfl

theorem debugUnlock (port : Nat) (session : Nat) : Statement (.debugUnlock port session) := noWord rfl

theorem flitInvalidTypeReceive (slice : Nat) (f : Flit) : Statement (.flitInvalidTypeReceive slice f) := noWord rfl

theorem linkTrained (slice : Nat) (lanes : Nat) (keys : LinkKeys) : Statement (.linkTrained slice lanes keys) := noWord rfl

theorem spdmSessionEstablish (session : Nat) (pid : Nat) (tenant : Nat) (role : SpdmRole) : Statement (.spdmSessionEstablish session pid tenant role) := noWord rfl

theorem spdmSessionEnd (session : Nat) : Statement (.spdmSessionEnd session) := noWord rfl

theorem tdispRequest (pid : Nat) (r : TdispMove) : Statement (.tdispRequest pid r) := noWord rfl

theorem debugBlockResume (port : Nat) (block : Nat) : Statement (.debugBlockResume port block) := noWord rfl

theorem mailboxInvalidCode (owner : Bool) (pid : Nat) (code : Nat) : Statement (.mailboxInvalidCode owner pid code) := noWord rfl

theorem contextCreate (ctx : Nat) (pid : Nat) (node : Nat) (area : DWord) : Statement (.contextCreate ctx pid node area) := noWord rfl

theorem contextDestroy (ctx : Nat) : Statement (.contextDestroy ctx) := noWord rfl

theorem rosterEstablish (ctx : Nat) (own : Nat) (ranks : List RosterEntry) : Statement (.rosterEstablish ctx own ranks) := noWord rfl

theorem ethernetFrameReceive (slice : Nat) (frame : List Byte) : Statement (.ethernetFrameReceive slice frame) := noWord rfl

end Sys2Proof.Laws.RoundTrip
end

