-- ==== Sys2Proof/Tests/Slice0.lean ====
section
/-! SUPPORT. Tests: words written out from the spec's encodings and what they decode to, the checks of WellFormed, worked examples of the spec, and for every statement with hypotheses small states and operands that meet them. -/

set_option maxRecDepth 100000
set_option linter.unusedVariables false

open Sys2Proof Sys2Proof.Machine Sys2Proof.Statements

namespace Sys2Proof.Tests

set_option Elab.async false

/-! ### Small states -/

/-- A value of a tag. -/
def val (t : Tag) (n : Nat) : RegVal := { bits := BitVec.ofNat 64 n, tag := t }

/-- The machine with an instruction placed, and a, b and x in v1, v2, v3 of every lane and in s1, s2, s3. -/
def put (i : Instr) (a b x : RegVal) : State :=
  let s := State.reset.withFetchWord 32 ((encode i).getD 0).toNat
  s.modCrew 0 fun w => { w with regs := { w.regs with
    lanes := w.regs.lanes.map fun l => { l with v := ((l.v.setIfInBounds 1 a).setIfInBounds 2 b).setIfInBounds 3 x }
    s := ((w.regs.s.setIfInBounds 1 a).setIfInBounds 2 b).setIfInBounds 3 x } }

/-- The machine with an instruction placed, every register as at creation. -/
def at' (i : Instr) : State := put i {} {} {}

/-- The crew of a placed instruction changed. -/
def crew (s : State) (f : Crew → Crew) : State := s.modCrew 0 f

/-- The group of a placed instruction changed. -/
def group (s : State) (f : Group → Group) : State := s.modGroup 0 0 f

/-- The launch record of a placed instruction changed. -/
def record (s : State) (f : Record → Record) : State := s.modLaunch 0 fun l => { l with record := f l.record }

/-- The block of a placed instruction changed. -/
def block (s : State) (f : Block → Block) : State := s.modBlock 0 f

/-- With no active lane. -/
def idle (s : State) : State := group s fun g => { g with guards := [{ allow := 0, left := 1 }] }

/-- In handler mode, the supervisor's or the user's. -/
def handling (s : State) (sup : Bool) : State := crew s fun w => { w with handler := some {
  supervisor := sup, gmask := 0xFF, info := { cause := .trap, packet := 0, word := 0, mask := 0xFF }, runStart := 0, final := some 0, atEnd := false, guards := [], transfer := none, tileCode := 0, trailer := [] } }

/-- The context in which a placed instruction stands ready. -/
def readyCtx (s : State) (i : Instr) : Option Ctx := (s.ctx? i).filter fun c =>
  s.mayIssue c && c.crew.shadow.isNone && i.wellFormed && (c.grp.snap.isSome || (c.dueTrap.isNone && (s.chainWait c i).isNone))

/-- What readyCtx finds is ready in the sense of the statements. -/
theorem readyCtx_ready {s : State} {i : Instr} {c : Ctx} (h : readyCtx s i = some c) : Ready s i c := by
  simp only [readyCtx, Option.filter_eq_some_iff, Bool.and_eq_true, Bool.or_eq_true, Option.isNone_iff_eq_none, Option.isSome_iff_ne_none] at h
  obtain ⟨h1, ⟨⟨h2, h3⟩, h4⟩, h5⟩ := h
  exact ⟨h1, h2, h3, h4, fun n => (h5.resolve_left (fun k => k n)).1, fun n => (h5.resolve_left (fun k => k n)).2⟩

/-- The instruction stands ready, and its context and the state at its effect meet a condition. -/
def meets (s : State) (i : Instr) (h : State → Ctx → Bool) : Bool := (readyCtx s i).any fun c => h (s.atEffect i c) c

/-- A check succeeded with a result that meets a condition. -/
def okAnd {ε α : Type} (x : Except ε α) (p : α → Bool) : Bool := match x with
  | .ok a => p a
  | .error _ => false

/-- The operands of a vector word pass their checks. -/
def vecOk (d : Option (BitVec 6)) (codes : List (BitVec 6)) (tags : List RegVal → Option (Nat × Tag)) (t : State) (c : Ctx) : Bool :=
  okAnd (c.go.vecOperands t d codes tags) fun _ => true

/-- The outcome is a next state that meets a condition. -/
def next (o : Host.Outcome State Fault Refusal) (p : State → Bool) : Bool := match o with
  | .next s => p s
  | _ => false

/-- What a cross-lane word works on, as the statements say it. -/
def gathered (t : State) (c : Ctx) (codes : List (BitVec 6)) (p m : BitVec 3) : Option Gathered :=
  match c.go.operands t codes with
  | .error _ => none
  | .ok o =>
    let vals (l : Nat) : List RegVal := (tget o.vals l).getD []
    some {
      tile := tileWidth c.crew.width c.grp.tileCode
      mask := if m = 0 then maskOf (List.range c.crew.width) else (c.regs.getS false m.toNat).bits
      lanes := c.active, a := fun l => opnd (vals l) 0
      b := fun l => match (codes.drop 1).head?.filter fun k => (Src.ofCode k).isConst with
        | some k => mkVal .n64 (if Src.ofCode k = .one then 1 else 0)
        | none => opnd (vals l) 1
      p := fun l => (c.regs.lane l).getP p.toNat }

/-- The premises of Crosses. -/
def crosses (i : Instr) (s : State) (d : BitVec 6) (codes : List (BitVec 6)) (p m : BitVec 3) (ok : Ctx → Gathered → Bool) : Bool :=
  meets s i fun t c => c.grp.joined.isNone && !c.badDst (Dst.ofCode d) && (codes.all fun k => !c.badSrc (Src.ofCode k))
    && match gathered t c codes p m with
      | none => false
      | some g => (m == 0 || (c.regs.getS false m.toNat).tag == .m64) && decide (g.mask.toNat < 2 ^ c.crew.width) && (c.active.all fun l => g.mask.getLsbD l)
        && (c.handler || c.crew.groups.all fun h => h.id == c.grp.id || (c.crew.groupLanes h).all fun l => !g.mask.getLsbD l
            || (c.crew.groupLanes c.grp).all fun k => !g.mask.getLsbD k || l / g.tile != k / g.tile)
        && c.regs.fptrap == 0 && ok c g

/-- A mask of eight lanes in s3 and a second group of lanes 4 to 7 beside the placed one. -/
def twoGroups (s : State) : State := crew (group s fun g => { g with lanes := 0x0F }) fun w => { w with
  groups := w.groups ++ [({ id := 1, lanes := 0xF0, packet := 0, runStart := 0, final := some 0 } : Group)] }

/-- The state of a placed instruction with bytes stored in its scratchpad. -/
def withSpad (s : State) (off : Nat) (bs : List Byte) : State := block s fun b => { b with sides := b.sides.map fun x => { x with spad := { x.spad with mem := writeBytes x.spad.mem off bs } } }
/-- A vault page at virtual 0x100000, owned by the partition. -/
def withVault (s : State) (w : Bool) : State :=
  ({ s with partitions := s.partitions.map fun p => (p.1, { p.2 with pages := p.2.pages ++ [({ va := 0x100000, size := 65536, vault := true, pa := 0x20000, writable := w } : Page)] }) } : State).modSlice 0 fun x => { x with fwPid := 1 }

/-- The core of a placed instruction changed. -/
def core (s : State) (f : Core → Core) : State := s.modCore 0 f

/-- A block with four tiles of 4 KB, an accumulator of 64 KB, and the shape records given. -/
def tiled (s : State) (shapes : List DWord) : State :=
  record (block s fun b => { b with sides := b.sides.map fun x => { x with shapes := shapes } }) fun r => { r with tiles := shapes.length, tsize := 4, accu := 4 }

/-- A shape record: format, rows and columns, stored in a tile, with a scale tile (15 for none). -/
def shape (fmt rows cols stor scale : Nat) : DWord := BitVec.ofNat 64 (fmt + rows * 2 ^ 4 + cols * 2 ^ 13 + stor * 2 ^ 29 + scale * 2 ^ 33)

/-- A geometry word. -/
def geometry (base rows cols fmt pitch : Nat) : Nat := base + rows * 2 ^ 6 + cols * 2 ^ 15 + fmt * 2 ^ 26 + pitch * 2 ^ 28

/-- A descriptor that a word finds, with a condition on it. -/
def descOk (t : State) (c : Ctx) (a : BitVec 5) (n : Nat) (p : List Byte → Bool) : Bool := okAnd (t.descriptorAt c.go a n) fun x => p x.2

/-- The condition of Commands: a slot is free, and the horizon open. -/
def slotFree (t : State) (c : Ctx) : Bool := ((t.core c.crew.core).freeSlot c.cid).isSome && (c.crew.seq - c.crew.tickets.headD c.crew.seq).toNat < 2 ^ 15

/-- Premises common to the engine words: descGood, landFieldGood, rangeGood. -/
def descGoodB (t : State) (c : Ctx) (a : BitVec 5) (size : Nat) : Bool :=
  c.active != [] && slotFree t c && (c.getS a).tag.isInt && (c.getS a).toAddress.toNat % size == 0 && (c.getS a).toAddress.toNat + size ≤ c.blk.ts + c.blk.p + c.blk.ch
    && !t.crewPoisoned c.crew c.crew.nextOp (.spad c.blk.id c.crew.side (c.getS a).toAddress.toNat) size

def landFieldGoodB (c : Ctx) (b : BitVec 5) (l : BitVec 1) : Bool :=
  l == 0 || (((c.getS b).tag == .i64 || (c.getS b).tag == .n64) && (c.getS b).bits.toNat / 2 % 8 == 0
    && ((c.getS b).bits.toNat % 2 == 1 || ((c.getS b).bits.toNat / 16 * 16 + 16 ≤ c.blk.ts + c.blk.p + c.blk.ch && !c.blk.inSegment ((c.getS b).bits.toNat / 16 * 16))))

def rangeGoodB (c : Ctx) (spad : Bool) (lo hi : Int) (dst : Bool) : Bool :=
  !spad || (decide (0 ≤ lo) && decide (hi ≤ (c.blk.ts + c.blk.p + c.blk.ch : Nat)) && (!dst || !c.blk.inSegment lo.toNat))

/-- A placed engine word with its descriptor at 1024 and its landing at 2048. -/
def engine (i : Instr) (desc : List Byte) : State := withSpad (put i (val .i64 1024) (val .n64 2048) {}) 1024 desc

/-- A roster of four ranks, of which the placed context holds rank 1. -/
def ranked (s : State) : State := { s with contexts := s.contexts.map fun p => (p.1, { p.2 with own := 1, roster := (List.range 4).map fun k => ({ node := 0, ctx := if k == 1 then ctxKey 1 0 else ctxKey 1 (10 + k), usable := true, sameKey := false, ports := [(0, 1)] } : RosterEntry) }) }

/-- A placed crew with a command in slot 0 of its core, on a slice of the partition (R430). -/
def ferry (cmd : FerryCmd) : State := (core (at' (.nop 0)) fun r => { r with ferry := [(0, cmd)] }).modSlice 0 fun x => { x with fwPid := 1, fwTab := [1] }

/-- A command whose descriptor holds the bytes given, with a landing in scratchpad. -/
def cmdOf (op : EngOp) (desc : List Byte) (total : Nat) : FerryCmd := { op := op, crew := 0, block := 0, handle := 0, desc := desc, total := total, landing := some (.spad 0 0 2048) }

/-- An FCOPY of 16 elements of 16 bytes from scratchpad to global memory at 0x8000. -/
def copyCmd : FerryCmd := cmdOf .fcopy (bytesOfNat 8 0 ++ bytesOfNat 8 0x8000 ++ [4, 0, 1, 0] ++ bytesOfNat 4 16 ++ bytesOfNat 8 0 ++ bytesOfNat 4 16 ++ bytesOfNat 12 0 ++ bytesOfNat 4 16 ++ bytesOfNat 12 0) 256

/-- A put of 64 bytes from scratchpad to rank 2. -/
def putCmd (op : EngOp) : FerryCmd := cmdOf op (bytesOfNat 8 8192 ++ bytesOfNat 8 4096 ++ bytesOfNat 4 64 ++ bytesOfNat 2 2 ++ [1, 0] ++ bytesOfNat 40 0) 64

/-- The peer of rank 2 in a context of the same partition. -/
def peered (s : State) : State := { ranked s with contexts := tput (ranked s).contexts (ctxKey 1 12) { ctx := ctxKey 1 12, pid := 1, own := 2 } }

/-- The placed instruction on a slice that belongs to its partition (R430). -/
def owned (s : State) : State := s.modSlice 0 fun x => { x with fwPid := 1, fwTab := [1] }

/-- The owner's mailbox with a command rung, its bytes at 0x100 of the owner's memory. -/
def rung (s : State) (code : Nat) (cmd : Nat := 0) : State := { s with harbour := { s.harbour with
  booted := true, mailbox := { s.harbour.mailbox with queue := [(code, 0x100), (9, 0)] }, ownerMem := writeBytes s.harbour.ownerMem 0x100 (bytesOfNat 16 cmd) } }

/-- The mailbox of partition 1 with a command rung, its bytes at 0x100 of the partition's memory. -/
def mailed (s : State) (code : Nat) (cmd : List Byte := []) : State :=
  (({ s with harbour := { s.harbour with booted := true } } : State).modPartition 1 fun p => { p with mailbox := { p.mailbox with queue := [(code, 0x100), (9, 0)] } }).writeGlobal 1 0x100 cmd

/-- A registered queue of the placed instruction's partition. -/
def queue5 : Queue := { pid := 1, qnum := 5, desc := 0x4000, ring := 0x8000, log2n := 4, ceil := 0, launchMode := false, ctx := ctxKey 1 0, dbell := 0x77, home := 0, uid := 9, head := 5, tail := 6 }

/-- The bytes of a launch record of one block of one crew of 8 lanes, with a dependence. -/
def recordBytes (nbx dep : Nat) : List Byte := bytesOfNat 8 0 ++ bytesOfNat 4 nbx ++ bytesOfNat 2 1 ++ bytesOfNat 2 1 ++ bytesOfNat 2 8 ++ bytesOfNat 2 1 ++ bytesOfNat 2 1 ++ [1, 0] ++ bytesOfNat 24 0 ++ bytesOfNat 4 dep ++ bytesOfNat 76 0

/-- The placed launch changed. -/
def launch (s : State) (f : Launch → Launch) : State := s.modLaunch 0 f

/-- The launch of a state, for checks. -/
def launchOf (s : State) (p : Launch → Bool) : Bool := (tget s.launches 0).any p

/-- A scalar register after a step. -/
def sreg (t : State) (k : Nat) : RegVal := ((tget t.crews 0).bind fun c => c.regs.s[k]?).getD {}

/-- A vector register of a lane after a step. -/
def vreg (t : State) (l k : Nat) : RegVal := ((tget t.crews 0).bind fun c => (c.regs.lane l).v[k]?).getD {}


/-! ### Ill-formed fields -/

/-- One ill-formed instruction for each check of WellFormed (R33, R35, R36 and the rules of the words), each refused. -/
theorem test_ill_formed : ([
    .freeze 0 0, .freeze 0 3, .brc 0 6 0 0, .smov 0 0 0 1, .smov 0 0 0 31, .vli 0 0 15 0, .vli 0 0 9 256, .vcvt 0 0 0 0 0 0 0, .vcvt 0 0 0 0 14 0 0, .vcvt 0 0 0 0 1 3 0,
    .vcmp 0 0 0 0 0 12, .vcmp 0 0 0 0 3 0, .vretag 0 0 0 15, .ld 0 0 0 3 0 0 0 0, .ld 0 0 0 0 5 0 0 0, .ld 0 0 0 0 0 0 3 0, .ld 0 0 0 0 0 0 0 2, .ld 0 0 0 0 3 1 0 0,
    .ld 0 0 0 0 1 5 0 0, .ld 0 0 0 0 0 15 0 0, .st 0 0 0 0 2 6 0 0, .st 0 0 0 0 2 7 0 0, .atom 0 0 0 0 1 0 0 0, .atom 0 0 0 0 2 11 0 0, .atom 0 0 0 3 2 0 0 0, .fence 0 6,
    .ldt 0 0 0 0 3, .stt 0 0 0 0 3, .lndInit 0 0 0 6, .lndExpectIn 0 0 0 6, .lndExpectOut 0 0 0 6, .lndArrive 0 0 0 6, .lndWait 0 0 0 7, .lndTest 0 0 0 6,
    .fcopy 0 0 0 1 0, .fgath 0 0 0 1 0, .fscat 0 0 0 1 0, .fatom 0 0 0 1 0, .fput 0 0 0 1 0, .fputs 0 0 0 1 0, .fget 0 0 0 1 0,
    .collAllred 0 0 0 1 0, .collAllgath 0 0 0 1 0, .collRedscat 0 0 0 1 0, .collBcast 0 0 0 1 0, .collCbar 0 0 0 1 0, .mma 0 0 0 0 0 3 0 0 0,
    .tcvt 0 0 0 0 10, .tcvt 0 0 0 3 6, .accst 0 0 0 0 0 0 0 0 0 0 3, .accst 0 0 0 0 0 0 0 0 0 6 0, .accst 0 0 0 1 0 0 0 0 0 0 0,
    .csrr 0 0 3, .csrw 0 0 3, .csrs 0 0 0x407, .csrc 0 0 0xFFF, .illegalOpcodeWord 0] : List Instr).all (fun i => !i.wellFormed) = true := by decide +kernel

/-- Their neighbours within the legal fields are well formed. -/
theorem test_well_formed : ([
    .freeze 0 2, .brc 0 5 0 0, .smov 0 0 0 30, .vli 0 0 9 255, .vli 0 0 1 256, .vcvt 0 0 0 0 1 2 0, .vcvt 0 0 0 0 5 3 0, .vcmp 0 0 0 0 2 11, .vretag 0 0 0 14, .ld 0 0 0 2 4 0 2 1, .ld 0 0 0 0 2 5 0 0,
    .st 0 0 0 0 4 7 0 0, .atom 0 0 0 2 3 10 2 1, .fence 0 5, .ldt 0 0 0 0 2, .lndWait 0 0 0 5, .fcopy 0 0 0 1 1, .mma 0 0 0 0 0 2 0 0 0, .tcvt 0 0 0 3 5, .accst 0 0 0 1 0 1 0 0 0 5 1,
    .csrr 0 0 0x406, .csrw 0 0 0] : List Instr).all (fun i => i.wellFormed) = true := by decide +kernel

/-! ### Words of the spec -/

/-- The words that the spec writes out beside their assembly and fields: VSUBS q, v4, v5; VCVT.F16X4.RNE.SAT q, v1, #0; VOR q, q2, q1; SHFLX.P q, v1, s2, s3; BCAST v5, v1, zero; MATCH q, v1, s1; the ATOM of R249; FENCE.PART and FENCE.SYS;
the LND words and LDT, STRM and BERTH words of the on-chip memory chapter; the engine words with SD 4, SA 5 and SB 6; the SYS words of R373; CSRR hs0, %tmask; LAUNCH s4, [s5], s6; the MMA, TX, ACCLD and ACCST words of the matrix chapter; BRP.N p1 +3 and CALL +3; and the fields of VSEL in the vector chapter's table. -/
theorem test_spec_words : ([
    (0x18028A95, .vsubs 0x0 0x00 0x14 0x15),
    (0x26022039, .vcvt 0x0 0x00 0x11 0x0 0x7 0x0 0x1),
    (0x18002006, .vor 0x0 0x00 0x01 0x00),
    (0x2E02395B, .shflx 0x0 0x00 0x11 0x32 0x1 0x3),
    (0x2EAA3E20, .bcast 0x0 0x15 0x11 0x3c 0x0 0x0),
    (0x30022061, .xmatch 0x0 0x00 0x11 0x1),
    (0x36926B00, .atom 0x0 0x12 0x13 0x1 0x3 0x0 0x0 0x0),
    (0x38100000, .fence 0x0 0x4),
    (0x38140000, .fence 0x0 0x5),
    (0x3E002140, .lndInit 0x0 0x04 0x05 0x0),
    (0x3E202180, .lndExpectIn 0x0 0x04 0x06 0x0),
    (0x3E632020, .lndArrive 0x0 0x03 0x04 0x4),
    (0x3E8020D0, .lndWait 0x0 0x04 0x03 0x2),
    (0x3EA72000, .lndTest 0x0 0x07 0x04 0x0),
    (0x3A442800, .ldt 0x0 0x2 0x04 0x05 0x0),
    (0x40020001, .strmSet 0x0 0x04 0x1),
    (0x38469000, .berthSet 0x0 0x3 0x09),
    (0x38660000, .berthClr 0x0 0x3),
    (0x38260000, .publish 0x0 0x3 0x0),
    (0x42429801, .fcopy 0x0 0x04 0x05 0x06 0x1),
    (0x44429801, .fgath 0x0 0x04 0x05 0x06 0x1),
    (0x44429803, .fscat 0x0 0x04 0x05 0x06 0x1),
    (0x46429801, .fatom 0x0 0x04 0x05 0x06 0x1),
    (0x48429801, .fput 0x0 0x04 0x05 0x06 0x1),
    (0x48429803, .fputs 0x0 0x04 0x05 0x06 0x1),
    (0x48429805, .fget 0x0 0x04 0x05 0x06 0x1),
    (0x4A429801, .collAllred 0x0 0x04 0x05 0x06 0x1),
    (0x4A429809, .collCbar 0x0 0x04 0x05 0x06 0x1),
    (0x4C429800, .nmc 0x0 0x04 0x05 0x06),
    (0x4E029800, .fpref 0x0 0x05 0x06 0x0),
    (0x4E428001, .fcancel 0x0 0x04 0x05),
    (0x58000000, .trap 0x0 0x000),
    (0x58001000, .rteRetry 0x0),
    (0x58002000, .rteCommit 0x0),
    (0x58003000, .rteSkip 0x0),
    (0x58004000, .brk 0x0 0x000),
    (0x5BC00402, .csrr 0x0 0x1c 0x402),
    (0x5C429800, .launch 0x0 0x04 0x05 0x06),
    (0x50001003, .mma 0x0 0x00 0x0 0x2 0x00 0x0 0x0 0x1 0x1),
    (0x50001805, .mma 0x0 0x00 0x0 0x3 0x00 0x0 0x1 0x0 0x1),
    (0x5020AFF0, .mma 0x0 0x04 0x1 0x5 0x3f 0x2 0x0 0x0 0x0),
    (0x52120000, .movts 0x0 0x1 0x04),
    (0x52508001, .movst 0x0 0x05 0x1),
    (0x52030002, .accz 0x0 0x06),
    (0x52700003, .mchk 0x0 0x07),
    (0x52200224, .tcvt 0x0 0x2 0x1 0x0 0x4),
    (0x52300005, .tzero 0x0 0x3),
    (0x56848000, .accld 0x0 0x08 0x09 0x0),
    (0x54848020, .accst 0x0 0x08 0x09 0x00 0x0 0x0 0x0 0x0 0x1 0x0 0x0),
    (0x5484A985, .accst 0x0 0x08 0x09 0x0a 0x0 0x1 0x1 0x0 0x0 0x1 0x1),
    (0x06600003, .brp 0x0 0x1 0x1 0x000003),
    (0x08000003, .call 0x0 0x0000003),
    (0x2ABA2906, .vsel 0x0 0x17 0x11 0x12 0x3 0x0)] : List (Nat × Instr)).all (fun p => decide (decodeTableWord 32 p.1 = some p.2)) = true := by decide +kernel

/-- Words that are none: the group 0x2F and above, a set reserved bit, an unassigned F7, and fewer bits than a word. -/
theorem test_no_words : ([0x7E000000, 0x60000000, 0x00000001, 0x1800007F, 0x16000006, 0x58005000, 0x40020008].all (fun n => decide (decodeTableWord 32 n = none)) && decide (decodeTableWord 24 0xFFFFFFFF = decodeTableWord 32 0x00FFFFFF)) = true := by decide +kernel

/-! ### A word of every row of the opcode table, each field with a value of its own -/

/-- Words formed from the match and the fields of the opcode table, rules R137 to R115. -/
theorem test_words_1 : ([
    (0x80000000, .nop 1),
    (0x803A05B8, .trl 1 52 2 55),
    (0x8053C000, .grd 1 4 1 7),
    (0x80785BE8, .waitc 1 12 2 55 13),
    (0x80800000, .yield 1),
    (0x00A00000, .exit 0),
    (0x00D00000, .freeze 0 2),
    (0x80F00174, .setrl 1 1048948),
    (0x81100000, .elect 1 4),
    (0x03000174, .br 0 16777588),
    (0x85050017, .brc 1 4 2 65559),
    (0x87300017, .brp 1 4 1 1048599),
    (0x09000174, .call 0 16777588),
    (0x0A068000, .jmpi 0 52),
    (0x8A000001, .ret 1),
    (0x0A068002, .jmpiL 0 52),
    (0x0D415C00, .sadd 0 20 2 23),
    (0x0D415C01, .ssub 0 20 2 23),
    (0x0D415C02, .smul 0 20 2 23),
    (0x8D415C03, .smulh 1 20 2 23),
    (0x0D415C04, .smulhn 0 20 2 23),
    (0x0D415C05, .sand 0 20 2 23),
    (0x8D415C06, .sor 1 20 2 23),
    (0x0D415C07, .sxor 0 20 2 23)] : List (Nat × Instr)).all (fun p => decide (decodeTableWord 32 p.1 = some p.2)) = true := by decide +kernel

/-- Words formed from the match and the fields of the opcode table, rules R115 to R145. -/
theorem test_words_2 : ([
    (0x0D415C08, .sshl 0 20 2 23),
    (0x0D415C09, .sshr 0 20 2 23),
    (0x0D415C0A, .ssra 0 20 2 23),
    (0x0D415C0B, .smin 0 20 2 23),
    (0x0D415C0C, .smax 0 20 2 23),
    (0x8D415C0D, .sminn 1 20 2 23),
    (0x8D415C0E, .smaxn 1 20 2 23),
    (0x8D415C0F, .seq 1 20 2 23),
    (0x8D415C10, .slt 1 20 2 23),
    (0x0D415C11, .sltn 0 20 2 23),
    (0x0D415C12, .smov 0 20 2 23),
    (0x8F410817, .saddi 1 20 2 2071),
    (0x8F411817, .sandi 1 20 2 2071),
    (0x0F412817, .sori 0 20 2 2071),
    (0x8F413817, .sxori 1 20 2 2071),
    (0x8F414037, .sshli 1 20 2 55),
    (0x8F415037, .sshri 1 20 2 55),
    (0x8F416037, .ssrai 1 20 2 55),
    (0x0F417817, .slti 0 20 2 2071),
    (0x9147FFA2, .sli 1 20 524194),
    (0x1347FFA2, .slih 0 20 524194),
    (0x19A05B80, .vadd 0 52 2 55),
    (0x19A05B81, .vsub 0 52 2 55),
    (0x19A05B82, .vmul 0 52 2 55)] : List (Nat × Instr)).all (fun p => decide (decodeTableWord 32 p.1 = some p.2)) = true := by decide +kernel

/-- Words formed from the match and the fields of the opcode table, rules R145 to R145. -/
theorem test_words_3 : ([
    (0x99A05B83, .vmulh 1 52 2 55),
    (0x19A05B84, .vmulhn 0 52 2 55),
    (0x19A05B85, .vand 0 52 2 55),
    (0x99A05B86, .vor 1 52 2 55),
    (0x19A05B87, .vxor 0 52 2 55),
    (0x99A05B88, .vandn 1 52 2 55),
    (0x19A05B89, .vshl 0 52 2 55),
    (0x19A05B8A, .vshr 0 52 2 55),
    (0x19A05B8B, .vsra 0 52 2 55),
    (0x19A05B8C, .vmin 0 52 2 55),
    (0x19A05B8D, .vmax 0 52 2 55),
    (0x99A05B8E, .vminn 1 52 2 55),
    (0x99A05B8F, .vmaxn 1 52 2 55),
    (0x19A05B90, .vabs 0 52 2 55),
    (0x19A05B91, .vneg 0 52 2 55),
    (0x19A05B92, .vclz 0 52 2 55),
    (0x99A05B93, .vpopc 1 52 2 55),
    (0x99A05B94, .vadds 1 52 2 55),
    (0x99A05B95, .vsubs 1 52 2 55),
    (0x19A05B96, .vbfe 0 52 2 55),
    (0x19A05B97, .vbfi 0 52 2 55),
    (0x99A05B98, .vpack 1 52 2 55),
    (0x99A05B99, .vunpk 1 52 2 55),
    (0x99A05B9A, .vadda 1 52 2 55)] : List (Nat × Instr)).all (fun p => decide (decodeTableWord 32 p.1 = some p.2)) = true := by decide +kernel

/-- Words formed from the match and the fields of the opcode table, rules R148 to R152. -/
theorem test_words_4 : ([
    (0x9BA04217, .vaddi 1 52 2 535),
    (0x9BA04617, .vandi 1 52 2 535),
    (0x1BA04A17, .vori 0 52 2 535),
    (0x9BA04E17, .vxori 1 52 2 535),
    (0x9BA05037, .vshli 1 52 2 55),
    (0x9BA05437, .vshri 1 52 2 55),
    (0x9BA05837, .vsrai 1 52 2 55),
    (0x9BA05E17, .vmuli 1 52 2 535),
    (0xDFA14017, .vli 1 52 2 16407),
    (0x1DA05BE0, .fadd 0 52 2 55 3),
    (0x1DA05BE1, .fsub 0 52 2 55 3),
    (0x1DA05BE2, .fmul 0 52 2 55 3),
    (0x1DA05BE3, .fdiv 0 52 2 55 3),
    (0x9DA05BE4, .fsqrt 1 52 2 55 3),
    (0x1DA05B85, .fmin 0 52 2 55),
    (0x1DA05B86, .fmax 0 52 2 55),
    (0x1DA05B87, .fabs 0 52 2 55),
    (0x1DA05B88, .fneg 0 52 2 55),
    (0x9DA05B89, .fcopysign 1 52 2 55),
    (0x9DA05B8A, .fminnum 1 52 2 55),
    (0x9DA05B8B, .fmaxnum 1 52 2 55),
    (0x1FA05BCB, .ffma 0 52 2 55 37 1),
    (0xA1A05BCA, .ffman 1 52 2 55 37 0),
    (0xA3A05BCA, .vimad 1 52 2 55 37 0)] : List (Nat × Instr)).all (fun p => decide (decodeTableWord 32 p.1 = some p.2)) = true := by decide +kernel

/-- Words formed from the match and the fields of the opcode table, rules R153 to R168. -/
theorem test_words_5 : ([
    (0x25A05B80, .frcp 0 52 2 55),
    (0x25A05B81, .frsq 0 52 2 55),
    (0xA5A05B82, .fexp2 1 52 2 55),
    (0xA5A05B83, .flog2 1 52 2 55),
    (0x25A05B84, .fsinpi 0 52 2 55),
    (0x25A05B85, .fcospi 0 52 2 55),
    (0xA5A05B86, .ftanh 1 52 2 55),
    (0x27A043EA, .vcvt 0 52 2 7 13 1 0),
    (0x28205BB6, .vcmp 0 4 2 55 3 6),
    (0x2BA05B8B, .vsel 0 52 2 55 5 1),
    (0x2DA05BCB, .vdot 0 52 2 55 37 1),
    (0x16204380, .pand 0 4 2 7),
    (0x96204381, .por 1 4 2 7),
    (0x16204382, .pxor 0 4 2 7),
    (0x96204383, .pandn 1 4 2 7),
    (0x17A00004, .ptov 0 52),
    (0x16068005, .vtop 0 52),
    (0x14A04000, .vtos 0 20 2),
    (0x15A04001, .stov 0 52 2),
    (0x15A04782, .vretag 0 52 2 15),
    (0x2FA05B82, .shfl 0 52 2 55 0 2),
    (0x2FA05B8A, .shflup 0 52 2 55 0 2),
    (0x2FA05B92, .shfldn 0 52 2 55 0 2),
    (0xAFA05BDA, .shflx 1 52 2 55 1 2)] : List (Nat × Instr)).all (fun p => decide (decodeTableWord 32 p.1 = some p.2)) = true := by decide +kernel

/-- Words formed from the match and the fields of the opcode table, rules R168 to R264. -/
theorem test_words_6 : ([
    (0xAFA05BE2, .bcast 1 52 2 55 1 2),
    (0x31A04007, .voteAny 0 52 2 7),
    (0x31A0400F, .voteAll 0 52 2 7),
    (0x31A04017, .voteBal 0 52 2 7),
    (0xB1A0401F, .voteEq 1 52 2 7),
    (0x31A04027, .redadd 0 52 2 7),
    (0x31A0402F, .redmin 0 52 2 7),
    (0x31A04037, .redmax 0 52 2 7),
    (0x31A0403F, .redand 0 52 2 7),
    (0xB1A04047, .redor 1 52 2 7),
    (0x31A0404F, .redxor 0 52 2 7),
    (0xB1A04057, .scanadd 1 52 2 7),
    (0x31A0405F, .scanaddx 0 52 2 7),
    (0xB1A04067, .xmatch 1 52 2 7),
    (0x33A05D6A, .ld 0 52 2 3 5 6 2 2),
    (0x35A05D6A, .st 0 52 2 3 5 6 2 2),
    (0x37A05D6A, .atom 0 52 2 3 5 6 2 2),
    (0xB8100000, .fence 1 4),
    (0xB8390000, .publish 1 12 1),
    (0xB8582000, .berthSet 1 12 2),
    (0xB8780000, .berthClr 1 12),
    (0xBB82BE00, .ldt 1 12 2 23 3),
    (0xBD82BE00, .stt 1 12 2 23 3),
    (0x3E00A0B8, .lndInit 0 20 2 7)] : List (Nat × Instr)).all (fun p => decide (decodeTableWord 32 p.1 = some p.2)) = true := by decide +kernel

/-- Words formed from the match and the fields of the opcode table, rules R264 to R188. -/
theorem test_words_7 : ([
    (0xBE20A0B8, .lndExpectIn 1 20 2 7),
    (0x3E40A0B8, .lndExpectOut 0 20 2 7),
    (0x3E741038, .lndArrive 0 20 2 7),
    (0x3E80A0B8, .lndWait 0 20 2 7),
    (0x3EB41038, .lndTest 0 20 2 7),
    (0x400A0001, .strmSet 0 20 1),
    (0xC0000006, .strmStop 1 2),
    (0xC3415C01, .fcopy 1 20 2 23 1),
    (0xC5415C01, .fgath 1 20 2 23 1),
    (0xC5415C03, .fscat 1 20 2 23 1),
    (0xC7415C01, .fatom 1 20 2 23 1),
    (0x49415C00, .fput 0 20 2 23 0),
    (0xC9415C03, .fputs 1 20 2 23 1),
    (0x49415C04, .fget 0 20 2 23 0),
    (0xCB415C01, .collAllred 1 20 2 23 1),
    (0x4B415C02, .collAllgath 0 20 2 23 0),
    (0x4B415C04, .collRedscat 0 20 2 23 0),
    (0x4B415C06, .collBcast 0 20 2 23 0),
    (0xCB415C09, .collCbar 1 20 2 23 1),
    (0xCD415C00, .nmc 1 20 2 23),
    (0xCE0A0806, .fpref 1 20 2 3),
    (0xCF410001, .fcancel 1 20 2),
    (0xD1A17CAD, .mma 1 52 2 15 37 1 1 0 1),
    (0xD2C10000, .movts 1 12 2)] : List (Nat × Instr)).all (fun p => decide (decodeTableWord 32 p.1 = some p.2)) = true := by decide +kernel

/-- Words formed from the match and the fields of the opcode table, rules R188 to R347. -/
theorem test_words_8 : ([
    (0xD3410001, .movst 1 20 2),
    (0x520A0002, .accz 0 20),
    (0x53400003, .mchk 0 20),
    (0x52C001EC, .tcvt 0 12 0 3 13),
    (0xD2C00005, .tzero 1 12),
    (0xD5415EB2, .accst 1 20 2 23 1 0 1 0 1 4 2),
    (0xD7410000, .accld 1 20 2 0),
    (0x58000974, .trap 0 2420),
    (0xD8001000, .rteRetry 1),
    (0x58002000, .rteCommit 0),
    (0x58003000, .rteSkip 0),
    (0xD8004974, .brk 1 2420),
    (0x5B4007A2, .csrr 0 20 1954),
    (0x5A0A17A2, .csrw 0 20 1954),
    (0x5A0A27A2, .csrs 0 20 1954),
    (0x5A0A37A2, .csrc 0 20 1954),
    (0x5D415C00, .launch 0 20 2 23)] : List (Nat × Instr)).all (fun p => decide (decodeTableWord 32 p.1 = some p.2)) = true := by decide +kernel


/-! ### Worked examples of the spec -/

/-- R114: the two I32 operands of its example. -/
theorem test_salu : (
    let s (i : Instr) : State := put i (val .i32 0x80000000) (val .i32 1) {}
      let gives (i : Instr) (t : Tag) (n : Nat) : Bool := next (exec i (s i)) fun u => sreg u 3 == val t n;
      gives (.sadd 0 3 1 2) .i32 0x80000001 && gives (.ssub 0 3 1 2) .i32 0x7FFFFFFF && gives (.smul 0 3 1 2) .i32 0x80000000 && gives (.smulh 0 3 1 2) .i32 0xFFFFFFFF && gives (.smulhn 0 3 1 2) .i32 0
        && gives (.smin 0 3 1 2) .i32 0x80000000 && gives (.sminn 0 3 1 2) .i32 1 && gives (.slt 0 3 1 2) .i64 1 && gives (.sltn 0 3 1 2) .i64 0 && gives (.sshl 0 3 1 2) .i32 0 && gives (.sshr 0 3 1 2) .i32 0x40000000 && gives (.ssra 0 3 1 2) .i32 0xC0000000) = true := by decide +kernel

/-- R117: SLIH behind SLI s5 and SLI s6. -/
theorem test_sli_slih : (
    (next (exec (.slih 0 5 0x12345) (crew (at' (.slih 0 5 0x12345)) fun w => { w with regs := { w.regs with s := w.regs.s.setIfInBounds 5 (val .i64 0x6789A) } })) fun t => sreg t 5 == val .i64 0x123456789A)
      && (next (exec (.sli 0 6 0x80000) (at' (.sli 0 6 0x80000))) fun t => sreg t 6 == val .i64 0xFFFFFFFFFFF80000)
      && next (exec (.slih 0 1 0) (put (.slih 0 1 0) (val .i64 0xFFFFFFFFFFF80000) {} {})) fun t => sreg t 1 == val .i64 0x80000) = true := by decide +kernel

/-- R145: the I16x4 example, with VADD, VADDS, VABS and VMINN. -/
theorem test_vint : (
    let gives (i : Instr) (n : Nat) : Bool := next (exec i (put i (val .i16x4 0x80007FFF0001FFFF) (val .i16x4 0x0001000100010001) {})) fun t => vreg t 7 3 == val .i16x4 n;
      gives (.vadd 0 0x13 0x11 0x12) 0x8001800000020000 && gives (.vadds 0 0x13 0x11 0x12) 0x80017FFF00020000 && gives (.vabs 0 0x13 0x11 0) 0x80007FFF00010001 && gives (.vminn 0 0x13 0x11 0x12) 0x0001000100010001) = true := by decide +kernel

/-- R150: minima of +0 and -0, of a NaN and of a signalling NaN, which raises NV. -/
theorem test_fmin : (
    let gives (i : Instr) (a b n flags : Nat) : Bool := next (exec i (put i (val .f32 a) (val .f32 b) {})) fun t => vreg t 0 3 == val .f32 n && (tget t.crews 0).any fun c => c.regs.fpflags.toNat == flags;
      gives (.fmin 0 0x13 0x11 0x12) 0 0x80000000 0x80000000 0 && gives (.fmax 0 0x13 0x11 0x12) 0 0x80000000 0 0 && gives (.fminnum 0 0x13 0x11 0x12) 0x7FC00000 0x40000000 0x40000000 0 && gives (.fmin 0 0x13 0x11 0x12) 0x7FC00000 0x40000000 0x7FC00000 0
        && gives (.fmax 0 0x13 0x11 0x12) 0x7F800001 0x40000000 0x7FC00000 0x10 && gives (.fminnum 0 0x13 0x11 0x12) 0x7F800001 0x40000000 0x40000000 0x10) = true := by decide +kernel

/-- R154: 70,000.0 clamped into F16x4, and elements that TT8 rounds (the table of R99). -/
theorem test_vcvt : (
    let gives (i : Instr) (n : Nat) (r : RegVal) : Bool := next (exec i (put i (val .f32 n) {} {})) fun t => vreg t 4 3 == r;
      gives (.vcvt 0 0x13 0x11 2 7 0 1) 0x4788B800 (val .f16x4 0x00007BFF00000000) && gives (.vcvt 0 0x13 0x11 0 11 0 0) 0x3F4CCCCD (val .tt8x8 0x777777777777770A) && gives (.vcvt 0 0x13 0x11 0 11 0 0) 0x40400000 (val .tt8x8 0x77777777777777F7) && gives (.vcvt 0 0x13 0x11 0 11 0 1) 0x40400000 (val .tt8x8 0x7777777777777700)) = true := by decide +kernel

/-- R158: the sum that VDOT rounds once. -/
theorem test_vdot : (
    let i : Instr := .vdot 0 0x13 0x11 0x12 0x13 0;
      next (exec i (put i (val .f16x4 0x00000C000C003C00) (val .f16x4 0x00000C000C003C00) (val .f32 0x3F800000))) fun t => vreg t 0 3 == val .f32 0x40000000) = true := by decide +kernel

/-- R164: a lane that holds 0x4000_0000_3F80_0000 as F64. -/
theorem test_vretag : (
    let gives (k : BitVec 4) (r : RegVal) : Bool := next (exec (.vretag 0 0x12 0x11 k) (put (.vretag 0 0x12 0x11 k) (val .f64 0x400000003F800000) {} {})) fun t => vreg t 3 2 == r;
      gives 5 (val .f32 0x3F800000) && gives 4 (val .n64 0x400000003F800000) && gives 0 (val .raw 0x400000003F800000)) = true := by decide +kernel

/-- R172: the example of a tile of four with one lane exited and one guarded. -/
theorem test_tiles_of_lanes : (
    let s (i : Instr) : State := crew (group (at' i) fun g => { g with lanes := 0xBF, tileCode := 2, guards := [{ allow := 0xBD, left := 1 }] }) fun w => { w with regs := { w.regs with
        tile := 2, s := w.regs.s.setIfInBounds 2 (val .i64 1), lanes := (List.range 8).map fun n => { ({} : Lane) with p := 5, v := ({} : Lane).v.setIfInBounds 1 (val .f32 ([0x3F800000, 0x40000000, 0x40400000, 0x40800000, 0x40A00000, 0x40C00000, 0x40E00000, 0x41000000].getD n 0)) } } }
      let gives (i : Instr) (r : List (Nat × RegVal)) : Bool := next (exec i (s i)) fun t => r.all fun x => vreg t x.1 6 == x.2;
      gives (.redadd 0 0x16 0x11 0) ([(0, 0x41000000), (2, 0x41000000), (3, 0x41000000), (4, 0x41980000), (5, 0x41980000), (7, 0x41980000)].map fun x => (x.1, val .f32 x.2))
        && gives (.voteBal 0 0x16 2 0) ([(0, 0x0D), (3, 0x0D), (4, 0xB0), (7, 0xB0)].map fun x => (x.1, val .m64 x.2))
        && gives (.voteAll 0 0x16 2 0) ([(0, 0), (7, 0)].map fun x => (x.1, val .n32 x.2))
        && gives (.shflx 0 0x16 0x11 0x32 1 0) ([(0, 0), (2, 0x40800000), (3, 0x40400000), (4, 0x40C00000), (5, 0x40A00000), (7, 0)].map fun x => (x.1, val .f32 x.2))
        && next (exec (.shflx 0 0x16 0x11 0x32 0 0) (record (s (.shflx 0 0x16 0x11 0x32 0 0)) fun r => { r with handler := 5, hcause := 31 })) fun t => (tget t.crews 0).any fun c => c.regs.treg.tcause == 0x08 && c.regs.treg.tmask == 0x81) = true := by decide +kernel

/-- R261: the landing of its example, bits 63:0 after INIT 2, EXPECT.IN 512, an ARRIVE, the count-down of 512 and a second ARRIVE; and a count-down of 768 instead. -/
theorem test_landing : (
    let l (n : Nat) : Landing := ([LandOp.init 2, .expectIn 512, .arrive, .countIn 512, .arrive].take n).foldl Landing.update (Landing.ofBytes (List.replicate 16 0))
      let low (l : Landing) : Nat := natOfBytes (l.bytes.take 8)
      [1, 2, 3, 4, 5].map (fun n => low (l n)) == [0x20020, 0x20000020020, 0x20000020010, 0x20010, 0x20021] && ((l 3).update (.countIn 768)).st == 2 && ((l 3).update (.countIn 768)).inb == 512) = true := by decide +kernel

/-- R446, R488: the header of the retransmitted DATA 10 of Program G. -/
theorem test_flit_header : (
    flitHeader 1 true false 0 14 0x040B 0x0211 6 3 0x05A 10 == [0x11, 0x0E, 0x0B, 0x04, 0x11, 0x02, 0x06, 0x00, 0x00, 0x00, 0x03, 0x00, 0x5A, 0xA0, 0x00, 0x00]) = true := by decide +kernel

/-- R434: the first four entries that slice 5 takes from slices 0 and 1. -/
theorem test_join : (
    let t := (List.range 4).foldl (fun t _ => takeEntry 5 [0, 1] t) ((List.range 256).map fun e => e % 2);
      [254, 255, 252, 253].all (fun e => t.getD e 0 == 5) && [0, 1].all (fun k => entriesOf t k == 126) && t.getD 38 9 == 0) = true := by decide +kernel

/-- R434: slice 5 leaves again: its entries pass one by one to the slice with the fewest. -/
theorem test_leave : (
    leaveItab [0, 5, 1, 5, 5, 1, 0, 1] 5 [0, 1] == [0, 0, 1, 0, 1, 1, 0, 1]) = true := by decide +kernel


/-! ### States and operands that meet the hypotheses of the statements -/

/-- ScalarTwoOperandResults, at the ends of the range of 64-bit values. -/
theorem wit_scalar_two_operands : (
    scalarRows.all fun r => let i := r.word 0 3 1 2
      meets (put i (val .i64 (2 ^ 63)) (val .i64 (2 ^ 64 - 1)) {}) i fun _ c => c.active != [] && r.tagA (c.getS 1).tag && r.tagB (c.getS 1).tag (c.getS 2).tag) = true := by decide +kernel

/-- ScalarImmediateResults, the rows with an immediate, at its least value. -/
theorem wit_scalar_immediates : (
    scalarImmRows.all fun r => let i := r.word 0 3 1 0x800
      meets (put i (val .n32 0xFFFFFFFF) {} {}) i fun _ c => c.active != [] && r.tagA (c.getS 1).tag) = true := by decide +kernel

/-- ScalarImmediateResults, the shifts, by the greatest count. -/
theorem wit_scalar_shifts : (
    scalarShiftRows.all fun r => let i := r.1 0 3 1 63
      meets (put i (val .i64 1) {} {}) i fun _ c => c.active != [] && (c.getS 1).tag.shiftable) = true := by decide +kernel

/-- ScalarImmediateResults, SMOV with no tag and with the last tag code. -/
theorem wit_smov : (
    [(0 : BitVec 5), 16, 22].all fun t => let i : Instr := .smov 0 3 1 t
      meets (put i (val .raw 5) {} {}) i fun _ c => c.active != [] && (c.getS 1).tag != .poison) = true := by decide +kernel

/-- ScalarImmediateResults, SLI and SLIH. -/
theorem wit_sli_slih : (
    [Instr.sli 0 3 0x80000, .slih 0 3 0x7FFFF].all fun i => meets (at' i) i fun _ c => c.active != [] && (c.getS 3).tag != .poison) = true := by decide +kernel

/-- ScalarOperandTraps, with no active lane. -/
theorem wit_scalar_idle : (
    scalarRows.all fun r => let i := r.word 0 3 1 2
      meets (idle (at' i)) i fun _ c => c.active == []) = true := by decide +kernel

/-- ScalarOperandTraps, A or B POISON. -/
theorem wit_scalar_poison : (
    scalarRows.all fun r => let i := r.word 0 3 1 2
      (meets (put i (val .poison 0) (val .i64 1) {}) i fun _ c => c.active != [] && (c.getS 1).tag == .poison)
        && meets (put i (val .i64 0) (val .poison 1) {}) i fun _ c => c.active != [] && (c.getS 1).tag != .poison && (c.getS 2).tag == .poison) = true := by decide +kernel

/-- ScalarOperandTraps, a refused tag of A, of the rows that refuse one other than POISON. -/
theorem wit_scalar_tag_a : (
    (scalarRows.filter fun r => !r.tagA .f64).all fun r => let i := r.word 0 3 1 2
      meets (put i (val .f64 0) (val .i64 1) {}) i fun _ c => c.active != [] && (c.getS 2).tag != .poison && !r.tagA (c.getS 1).tag) = true := by decide +kernel

/-- ScalarOperandTraps, a refused tag of B. -/
theorem wit_scalar_tag_b : (
    (scalarRows.filter fun r => !r.tagB .i64 .f32).all fun r => let i := r.word 0 3 1 2
      meets (put i (val .i64 0) (val .f32 1) {}) i fun _ c => c.active != [] && (c.getS 2).tag != .poison && r.tagA (c.getS 1).tag && !r.tagB (c.getS 1).tag (c.getS 2).tag) = true := by decide +kernel

/-- VectorElementResults, on packed elements at the ends of their range. -/
theorem wit_vector_elements : (
    vectorRows.all fun r => let i := r.word 0 0x13 0x11 0x12
      meets (put i (val .i16x4 0x80007FFF00010000) (val .i16x4 0x8000800080008000) {}) i (vecOk (some 0x13) [0x11, 0x12] (sameTag Tag.anyInt))) = true := by decide +kernel

/-- VectorBitResults: bitwise words, shifts, words on A, VPACK, VUNPK, VBFE. -/
theorem wit_vector_bits : (
    (bitRows.all fun r => let i := r.1 0 0x13 0x11 0x12; meets (put i (val .i64 5) (val .f32 3) {}) i (vecOk (some 0x13) [0x11, 0x12] fun _ => none))
      && (shiftRows.all fun r => let i := r.1 0 0x13 0x11 0x12; meets (put i (val .i8x8 0x80) (val .i64 63) {}) i (vecOk (some 0x13) [0x11, 0x12] (twoTags Tag.anyIntM Tag.isInt)))
      && (unaryRows.all fun r => let i := r.1 0 0x13 0x11 0; meets (put i (val .i32 0x80000000) {} {}) i (vecOk (some 0x13) [0x11] (sameTag r.2.1)))
      && (let i : Instr := .vpack 0 0x13 0x11 0x12; meets (put i (val .i32 1) (val .i32 2) {}) i (vecOk (some 0x13) [0x11, 0x12] (sameTag Tag.packable)))
      && (let i : Instr := .vunpk 0 0x13 0x11 0x12; meets (put i (val .i8x8 1) (val .i64 1) {}) i (vecOk (some 0x13) [0x11, 0x12] (twoTags Tag.unpackable Tag.isInt)))
      && (let i : Instr := .vbfe 0 0x13 0x11 0x12; meets (put i (val .i64 1) (val .i64 0x3F3F) {}) i (vecOk (some 0x13) [0x11, 0x12] (twoTags Tag.isInt Tag.isInt)))) = true := by decide +kernel

/-- VectorImmediateResults. -/
theorem wit_vector_immediates : (
    (vectorImmRows.all fun r => let i := r.1 0 0x13 0x11 0x200; meets (put i (val .i32 1) {} {}) i (vecOk (some 0x13) [0x11] (sameTag r.2.1)))
      && (vectorShiftImmRows.all fun r => let i := r.1 0 0x13 0x11 63; meets (put i (val .i64 1) {} {}) i (vecOk (some 0x13) [0x11] (sameTag Tag.anyIntM)))
      && (let i : Instr := .vli 0 0x13 5 0x7FFF; meets (at' i) i fun _ c => !c.badDst (Dst.ofCode 0x13))
      && (let i : Instr := .vimad 0 0x13 0x11 0x12 0x13 1; meets (put i (val .i64 1) (val .i64 2) (val .i64 3)) i (vecOk (some 0x13) [0x11, 0x12, 0x13] (sameTag Tag.anyInt)))) = true := by decide +kernel

/-- FloatArithmeticResults, with no flag enabled. -/
theorem wit_float_arithmetic : (
    (arithRows.all fun r => let i := r.1 0 0x13 0x11 0x12 0; meets (put i (val .f32 0x3F800000) (val .f32 0x7F800001) {}) i fun t c => c.regs.fptrap == 0 && vecOk (some 0x13) [0x11, 0x12] (sameTag Tag.isFloat) t c)
      && (let i : Instr := .fdiv 0 0x13 0x11 0x12 0; meets (put i (val .f64 1) (val .f64 0) {}) i fun t c => c.regs.fptrap == 0 && vecOk (some 0x13) [0x11, 0x12] (sameTag Tag.isFloat) t c)
      && (let i : Instr := .fsqrt 0 0x13 0x11 0 0; meets (put i (val .f16x4 0x8000) {} {}) i fun t c => c.regs.fptrap == 0 && vecOk (some 0x13) [0x11] (sameTag Tag.isFloat) t c)
      && (fusedRows.all fun r => let i := r.1 0 0x13 0x11 0x12 0x13 1; meets (put i (val .f32 1) (val .f32 2) (val .f32 3)) i fun t c => c.regs.fptrap == 0 && vecOk (some 0x13) [0x11, 0x12, 0x13] (sameTag Tag.isFloat) t c)) = true := by decide +kernel

/-- FloatSelectionResults. -/
theorem wit_float_selection : (
    (pickRows.all fun r => let i := r.1 0 0x13 0x11 0x12; meets (put i (val .f32 0x7FC00000) (val .f32 1) {}) i fun t c => c.regs.fptrap == 0 && vecOk (some 0x13) [0x11, 0x12] (sameTag Tag.isFloat) t c)
      && ([Instr.fabs 0 0x13 0x11 0, .fneg 0 0x13 0x11 0].all fun i => meets (put i (val .f32 0x80000000) {} {}) i fun t c => c.regs.fptrap == 0 && vecOk (some 0x13) [0x11] (sameTag Tag.isFloat) t c)
      && (let i : Instr := .fcopysign 0 0x13 0x11 0x12; meets (put i (val .f32 1) (val .f32 0x80000000) {}) i fun t c => c.regs.fptrap == 0 && vecOk (some 0x13) [0x11, 0x12] (sameTag Tag.isFloat) t c)
      && (specialRows.all fun r => let i := r.1 0 0x13 0x11 0; meets (put i (val .f32 0x3F800000) {} {}) i fun t c => c.regs.fptrap == 0 && vecOk (some 0x13) [0x11] (sameTag Tag.isFloat) t c)) = true := by decide +kernel

/-- ConversionAndDotResults. -/
theorem wit_conversion_dot : (
    (let i : Instr := .vcvt 0 0x13 0x11 0 5 0 0; meets (put i (val .f16x4 0x3C00) {} {}) i fun t c => c.regs.fptrap == 0 && vecOk (some 0x13) [0x11] (cvtBad (Tag.ofCode 5) 0) t c)
      && (let i : Instr := .vdot 0 0x13 0x11 0x12 0x13 1; meets (put i (val .f16x4 1) (val .f16x4 2) (val .f32 3)) i fun t c => c.regs.fptrap == 0 && vecOk (some 0x13) [0x11, 0x12, 0x13] dotBad t c)
      && (let i : Instr := .vdot 0 0x13 0x11 0x12 0x13 0; meets (put i (val .i8x8 1) (val .i8x8 2) (val .i32 3)) i fun t c => vecOk (some 0x13) [0x11, 0x12, 0x13] dotBad t c)) = true := by decide +kernel

/-- CompareWritesPredicate, each way of combining. -/
theorem wit_vcmp : (
    [(0 : BitVec 2), 1, 2].all fun m => let i : Instr := .vcmp 0 2 0x11 0x12 m 2
      meets (put i (val .i32 0x80000000) (val .i32 1) {}) i fun t c => c.regs.fptrap == 0 && vecOk none [0x11, 0x12] (sameTag (cmpTags 2)) t c) = true := by decide +kernel

/-- IntegerCompareConditions. -/
theorem wit_integer_compare : (
    (val .n32 0xFFFFFFFF).tag.isInt) = true := by decide +kernel

/-- NanOperandsGiveCanonicalNan: a signalling NaN and a quiet one. -/
theorem wit_nan : (
    (FloatFmt.f32.read 0x7F800001).isNan && (FloatFmt.f32.read 0x7FC00000).isNan) = true := by decide +kernel

/-- FloatArithmeticResults and FloatSelectionResults: an infinity, a zero, a number, a whole number, a power of two and a half as they are read; a sum of opposite infinities and one of numbers; the roots. -/
theorem wit_float_operands : (
    let num : Machine.Num → Option (Bool × Nat × Int) := fun x => match x with
        | .fin s m e => some (s, m, e)
        | _ => none
      let inf : Machine.Num → Option Bool := fun x => match x with
        | .inf s => some s
        | _ => none
      let r (x : Nat) : Machine.Num := floatIn .f32 false x;
      inf (r 0xFF800000) == some true && inf (r 0x7F800000) == some false && (num (r 0)).any (fun x => x.2.1 == 0) && num (r 0x3F800000) == some (false, 2 ^ 23, -23) && num (r 0xC0400000) == some (true, 3 * 2 ^ 22, -22)
        && 2 ^ 23 * 2 ^ (-23 : Int).toNat == 1 * 2 ^ (23 : Int).toNat && (num (r 0x45800000)).any (fun x => 4096 * 2 ^ (-x.2.2).toNat ≤ x.2.1 * 2 ^ x.2.2.toNat)
        && (let j := 128 + ((-23 - 128 : Int) % 2).toNat; let q := Nat.sqrt (2 ^ 23 * 2 ^ j); q * q ≤ 2 ^ 23 * 2 ^ j && 2 ^ 23 * 2 ^ j < (q + 1) * (q + 1))) = true := by decide +kernel

/-- ConversionAndDotResults: a NaN, an infinity and numbers read from a format; values that TT8 has, between two of them, and beyond. -/
theorem wit_conversion_operands : (
    let k := tt8Mags;
      (ElemFmt.float .f32 != .int 8 true) && ((ElemFmt.float .f32).read false 0x7FC00000).isNan && (match (ElemFmt.float .f32).read false 0x7F800000 with | .inf n => !n | _ => false)
        && (match (ElemFmt.float .f32).read false 0x40400000 with | .fin _ m e => magLt 2 0 m e | _ => false)
        && (match (ElemFmt.float .f32).read false 0x3F800000 with | .fin _ m e => k.any fun x => !magLt x (-6) m e && !magLt m e x (-6) | _ => false)
        && (match (ElemFmt.float .f32).read false 0x3F4CCCCD with | .fin _ m e => (k.zip (k.drop 1)).any fun q => magLt q.1 (-6) m e && magLt m e q.2 (-6) | _ => false)) = true := by decide +kernel

/-- PredicateAndTransferResults: the predicate words and the transfers. -/
theorem wit_predicates : (
    ([Instr.pand 0 7 0 1, .por 0 7 0 1, .pxor 0 7 0 1, .pandn 0 7 0 1].all fun i => meets (at' i) i fun _ _ => true)
      && (let i : Instr := .ptov 0 0x13; meets (at' i) i fun _ c => !c.badDst (Dst.ofCode 0x13))
      && (let i : Instr := .vtop 0 0x11; meets (put i (val .i64 255) {} {}) i (vecOk none [0x11] (sameTag Tag.isInt)))
      && (let i : Instr := .stov 0 0x13 1; meets (put i (val .f32 1) {} {}) i fun _ c => !c.badDst (Dst.ofCode 0x13) && (c.getS 1).tag != .poison)
      && (let i : Instr := .vretag 0 0x13 0x11 4; meets (put i (val .f64 1) {} {}) i (vecOk (some 0x13) [0x11] fun _ => none))) = true := by decide +kernel

/-- PredicateAndTransferResults, VTOS with and without an active lane. -/
theorem wit_vtos : (
    let i : Instr := .vtos 0 3 0x11;
      (meets (idle (at' i)) i fun _ c => c.active == [])
        && meets (put i (val .f32 1) {} {}) i fun t c => match c.active with
          | l :: _ => !c.badSrc (Src.ofCode 0x11) && okAnd (({ c.go with active := [l] } : Ctx).operands t [0x11]) fun o => (opnd ((tget o.vals l).getD []) 0).tag != .poison
          | [] => false) = true := by decide +kernel

/-- PredicateAndTransferResults, VSEL and VBFI. -/
theorem wit_vsel_vbfi : (
    (let i : Instr := .vsel 0 0x13 0x11 0x12 0 1; meets (put i (val .f32 1) (val .i32 2) {}) i fun t c => !c.badDst (Dst.ofCode 0x13) && okAnd (c.go.operands t [0x11, 0x12]) fun o => o.vals.all fun v => v.2.all fun x => x.tag != .poison)
      && (let i : Instr := .vbfi 0 0x13 0x11 0x12; meets (put i (val .n32 255) (val .i64 0x0804) (val .n32 7)) i fun t c => !c.badDst (Dst.ofCode 0x13) && okAnd (c.go.operands t [0x11, 0x12]) fun o =>
        c.active.all fun l => match tget o.vals l with
          | some [x, y] => x.tag.isInt && y.tag.isInt && ((c.regs.lane l).readDst (Dst.ofCode 0x13)).tag == x.tag
          | _ => false)) = true := by decide +kernel

/-- ControlWordEffects. -/
theorem wit_control_words : (
    ([Instr.nop 1, .trl 0 0x10 0x2F 0, .grd 0 0 1 7].all fun i => meets (at' i) i fun _ _ => true)
      && ([Instr.waitc 0 0 0 0 0, .yield 0, .elect 0 7].all fun i => meets (at' i) i fun _ c => c.active != [])
      && (let i : Instr := .trl 0 0x30 0x37 0; meets (handling (at' i) false) i fun _ c => c.handler)) = true := by decide +kernel

/-- ControlWordEffects, SETRL to a valid packet and to one before the first. -/
theorem wit_setrl : (
    (let i : Instr := .setrl 0 1; meets (at' i) i fun _ c => c.active != [] && validPacket (c.grp.packet + (1 : BitVec 21).signExtend 64))
      && (let i : Instr := .setrl 0 0x1FFFFF; meets (at' i) i fun _ c => c.active != [] && !validPacket (c.grp.packet + (0x1FFFFF : BitVec 21).signExtend 64))) = true := by decide +kernel

/-- CounterWaitParks, each counter one above its limit. -/
theorem wit_waitc_parks : (
    [((0 : BitVec 4), (15 : BitVec 4), (63 : BitVec 6), (15 : BitVec 4), ({ loads := 1 } : Counts)), (15, 14, 63, 15, { stores := 15 }), (15, 15, 62, 15, { copies := 63 }), (15, 15, 63, 0, { tileops := 1 })].all fun r =>
        let i : Instr := .waitc 0 r.1 r.2.1 r.2.2.1 r.2.2.2.1
        let s := crew (at' i) fun w => { w with regs := { w.regs with cnt := r.2.2.2.2 } }
        (s.ctx? i).any fun c => s.mayIssue c && c.crew.shadow.isNone && c.grp.snap.isNone && c.dueTrap.isNone && c.active != [] && c.chainNext.isNone && c.regs.cnt == r.2.2.2.2) = true := by decide +kernel

/-- TransferDecisions: BR, BRP, CALL; BRC on either side of its condition; the jumps. -/
theorem wit_branches : (
    ([Instr.br 0 1, .brp 0 0 1 1, .call 0 1].all fun i => meets (at' i) i fun _ _ => true)
      && ((List.range 8).all fun k => let i : Instr := .brc 0 (BitVec.ofNat 3 k) 1 1; !i.wellFormed || [0, 1, 2 ^ 63].all fun n => meets (put i (val .i64 n) {} {}) i fun _ c => (c.getS 1).tag.shiftable)
      && ([Instr.jmpi 0 0x11, .jmpiL 0 0x11].all fun i => meets (put i (val .n64 1) {} {}) i (vecOk none [0x11] (sameTag Tag.isPacket)))
      && (let i : Instr := .ret 0; meets (crew (at' i) fun w => { w with regs := { w.regs with lanes := w.regs.lanes.map fun l => { l with v := l.v.setIfInBounds 31 (val .n64 1) } } }) i fun _ c =>
        c.active.all fun l => ((c.regs.lane l).getV 31).tag == .n64)) = true := by decide +kernel

/-- TransferAtRunEnd with good and bad targets, and RunEndEffects with each kind of transfer, with a store before a return, and in a shadow whose lead has not left its run. -/
theorem wit_run_ends : (
    let s (k : Option TransferKind) : State := group (at' (.nop 0)) fun g => { g with atEnd := true, transfer := k.map fun k => { packet := 0, word := 0, active := 0xFF, kind := k } };
      [none, some (.jump 3 [(0, 2), (1, 3)]), some (.jump 1 [(0, 2 ^ 63)]), some (.exit 0xF), some (.freeze 1), some (.rte .retry)].all fun k =>
        (((s k).focus.bind fun r => (s k).carried r) == some (0, 0)) && match tget (s k).crews 0, tget (s k).blocks 0 with
          | some c, some b => c.id == 0 && c.storeQ.isEmpty && ((c.group? 0).map fun g => (s k).canIssue b c g && g.atEnd && (s k).onTrail c g) == some true
          | _, _ => false) = true := by decide +kernel

/-- RunEndEffects: a return behind a store, and a shadow's group whose lead has not left its run. -/
theorem wit_run_ends_wait : (
    let g (k : Option TransferKind) (s : State) : State := group s fun g => { g with atEnd := true, transfer := k.map fun k => { packet := 0, word := 0, active := 0xFF, kind := k } }
      let t := crew (g (some (.rte .retry)) (at' (.nop 0))) fun w => { w with storeQ := [{ id := 0, op := .st [] }] }
      let p := crew (g none (at' (.nop 0))) fun w => { w with shadow := some { partner := 4, isShadow := true } }
      let q : State := { p with crews := p.crews ++ ((tget p.crews 0).toList.map fun c => (4, { c with id := 4, shadow := some { partner := 0, isShadow := false } })) }
      let ok (s : State) (trail : Bool) : Bool := ((s.focus.bind fun r => s.carried r) == some (0, 0)) && match tget s.crews 0, tget s.blocks 0 with
        | some c, some b => c.id == 0 && ((c.group? 0).map fun g => s.canIssue b c g && g.atEnd && s.onTrail c g == trail) == some true
        | _, _ => false;
      ok t true && ok q false) = true := by decide +kernel

/-- EndingDecisions: EXIT, FREEZE, the returns. -/
theorem wit_endings : (
    (let i : Instr := .exit 0; (meets (idle (at' i)) i fun _ c => c.active == []) && (meets (at' i) i fun _ c => c.active != [] && !c.handler && c.crew.role == .normal)
        && (meets (handling (at' i) false) i fun _ c => c.active != [] && c.handler) && meets (crew (at' i) fun w => { w with role := .blockTemplate }) i fun _ c => c.active != [] && !c.handler && c.crew.role != .normal)
      && (let i : Instr := .freeze 0 1; meets (record (crew (at' i) fun w => { w with role := .launchTemplate }) fun r => { r with level := 2 }) i fun _ c => !c.handler && c.crew.role == .launchTemplate && c.record.level == 2 && (List.range c.crew.width).all c.active.contains)
      && (let i : Instr := .freeze 0 2; meets (record (crew (at' i) fun w => { w with role := .blockTemplate }) fun r => { r with level := 2 }) i fun _ c => !c.handler && c.crew.role == .blockTemplate && c.record.level == 2)
      && ([Instr.rteRetry 0, .rteCommit 0, .rteSkip 0].all fun i => (meets (idle (at' i)) i fun _ c => c.active == []) && (meets (handling (at' i) true) i fun _ c => c.active != [] && c.handler)
        && meets (at' i) i fun _ c => c.active != [] && !c.handler)) = true := by decide +kernel

/-- SoftwareTraps, with no active lane, outside and in handler mode. -/
theorem wit_software_traps : (
    [Instr.trap 0 0xFFF, .brk 0 0].all fun i => (meets (idle (at' i)) i fun _ c => c.active == []) && (meets (at' i) i fun _ c => c.active != [] && !c.handler)
      && meets (handling (at' i) true) i fun _ c => c.active != [] && c.handler) = true := by decide +kernel

/-- IllegalWordsTrap: a word of no instruction, and a field value that is illegal, within a chain group and where one begins. -/
theorem wit_illegal_words : (
    [Instr.illegalOpcodeWord 0x7FFFFFFF, .freeze 0 3].all fun i => [none, some ({} : CrewRegs)].all fun k => let s := group (at' i) fun g => { g with snap := k }
      (s.ctx? i).any fun c => !isEvent i && s.mayIssue c && (c.grp.snap.isSome || (c.dueTrap.isNone && (s.chainWait c i).isNone)) && (i == .illegalOpcodeWord 0x7FFFFFFF || !i.wellFormed)) = true := by decide +kernel

/-- ControlRegisterPrivilege, at the ends of both ranges, and with no active lane. -/
theorem wit_csr_privilege : (
    [(0x800 : BitVec 12), 0x803, 0x400, 0x406].all fun r => [Instr.csrr 0 3 r, .csrw 0 3 r, .csrs 0 3 r, .csrc 0 3 r].all fun i =>
      (meets (at' i) i fun _ c => c.active != [] && !c.crew.inSupervisor c.grp && !c.handler) && meets (idle (at' i)) i fun _ c => c.active == []) = true := by decide +kernel

/-- ControlRegisterWords: %clk in a STRICT launch and outside one, and %tile with a code that the crew's width holds and one that it does not. -/
theorem wit_csr_words : (
    (let i : Instr := .csrr 0 3 0x024; (meets (record (at' i) fun r => { r with strict := true }) i fun _ c => c.active != [] && (c.csrProt 0x024).isNone && c.record.strict) && meets (at' i) i fun _ c => c.active != [] && (c.csrProt 0x024).isNone && !c.record.strict)
      && ([Instr.csrw 0 1 0x104, .csrs 0 1 0x104, .csrc 0 1 0x104].all fun i => [0, 3, 4, 7].all fun n => meets (put i (val .n64 n) {} {}) i fun _ c => c.active != [] && (c.csrProt 0x104).isNone && (c.getS 1).tag.isInt && c.crew.width == 8)) = true := by decide +kernel

/-- ControlRegisterFields. -/
theorem wit_csr_fields : (
    (tget (at' (.nop 0)).crews 0).isSome) = true := by decide +kernel

/-- ShuffleResults, over the whole tile, in tiles of four beside another group, and in the permissive form with half of the lanes guarded off. -/
theorem wit_shuffles : (
    shuffleRows.all fun r =>
      let ok (c : Ctx) (g : Gathered) (p : BitVec 1) : Bool := (g.lanes.all fun l => (g.b (g.index r.2.2 l)).tag.isInt)
        && (g.lanes.all fun l => !(g.present l).contains (g.source r.2.1 r.2.2 l) || (g.a (g.source r.2.1 r.2.2 l)).tag != .poison)
        && (p == 1 || g.lanes.all fun l => (g.present l).contains (g.source r.2.1 r.2.2 l)) && c.active != []
      let i := r.1 0 0x13 0x11 0x12 0 0
      let j := r.1 0 0x13 0x11 0x32 1 3
      let k := r.1 0 0x13 0x11 0x12 0 0
      (crosses i (put i (val .f32 1) (val .i32 0xFFFFFFFF) {}) 0x13 [0x11, 0x12] 0 0 fun c g => ok c g 0)
        && (crosses j (group (put j (val .f32 1) (val .i32 2) (val .m64 0xFF)) fun g => { g with guards := [{ allow := 0x35, left := 1 }] }) 0x13 [0x11, 0x32] 0 3 fun c g => ok c g 1)
        && crosses k (group (twoGroups (put k (val .f32 1) (val .n64 1) {})) fun g => { g with tileCode := 2 }) 0x13 [0x11, 0x12] 0 0 fun c g => ok c g 0) = true := by decide +kernel

/-- VoteResults, over the whole tile, under a mask, and in handler mode. -/
theorem wit_votes : (
    voteRows.all fun r => let i := r.1 0 0x13 1 0
      let j := r.1 0 0x13 7 3
      (crosses i (at' i) 0x13 [] 1 0 fun _ _ => true)
        && (crosses j (group (put j {} {} (val .m64 0x35)) fun g => { g with guards := [{ allow := 0x35, left := 1 }] }) 0x13 [] 7 3 fun c _ => c.active.length == 4)
        && crosses i (handling (twoGroups (at' i)) false) 0x13 [] 1 0 fun c _ => c.handler) = true := by decide +kernel

/-- ReductionResults, on integer and float tags. -/
theorem wit_reductions : (
    let one (f : Tag → Bool) (g : Gathered) : Bool := (g.lanes.all fun l => f (g.a l).tag) && g.lanes.all fun l => (g.present l).all fun k => (g.a k).tag == (g.a l).tag
      let tiled (g : Gathered) : Bool := g.tile == 2 ^ Nat.log2 g.tile
      (sumRows.all fun r => let i := r.1 0 0x13 0x11 0; (crosses i (put i (val .i16x4 0x8000FFFF00017FFF) {} {}) 0x13 [0x11] 0 0 fun _ g => one Tag.anyInt g && tiled g)
          && crosses i (put i (val .f32 0x7F7FFFFF) {} {}) 0x13 [0x11] 0 0 fun _ g => one Tag.isFloat g && tiled g)
        && (pickOfRows.all fun r => let i := r.1 0 0x13 0x11 0; (crosses i (put i (val .i32 0x80000000) {} {}) 0x13 [0x11] 0 0 fun _ g => one Tag.anyInt g)
          && crosses i (put i (val .f16x4 0x7E008000FC000001) {} {}) 0x13 [0x11] 0 0 fun _ g => one Tag.isFloat g)
        && (bitOfRows.all fun r => let i := r.1 0 0x13 0x11 0; crosses i (put i (val .f64 5) {} {}) 0x13 [0x11] 0 0 fun _ g => g.lanes.all fun l => (g.a l).tag != .poison)
        && (let i : Instr := .xmatch 0 0x13 0x11 0; crosses i (put i (val .f64 5) {} {}) 0x13 [0x11] 0 0 fun _ g => g.lanes.all fun l => (g.a l).tag != .poison)) = true := by decide +kernel

/-- RendezvousWaits: two groups of one tile. -/
theorem wit_rendezvous : (
    voteRows.all fun r => let i := r.1 0 0x13 1 0
      let s := twoGroups (at' i)
      (s.ctx? i).any fun c => s.mayIssue c && c.crew.shadow.isNone && i.wellFormed && c.grp.snap.isNone && c.dueTrap.isNone && c.grp.joined.isNone && !c.handler && c.chainNext.isNone
        && !c.unready i && !c.badDst (Dst.ofCode 0x13) && match c.crew.group? 1 with
          | some g => c.crew.groups.contains g && g.id != c.grp.id && g.wait != some .rendezvous
            && (c.crew.groupLanes g).any fun l => (c.crew.groupLanes c.grp).any fun k => l / tileWidth c.crew.width c.grp.tileCode == k / tileWidth c.crew.width c.grp.tileCode
          | none => false) = true := by decide +kernel

/-- LoadIssues, with a 16-byte load at the end of the block's scratchpad, one of vault, and with no active lane. -/
theorem wit_ld : (
    let i : Instr := .ld 0 0x14 0x11 0 4 0 1 0
      let j : Instr := .ld 0 0x14 0x11 1 2 5 0 1
      let ok (i : Instr) (s : State) (p m : BitVec 2) (z : BitVec 3) (idle : Bool) : Bool := meets s i fun t c => !c.badDst (Dst.ofCode 0x14) && !c.badSrc (Src.ofCode 0x11) && !(Src.ofCode 0x11).isConst && (memSize z != 16 || pairCode 0x14)
        && (c.active == []) == idle && okAnd (c.go.operands t [0x11]) fun v => v.vals.all fun x => (opnd x.2 0).tag.isInt && (located t c p m (memSize z) false x).isSome
      ok i (put i (val .i64 (16384 - 16)) {} {}) 0 0 4 false && ok j (withVault (put j (val .i64 0x100000) {} {}) true) 1 1 2 false && ok i (idle (at' i)) 0 0 4 true) = true := by decide +kernel

/-- StoreIssues, with a pair of registers, untyped, and with no active lane. -/
theorem wit_st : (
    let i : Instr := .st 0 0x12 0x11 0 4 0 1 0
      let j : Instr := .st 0 0x13 0x11 0 0 1 2 0
      let ok (i : Instr) (s : State) (d : BitVec 6) (codes : List (BitVec 6)) (z : BitVec 3) (ty : Nat) (m : BitVec 2) (idle : Bool) : Bool := meets s i fun t c => !c.badSrc (Src.ofCode d) && !c.badSrc (Src.ofCode 0x11) && !(Src.ofCode 0x11).isConst
        && (memSize z != 16 || pairCode d) && c.crew.storeQ.length < 32 && (c.active == []) == idle && okAnd (c.go.operands t codes) fun v =>
          (v.vals.all fun x => (opnd x.2 0).tag.isInt && ((x.2.drop 1).all fun y => y.tag != .poison && (Tag.ofCode ty == .raw || y.tag == Tag.ofCode ty)) && (located t c 0 m (memSize z) true x).isSome)
            && (newly c (v.vals.filterMap (located t c 0 m (memSize z) true)) (memSize z)).length ≤ (c.blk.side c.crew.side).pool
      ok i (put i (val .i64 0) (val .f32 3) (val .m64 4)) 0x12 [0x11, 0x12, 0x13] 4 0 0 false && ok j (put j (val .i64 16383) {} (val .i32 3)) 0x13 [0x11, 0x13] 0 1 0 false
        && ok i (idle (at' i)) 0x12 [0x11, 0x12, 0x13] 4 0 0 true) = true := by decide +kernel

/-- AtomicIssues: CAS on a pair of 8-byte values, and FADD in a launch that is not STRICT. -/
theorem wit_atom : (
    let cas : Instr := .atom 0 0x12 0x11 0 3 10 2 0
      let fadd : Instr := .atom 0 0x12 0x11 0 2 1 0 1
      let ok (i : Instr) (s : State) (codes : List (BitVec 6)) (z : BitVec 3) (m : BitVec 2) (op : AtomOp) : Bool := meets s i fun t c => !c.badSrc (Src.ofCode 0x11) && !(Src.ofCode 0x11).isConst && c.active != [] && c.crew.storeQ.length < 32
        && (c.crew.seq - c.crew.tickets.headD c.crew.seq).toNat < 2 ^ 15 && (op != .fadd || !c.record.strict) && okAnd (c.go.operands t codes) fun v =>
          (v.vals.all fun x => (opnd x.2 0).tag.isInt && op.takes (memSize z) (opnd x.2 1).tag && (op != .cas || (opnd x.2 2).tag == (opnd x.2 1).tag) && (located t c 0 m (memSize z) true x).isSome)
            && (newly c (v.vals.filterMap (located t c 0 m (memSize z) true)) (memSize z)).length ≤ (c.blk.side c.crew.side).pool
      AtomOp.ofCode 10 == .cas && ok cas (put cas (val .i64 8) (val .i64 1) (val .i64 2)) [0x11, 0x12, 0x13] 3 0 .cas && AtomOp.ofCode 1 == .fadd
        && ok fadd (put fadd (val .i64 0x80) (val .f32 0x3F800000) {}) [0x11, 0x12] 2 1 .fadd) = true := by decide +kernel

/-- AddressChecks: each check at the end of its range; vault pages that do not exist, that are not vault, that may not be written, and one that passes. -/
theorem wit_addresses : (
    let s := withVault (at' (.nop 0)) false;
      match tget s.blocks 0, tget s.partitions 1 with
      | some b, some p =>
        let e : AddrEnv := { pid := 1, lid := 0, block := b, core := 0 }
        b.ts + b.p + b.ch == 16384 && s.addrCheck e 0 16383 2 false == .align && s.addrCheck e 0 16376 8 true == .ok (.spad 16376) 16376 && s.addrCheck e 0 16384 8 true == .bounds
          && (p.page? 0x200000).isNone && s.addrCheck e 1 0x200000 8 false == .bounds && ((p.page? 0).map (·.vault)) == some false && s.addrCheck e 1 0 8 false == .bounds
          && ((p.page? 0x10FFF8).map fun g => g.vault && !g.writable) == some true && (s.slice (vaultSlice 0x20000)).fwPid == e.pid && s.addrCheck e 1 0x10FFF8 8 true == .prot 5
          && !s.vaultWorldBad e.lid e.block.beta 0x10FFF8 8 false && s.addrCheck e 1 0x10FFF8 8 false == .ok (.vault 0x2FFF8) 0x10FFF8
      | _, _ => false) = true := by decide +kernel

/-- AccessesPerform: a load of two lanes, the first and the last of which may return, behind an earlier store and before a later one; the same with SC, behind no store; and one whose vault the firewall refuses. -/
theorem wit_load_returns : (
    let ls : List (Nat × Loc) := [(0, .spad 0), (1, .spad 4)]
      let e (k : Nat) : StoreEnt := { id := k, op := .st [(0, .spad 0, [1, 2, 3, 4])] };
      [(false, ls, [e 1, { e 5 with acquire := true }], 0, false), (true, ls, [{ e 5 with acquire := true }], 1, false), (false, [(0, .vault 0x20000)], [], 1, false), (false, [(0, .vault 0x20000)], [], 0, true)].all fun (sc, ls, q, pid, refused) =>
        let l : LoadOp := { id := 3, ty := .i32, size := 4, dest := 0x13, lanes := ls, acquire := sc, sc := sc }
        let s := (crew (at' (.nop 0)) fun w => { w with loads := [l], storeQ := q }).modSlice 0 fun x => { x with fwPid := 1, fwTab := [pid] };
        (tget s.crews 0).any fun c => c.id == 0 && c.shadow.isNone && c.loads == [l] && l.gen == c.gen && (tget l.lanes 0).isSome
          && (c.storeQ.all fun e => l.id ≤ e.id || (!e.acquire && !l.sc && match e.op with | .st _ => true | _ => false)) && !s.acquireDue c l.id && (!l.sc || !s.vaultDue c (scopeOf l.lanes))
          && (tget l.lanes 0).any fun x => s.vaultRefused c.core (s.pidOf c.launch) (s.placeOf c false x) == refused) = true := by decide +kernel

/-- AccessesPerform: a store of two lanes to scratchpad and one to vault, each in any order and with release, behind nothing; the arrival of one behind an earlier store to other bytes, and one that the firewall refuses. -/
theorem wit_store_performs : (
    let on : List VaultPend := [{ crew := 0, id := 1, gran := 0x2000, writes := [(0x20000, [1, 2])], seq := 5 }, { crew := 0, id := 2, gran := 0x2000, writes := [(0x20002, [3, 4]), (0x20008, [5])], seq := 6 }];
      ([[((0 : Nat), Loc.spad 8, [(1 : Byte)]), (3, .spad 8, [2])], [(0, .vault 0x20000, [1, 2]), (7, .vault 0x20002, [3, 4])]].all fun lanes => [false, true].all fun rel =>
        let e : StoreEnt := { id := 1, op := .st lanes, release := rel, scope := 4 }
        let s := crew (at' (.nop 0)) fun w => { w with storeQ := [e], loads := [{ id := 3, ty := .i32, size := 4, dest := 0x13, lanes := [] }] }
        (tget s.crews 0).any fun c => c.id == 0 && c.storeQ.head? == some e && (c.loads.all fun l => e.id ≤ l.id) && !s.acquireDue c e.id && lanes != []
          && (!e.release || (!s.vaultDue c e.scope && (s.core c.core).ferry.all fun x => x.2.crew != 0 || x.2.ticket.isNone || e.id ≤ x.2.seq)))
      && ([(1, false), (0, true)].all fun (pid, refused) =>
        let t := (at' (.nop 0)).modCore 0 (fun r => { r with vaultPend := on }) |>.modSlice 0 fun x => { x with fwPid := 1, fwTab := [pid] }
        match (t.core 0).vaultPend[1]? with
          | some v => (((t.core 0).vaultPend ++ (t.core (mateCore 0)).vaultPend.filter fun u => u.twin || v.twin).all fun u => v.seq ≤ u.seq || !u.overlaps v) && t.vaultRefused 0 (t.slice 0).fwPid (.vault (16 * v.gran)) == refused
          | none => false)) = true := by decide +kernel

/-- AccessesPerform: an atomic on scratchpad and one of two lanes on vault, with release, behind the filter of their home; and the reply. -/
theorem wit_atomic_performs : (
    let cas (ls : List (Nat × Loc)) : StoreEnt := { id := 5, op := .atom .cas 4 2 (ls.map fun x => { lane := x.1, loc := x.2, operand := val .i32 0, second := val .i32 7 }), release := true, scope := 4, ticket := some 0 };
      ([[(1, Loc.spad 16380)], [(1, .vault 0x20000), (3, .vault 0x20004)]].all fun ls =>
        let ent := cas ls
        let s := owned (crew (at' (.nop 0)) fun w => { w with storeQ := [ent] })
        (tget s.crews 0).any fun c => c.id == 0 && c.storeQ.head? == some ent && c.loads.isEmpty && !s.acquireDue c ent.id && !s.vaultDue c ent.scope && (s.core c.core).ferry.isEmpty
          && (let homes := s.openVaults c ent
              let t := ((homes.map fun v => vaultHome v.2 / 32).eraseDups).foldl (fun u k => u.filterRetire k .vault (s.ticketKey c.launch ent.ticket) ent.hor) s;
              homes.length == (if ls.length == 2 then 2 else 0) && (homes.all fun v => (s.vaultView c.core).all fun u => !u.meets v.2 4) && t.filtersHaveRoom c ent homes))
        && (let r : Reply := { id := 5, rd := some 2, sd := none, lanes := [(1, val .i32 0)], ticket := some 0, ent := cas [(1, .spad 16380)] }
            let t := crew (at' (.nop 0)) fun w => { w with replies := [r] };
            (tget t.crews 0).any fun c => c.id == 0 && c.shadow.isNone && (c.replies.find? fun x => x.id == r.id) == some r && r.gen == c.gen)) = true := by decide +kernel

/-- AccessesPerform: an update on its way to a landing in scratchpad, one of a block that has gone, and one to a vault that the firewall keeps closed. -/
theorem wit_landing_update : (
    [(LandHome.spad 0 0 16, false, true), (.spad 9 0 16, false, false), (.vault 0x20000, true, true)].all fun (h, refused, exist) =>
      let u : LandUpd := { home := h, op := .arrive, pid := 1 }
      let s := { at' (.nop 0) with landUpds := [u] }
      let t : State := { s with landUpds := s.landUpds.eraseIdx 0 }
      s.landUpds[0]? == some u && u.after.isNone && u.owner.isNone && s.saved.isEmpty && t.vaultRefused ((t.updateCore u).getD (32 * vaultSlice u.home.place.start)) u.pid u.home.place == refused && t.homeExists u.home == exist) = true := by decide +kernel

/-- AccessesPerform: the last element that a lane may have ahead. -/
theorem wit_stream_fetch : (
    let d : List Byte := bytesOfNat 8 0 ++ [5, 2] ++ bytesOfNat 2 100 ++ bytesOfNat 4 0 ++ bytesOfNat 4 4 ++ bytesOfNat 12 0
      let st : StreamInst := { desc := d, width := 8, pos := List.replicate 8 0, fetched := List.replicate 15 (7, 0, {}, none), setAt := 4 }
      let s := crew (at' (.nop 0)) fun w => { w with streams := [(3, st)] };
      (tget s.crews 0).any fun c => tget c.streams 3 == some st && (tget s.blocks c.block).isSome && 7 < st.width && !c.frozen && c.replay.isEmpty && !s.elementsHeld c st
        && (st.fetched.filter fun f => f.1 == 7).length < 16 && st.pos.getD 7 0 + (st.fetched.filter fun f => f.1 == 7).length < (streamDesc st.desc).total) = true := by decide +kernel

/-- SynchronisationWords: FENCE; PUBLISH of the block's own berth and of an empty one; with T in a block of one core and in a twin. -/
theorem wit_synchronisation : (
    let berth (k : Nat) : Berth := { block := k, install := 1, base0 := 0, base1 := 256, size := 256, vault := false, visible := false }
      let own (s : State) : State := core s fun r => { r with berths := [(15, berth 0)] }
      let twin (s : State) : State := (block (own s) fun b => { b with sides := b.sides ++ [{ core := 1 }] }).modCore 1 fun r => { r with berths := [(15, berth 0)] }
      let p0 : Instr := .publish 0 15 0
      let p1 : Instr := .publish 0 15 1;
      (let i : Instr := .fence 0 5; meets (at' i) i fun _ c => c.active != [])
        && (meets (own (at' p0)) p0 fun t c => c.active != [] && ((tget (t.core c.crew.core).berths 15).map (·.block)) == some c.blk.id)
        && (meets (at' p0) p0 fun t c => c.active != [] && (tget (t.core c.crew.core).berths 15).isNone)
        && (meets (at' p1) p1 fun _ c => c.active != [] && !c.blk.isTwin)
        && meets (twin (at' p1)) p1 fun t c => c.active != [] && c.blk.isTwin && c.blk.sides.all fun x => ((tget (t.core x.core).berths 15).map (·.block)) == some c.blk.id) = true := by decide +kernel

/-- SynchronisationWords: BERTH.SET of a valid descriptor over nothing, over the block's own entry, and over another block's; BERTH.CLR of each. -/
theorem wit_berths : (
    let d : List Byte := bytesOfNat 8 0 ++ bytesOfNat 8 256 ++ bytesOfNat 4 256 ++ bytesOfNat 12 2
      let berth (k : Nat) : Berth := { block := k, install := 1, base0 := 0, base1 := 256, size := 256, vault := false, visible := false }
      let own (k : Nat) (s : State) : State := core s fun r => { r with berths := [(0, berth k)] }
      let i : Instr := .berthSet 0 0 1
      let j : Instr := .berthClr 0 0
      let s := withSpad (put i (val .i64 1024) {} {}) 1024 d;
      ([s, own 0 s, own 7 s].all fun s => meets s i fun t c => c.active != [] && descOk t c 1 32 (t.berthValid c.go))
        && ([none, some 0, some 7].all fun k => let s := match k with
          | none => at' j
          | some k => own k (at' j)
          meets s j fun t c => c.active != [] && ((tget (t.core c.crew.core).berths 0).map (·.block)) == k)) = true := by decide +kernel

/-- SynchronisationWords: LND updates of the last landing of the scratchpad with the greatest count, LND.TEST, and LND.WAIT on a landing whose status is ok and on one whose is not. -/
theorem wit_landings : (
    let last := 16384 - 16
      let rows : List (Instr × Nat × Bool) := [(.lndInit 0 1 2 4, 4095, true), (.lndExpectIn 0 1 2 4, 2 ^ 48 - 1, true), (.lndExpectOut 0 1 2 4, 2 ^ 48 - 1, true), (.lndArrive 0 3 1 4, 0, true), (.lndTest 0 3 1 4, 0, false), (.lndWait 0 1 2 4, 1, false)];
      (rows.all fun r => meets (put r.1 (val .n64 last) (val .n64 r.2.1) {}) r.1 fun _ c => c.active != [] && (c.getS 1).tag == .n64 && (c.getS 1).bits.toNat == last && (c.getS 2).tag.isInt && (c.getS 2).toUnsigned == r.2.1
          && last + 16 ≤ c.blk.ts + c.blk.p + c.blk.ch && c.crew.storeQ.length < 32 && (c.blk.newClaims c.crew.side [(last, 16)]).length ≤ (c.blk.side c.crew.side).pool)
        && (let i : Instr := .lndWait 0 1 2 4; meets (withSpad (put i (val .n64 last) (val .n64 0) {}) last [0, 0, 0, 0x20]) i fun t c => (Landing.ofBytes (t.crewBytes c.crew c.crew.nextOp (.spad c.crew.block c.crew.side last) 16)).st == 2)) = true := by decide +kernel

/-- SynchronisationWords: STRM.SET of a valid and of an invalid descriptor, and STRM.STOP. -/
theorem wit_streams : (
    let d (n : Nat) : List Byte := bytesOfNat 8 0 ++ [5, 2] ++ bytesOfNat 2 n ++ bytesOfNat 4 0 ++ bytesOfNat 4 4 ++ bytesOfNat 12 0
      let i : Instr := .strmSet 0 1 3
      let j : Instr := .strmStop 0 3
      let s (n : Nat) : State := withSpad (put i (val .i64 1024) {} {}) 1024 (d n);
      (meets (s 100) i fun t c => c.active != [] && descOk t c 1 32 (t.streamValid c.go)) && (meets (s 0) i fun t c => c.active != [] && descOk t c 1 32 fun d => !t.streamValid c.go d)
        && meets (at' j) j fun _ c => c.active != []) = true := by decide +kernel

/-- TileAndMmaWordsEnter: MOVTS of a valid record, MOVST of a tile that exists and of one that does not, TZERO, TCVT. -/
theorem wit_shape_words : (
    let ok : DWord := shape 2 64 64 3 15
      let i : Instr := .movts 0 3 1;
      (meets (tiled (put i (val .raw ok.toNat) {} {}) (List.replicate 4 0)) i fun _ c => c.active != [] && ((c.getS 1).tag.isInt || (c.getS 1).tag == .raw) && 3 < (ownSide c).tileCount && (Shape.ofBits (c.getS 1).bits).valid (ownSide c).tileCount (tileBytesOf c))
        && (let i : Instr := .movst 0 3 3; meets (tiled (at' i) (List.replicate 4 ok)) i fun _ c => c.active != [] && ((ownSide c).shapes[3]?).isSome)
        && (let i : Instr := .movst 0 3 4; meets (tiled (at' i) (List.replicate 4 ok)) i fun _ c => c.active != [] && ((ownSide c).shapes[4]?).isNone)
        && (let i : Instr := .tzero 0 0; meets (tiled (at' i) (List.replicate 4 ok)) i fun _ c => c.active != [] && ((ownSide c).view (tileBytesOf c) 0).isSome)
        && (let i : Instr := .tcvt 0 0 1 3 4; meets (tiled (at' i) (List.replicate 4 ok)) i fun _ c => c.active != [] && match (ownSide c).view (tileBytesOf c) 0 with
          | some old => (Shape.ofBits old).fmt != 10 && (Shape.ofBits ((old &&& ~~~0xF#64) ||| 4)).rows * (Shape.ofBits ((old &&& ~~~0xF#64) ||| 4)).pitch ≤ tileBytesOf c
          | none => false)) = true := by decide +kernel

/-- TileAndMmaWordsEnter: ACCZ, MCHK, ACCLD at its last 16 bytes, ACCST with scale, bias and clamps and with none. -/
theorem wit_accumulator_words : (
    let g := geometry 3 16 16 0 64;
      (let i : Instr := .accz 0 1; meets (tiled (put i (val .n64 g) {} {}) []) i fun _ c => c.active != [] && (c.getS 1).tag == .n64 && (AccGeo.ofBits (c.getS 1).bits (accBytes c.blk c.record)).isSome)
        && (let i : Instr := .mchk 0 3; meets (at' i) i fun _ c => c.active != [] && !c.blk.template)
        && (let i : Instr := .accld 0 1 2 0; meets (tiled (put i (val .i64 g) (val .i64 (16384 - 1024)) {}) []) i fun t c => c.active != [] && (c.getS 1).tag == .i64 && (c.getS 2).tag.isInt && match AccGeo.ofBits (c.getS 1).bits (accBytes c.blk c.record) with
          | some g => (c.getS 2).toAddress.toNat % g.fmt.bytes == 0 && g.pitch % g.fmt.bytes == 0 && g.cols * g.fmt.bytes ≤ g.pitch && okAnd (t.spanAt c 0 (c.getS 2).toAddress ((g.rows - 1) * g.pitch + g.cols * g.fmt.bytes) false) fun _ => true
          | none => false)
        && ([(false, (0 : BitVec 2), (0 : BitVec 1)), (true, 2, 1)].all fun (par, t, q) => let i : Instr := .accst 0 1 2 (if par then 3 else 0) 1 q q 0 0 1 t
          meets (tiled (put i (val .i64 g) (val .i64 0) (val .i64 8192)) []) i fun u c => c.active != [] && (c.getS 2).tag.isInt && (!par || (c.getS 3).tag.isInt) && match AccGeo.ofBits (c.getS 1).bits (accBytes c.blk c.record) with
            | some g => g.pitch % 2 == 0 && g.cols * 2 ≤ g.pitch && (!par || (c.getS 3).toAddress.toNat % 16 == 0 && (c.getS 3).toAddress.toNat + 16 + 8 * g.cols ≤ c.blk.ts + c.blk.p + c.blk.ch)
              && okAnd (u.spanAt c 0 (c.getS 2).toAddress ((g.rows - 1) * g.pitch + g.cols * 2) true) fun _ => true
            | none => false)) = true := by decide +kernel

/-- TileAndMmaWordsEnter: LDT and STT with a pitch equal to a row, ending with the scratchpad. -/
theorem wit_tile_copies : (
    [Instr.ldt 0 0 1 2 0, .stt 0 0 1 2 0].all fun i => meets (tiled (put i (val .i64 (16384 - 2048)) (val .i64 64) {}) (List.replicate 4 (shape 2 32 32 3 15))) i fun t c => c.active != [] && (c.getS 1).tag.isInt && (c.getS 2).tag.isInt
      && ((ownSide c).view (tileBytesOf c) 0 == some (shape 2 32 32 3 15)) && (c.getS 2).toInteger == 64 && okAnd (t.spanAt c 0 (c.getS 1).toAddress 2048 (i != .ldt 0 0 1 2 0)) fun _ => true) = true := by decide +kernel

/-- TileAndMmaWordsEnter: an FP16 MMA of the least size, and an FP8 one whose operands are scaled. -/
theorem wit_mma : (
    let big (s : State) (shapes : List DWord) : State := record (tiled s shapes) fun r => { r with tsize := 8 }
      let i : Instr := .mma 0 3 0 1 0 0 0 0 0;
      (meets (big (at' i) [shape 2 64 64 0 15, shape 2 64 16 1 15]) i fun _ c => c.active != [] && ((ownSide c).view (tileBytesOf c) 0).isSome && ((ownSide c).view (tileBytesOf c) 1).isSome && mmaK 2 2 == 64
          && 3 * 16384 + 64 * 16 * (mmaAcc 2).bytes ≤ accBytes c.blk c.record)
        && meets (big (at' i) [shape 4 64 128 0 2, shape 5 128 16 1 3, shape 10 64 4 2 15, shape 10 4 16 3 15]) i fun _ c => c.active != [] && ([0, 1, 2, 3].all fun k => ((ownSide c).view (tileBytesOf c) k).isSome) && mmaK 4 5 == 128) = true := by decide +kernel

/-- MmaEnters, with T in the leader of a twin block: a scaled FP8 one, of which each side takes half of the columns. -/
theorem wit_mma_twin : (
    let shapes := [shape 4 64 128 0 2, shape 5 128 16 1 3, shape 10 64 4 2 15, shape 10 4 16 3 15]
      let i : Instr := .mma 0 3 0 1 1 0 0 0 1
      let s := block (record (tiled (at' i) shapes) fun r => { r with tsize := 8 }) fun b => { b with sides := b.sides ++ [{ core := 1, shapes := shapes }] };
      meets s i fun _ c =>
        let scaled (sd : Side) (k q : Nat) : Bool := match sd.view (tileBytesOf c) k, sd.view (tileBytesOf c) q with
          | some r, some x => (Shape.ofBits r).scale == q && (Shape.ofBits x).fmt == 10
          | _, _ => false;
        c.active != [] && c.blk.isTwin && c.crew.side == 0 && mmaK 4 5 == 128 && scaled (ownSide c) 0 2 && scaled (ownSide c) 1 3 && scaled (c.blk.side 1) 1 3
          && 3 * 16384 + 64 * 16 * (mmaAcc 4).bytes ≤ accBytes c.blk c.record) = true := by decide +kernel

/-- TileOperationsRun: an operation that begins, a twin MMA that engages, operations that complete by rows and as a whole, MCHK. -/
theorem wit_tile_events : (
    let mma (t : Bool) : TileOp := .mma 0 (shape 2 64 64 0 15) (shape 2 64 16 1 15) none none none none 16 64 false true t
      let ent (op : TileOp) (st : Bool) : TileEnt := { id := 9, crew := 0, op := op, started := st }
      let with_ (op : TileOp) (st : Bool) : State := block (tiled (at' (.nop 0)) [shape 2 64 64 0 15]) fun b => { b with sides := b.sides.map fun x => { x with queue := [ent op st] } }
      let ok (s : State) (p : Block → TileEnt → Bool) : Bool := (tget s.blocks 0).any fun b => b.state == .running && (b.side 0).queue.head?.any fun e => !e.guest && !e.engaged && !s.tileReplays e && p b e;
      ok (with_ (.accz { base := 0, rows := 1, cols := 1, fmt := .i32, pitch := 0 }) false) (fun _ e => !e.started && (tget (with_ (mma false) false).crews e.crew).any fun c => (c.storeQ.all fun x => e.seq ≤ x.id) && !(with_ (mma false) false).acquireDue c e.seq)
        && ok (block (with_ (mma true) false) fun b => { b with sides := b.sides ++ [{ core := 1 }] }) (fun b e => b.isTwin && !e.started)
        && ok (with_ (.tzero (shape 2 64 64 0 15)) true) (fun b e => e.started && e.op.byRows && !(with_ (.tzero (shape 2 64 64 0 15)) true).tileVaultDue b 0 e)
        && ok (with_ (.mchk 3) true) (fun _ e => e.started && !e.op.byRows && ((tget (with_ (.mchk 3) true).crews e.crew).bind (·.shadow)).isNone)) = true := by decide +kernel

/-- MmaElements: FP16 operands make two groups of 32, INT8 ones an integer accumulator. -/
theorem wit_mma_elements : (
    let r (f : Nat) : MmaRun := { base := 0, nl := 16, neg := false, acd := true, sdA := { core := 0 }, ha := Shape.ofBits (shape f 64 64 0 15), sa := none, hb := Shape.ofBits (shape f 64 16 1 15), sb := none };
      (r 7).acc == .i32 && (r 2).acc != .i32 && (mmaGroup 2 2).1 * ((r 2).K / (mmaGroup 2 2).1) == (r 2).K && ((r 2).rowA 0).length == (r 2).K) = true := by decide +kernel

/-- ShapeAndGeometryRecords: a valid record and a valid geometry word. -/
theorem wit_shapes : (
    (Shape.ofBits (shape 2 64 64 3 15)).valid 4 16384 && (AccGeo.ofBits (BitVec.ofNat 64 (geometry 3 16 16 0 64)) 65536).isSome) = true := by decide +kernel

/-- CopyAndLaunchWords: FCOPY into scratchpad with a landing, and into a berth. -/
theorem wit_fcopy : (
    let d (dst flags spaces : Nat) : List Byte := bytesOfNat 8 0 ++ bytesOfNat 8 dst ++ [4, BitVec.ofNat 8 flags, BitVec.ofNat 8 spaces, 0] ++ bytesOfNat 4 16 ++ bytesOfNat 8 0 ++ bytesOfNat 4 16 ++ bytesOfNat 12 0 ++ bytesOfNat 4 16 ++ bytesOfNat 12 0
      let berth : Berth := { block := 0, install := 1, base0 := 0, base1 := 256, size := 256, vault := false, visible := false }
      [(engine (.fcopy 0 3 1 2 1) (d 16128 0 3), false), (core (engine (.fcopy 0 3 1 2 1) (d 0 4 1)) fun r => { r with berths := [(0, berth)] }, true)].all fun (s, inBerth) => let i : Instr := .fcopy 0 3 1 2 1
        meets s i fun t c => let ds := descOf t c 1 64
          let x := copyDesc ds
          let al := min (2 ^ min x.esize 8) 16
          let sr := boxRange x.src x.srcAxes x.bytes
          let dr := boxRange x.dst x.dstAxes x.bytes
          descGoodB t c 1 64 && landFieldGoodB c 2 1 && copyValid ds && x.src % al == 0 && x.dst % al == 0 && (x.dims.all fun y => y.src % (al : Int) == 0 && y.dst % (al : Int) == 0)
            && rangeGoodB c x.srcSpad sr.1 sr.2 false && rangeGoodB c x.dstSpad dr.1 dr.2 true && x.berth == inBerth && (if inBerth then (t.berthHidden c.go dr.1 dr.2) == some (false, 256) else x.dstSpad)) = true := by decide +kernel

/-- CopyAndLaunchWords: FGATH into scratchpad, FGATH into a berth, and FSCAT from scratchpad. -/
theorem wit_gather : (
    let d (list flags : Nat) : List Byte := bytesOfNat 8 0 ++ bytesOfNat 8 list ++ [4, BitVec.ofNat 8 flags, 2, 0] ++ bytesOfNat 4 16 ++ bytesOfNat 8 8192 ++ bytesOfNat 4 16 ++ bytesOfNat 28 0
      let e : List Byte := bytesOfNat 8 0 ++ bytesOfNat 8 0 ++ [4, 2, 0, 0] ++ bytesOfNat 4 16 ++ bytesOfNat 8 8192 ++ bytesOfNat 4 16 ++ bytesOfNat 28 0
      let berth : Berth := { block := 0, install := 1, base0 := 0, base1 := 256, size := 256, vault := false, visible := false }
      [(engine (.fgath 0 3 1 0 0) (d 16128 0), Instr.fgath 0 3 1 0 0, false, false), (core (engine (.fgath 0 3 1 0 0) e) fun r => { r with berths := [(0, berth)] }, .fgath 0 3 1 0 0, false, true),
        (engine (.fscat 0 3 1 0 0) (d 16128 8), .fscat 0 3 1 0 0, true, false)].all fun (s, i, scat, inBerth) =>
        meets s i fun t c => let ds := descOf t c 1 64
          let x := gathDesc ds
          let al := min (2 ^ min x.esize 8) 16
          let n := x.count * x.bytes
          descGoodB t c 1 64 && gathValid ds scat && x.table % al == 0 && x.list % al == 0 && x.iscale % al == 0 && x.idx % x.idxBytes == 0
            && rangeGoodB c true x.idx (x.idx + x.count * x.idxBytes : Nat) false && rangeGoodB c x.listSpad x.list (x.list + n : Nat) (!scat) && x.berth == inBerth
            && (if scat then x.declass else if inBerth then (t.berthHidden c.go x.list (x.list + n : Nat)) == some (false, 256) else x.listSpad)) = true := by decide +kernel

/-- TicketedWordsIssue: FATOM with a result place, FPUT, FPUTS, FGET to rank 2, every collective of four ranks, NMC with a landing. -/
theorem wit_ticketed : (
    let fa : List Byte := bytesOfNat 8 4096 ++ bytesOfNat 8 1 ++ bytesOfNat 8 0 ++ bytesOfNat 4 (16384 - 8) ++ [0, 1, 0, 0]
      let pu : List Byte := bytesOfNat 8 8192 ++ bytesOfNat 8 4096 ++ bytesOfNat 4 64 ++ bytesOfNat 2 2 ++ [3, 0] ++ bytesOfNat 8 0x10011 ++ bytesOfNat 32 0
      let co (bare : Bool) : List Byte := if bare then bytesOfNat 24 0 ++ bytesOfNat 2 0 ++ bytesOfNat 2 4 ++ bytesOfNat 2 1 ++ bytesOfNat 34 0
        else bytesOfNat 8 8192 ++ bytesOfNat 8 12288 ++ bytesOfNat 4 16 ++ [0, 3, 0, 0] ++ bytesOfNat 2 0 ++ bytesOfNat 2 4 ++ bytesOfNat 2 1 ++ bytesOfNat 34 0
      let nm : List Byte := bytesOfNat 8 0 ++ bytesOfNat 2 256 ++ bytesOfNat 2 512 ++ bytesOfNat 2 16 ++ [0, 128] ++ bytesOfNat 8 4096 ++ bytesOfNat 8 0;
      (let i : Instr := .fatom 0 3 1 2 1; meets (engine i fa) i fun t c => let x := fatomDesc (descOf t c 1 32)
          descGoodB t c 1 32 && landFieldGoodB c 2 1 && fatomValid (descOf t c 1 32) && x.addr % x.size == 0 && (x.res == some 16376 && rangeGoodB c true 16376 16384 true) && x.op.takes x.size x.tag
            && !t.leavesGlobal c.go x.addr x.size && x.op != .fadd)
        && ([(Instr.fput 0 3 1 2 1, false, false), (.fputs 0 3 1 2 1, true, false), (.fget 0 3 1 2 1, false, true)].all fun (i, sum, get) => meets (ranked (engine i pu)) i fun t c => let x := putDesc (descOf t c 1 64)
          descGoodB t c 1 64 && landFieldGoodB c 2 1 && putValid (descOf t c 1 64) sum && x.loc % 16 == 0 && x.remote % 16 == 0 && x.rl && x.rland / 2 % 8 == 0
            && rangeGoodB c x.spad x.loc (x.loc + x.bytes : Nat) get && (t.rankOf c.crew.launch x.rank).isSome && x.spad && !t.leavesToPeer c.go x.rank x.declass)
        && ([(Instr.collAllred 0 3 1 2 1, EngOp.collAllred), (.collAllgath 0 3 1 2 1, .collAllgath), (.collRedscat 0 3 1 2 1, .collRedscat), (.collBcast 0 3 1 2 1, .collBcast), (.collCbar 0 3 1 2 1, .collCbar)].all fun (i, op) =>
          meets (ranked (engine i (co (op == .collCbar)))) i fun t c => let ds := descOf t c 1 64
            let x := collDesc ds
            descGoodB t c 1 64 && landFieldGoodB c 2 1 && collValid ds op && match t.contextOf c.crew.launch with
              | none => false
              | some ctx => let z := collSizes op x ctx.own
                (op == .collCbar || (x.send % collBytes x.etype == 0 && x.recv % collBytes x.etype == 0 && rangeGoodB c x.recvSpad x.recv (x.recv + z.2 : Nat) true && x.recvSpad))
                  && (z.1 == 0 || rangeGoodB c x.sendSpad x.send (x.send + z.1 : Nat) false) && (x.ranks.all fun k => (t.rankOf c.crew.launch k).isSome && !t.leavesToPeer c.go k x.declass) && x.ranks.contains ctx.own
                  && x.ranks.contains x.root && ((t.core c.crew.core).freeSlot c.cid).isSome && (c.crew.seq - c.crew.tickets.headD c.crew.seq).toNat < 2 ^ 15)
        && (let i : Instr := .nmc 0 3 1 2; meets (engine i nm) i fun t c => let x := nmcDesc (descOf t c 1 32)
          let at_ := (c.getS 2).toAddress.toNat
          descGoodB t c 1 32 && (c.getS 2).tag.isInt && nmcValid (descOf t c 1 32) && x.dst % x.bytes == 0 && x.reads == (true, true) && x.s1 % x.bytes == 0 && x.s2 % x.bytes == 0 && at_ % 16 == 0
            && rangeGoodB c true at_ (at_ + 16 : Nat) true && x.lp && x.land / 2 % 8 == 0 && x.land % 2 == 0 && x.land + 16 ≤ c.blk.ts + c.blk.p + c.blk.ch && !t.leavesGlobal c.go x.granule 65536)) = true := by decide +kernel

/-- CopyAndLaunchWords: FPREF; FCANCEL of nothing and of a transfer that runs; LAUNCH into a queue with room. -/
theorem wit_other_engine_words : (
    let cmd : FerryCmd := { op := .fcopy, crew := 0, block := 0, handle := 0, desc := bytesOfNat 16 0 ++ [4, 0, 3, 0] ++ bytesOfNat 4 16 ++ bytesOfNat 40 0, total := 256, prog := 64 }
      let q : Queue := { pid := 1, qnum := 5, desc := 0, ring := 0x4000, log2n := 4, ceil := 0, launchMode := true, ctx := ctxKey 1 0, dbell := 0, home := 0, tail := 15 };
      (let i : Instr := .fpref 0 1 2 2; meets (put i (val .i64 0) (val .i64 64) {}) i fun _ c => c.active != [] && (c.getS 1).tag.isInt && (c.getS 2).tag.isInt)
        && ([false, true].all fun b => let i : Instr := .fcancel 0 3 1; meets (core (put i (val .n64 0) {} {}) fun r => { r with ferry := if b then [(0, cmd)] else [] }) i fun t c => c.active != [] && (c.getS 1).tag == .n64
            && ((t.core c.crew.core).ferry.any fun x => x.2.crew == c.cid && x.2.handle == (c.getS 1).bits && !x.2.done && x.2.ending.isNone && x.2.op.cancels) == b)
        && (let i : Instr := .launch 0 3 1 2; meets ({ withSpad (put i (val .i64 1024) (val .i64 5) {}) 1024 [1] with queues := [q] }) i fun t c => descGoodB t c 1 128 && (c.getS 2).tag.isInt
            && t.queue? c.pid (c.getS 2).toAddress.toNat == some q && ((tget t.launches c.crew.launch).map (·.ctx)) == some q.ctx && c.record.key == 0 && (q.tail - q.head).toNat < 2 ^ q.log2n)) = true := by decide +kernel

/-- IssueOpportunities: a free stream with an eligible group in the middle of its run, and at a run start whose run check passes and fails. -/
theorem wit_issue_opportunity : (
    let s (f : Group → Group) : State := core (group (at' (.trl 0 0 0 0)) f) fun r => { r with streams := [] }
      let r : StreamRef := { core := 0, half := 0, stream := 1 }
      let ok (s : State) (p : Group → Bool) : Bool := (tget (s.core r.core).streams (2 * r.half + r.stream)).isNone && (s.selected r).any fun x => p x.2;
      ok (s id) (fun g => g.final.isSome) && ok (s fun g => { g with final := none }) (fun g => g.final.isNone && !g.atEnd
          && ((s fun g => { g with final := none }).runPackets 0 g.packet 8).any fun ps => okAnd (runCheck ps) fun _ => true)
        && ok (s fun g => { g with final := none, packet := 1 }) fun g => g.final.isNone && !g.atEnd && ((s fun g => { g with final := none, packet := 1 }).runPackets 0 g.packet 8).any fun ps => !okAnd (runCheck ps) fun _ => true) = true := by decide +kernel

/-- TrapEntry: a user handler for TRAP; the supervisor's for a cause that the user's does not take; and no handler at all. -/
theorem wit_trap_entry : (
    let info (k : Cause) : TrapInfo := { cause := k, packet := 0, word := 0, mask := 0xFF }
      let s : State := record (at' (.nop 0)) fun r => { r with handler := 5, hcause := 2 }
      let t : State := crew s fun w => { w with regs := { w.regs with shandler := 7 } }
      let written (s : State) (k : Cause) (sup : Bool) : Bool := (tget s.crews 0).any fun c => c.id == 0 && c.shadow.isNone && (c.group? 0).any fun g => userRoute (s.recordOf c.launch) k == !sup
        && (s.writeFrame c (frameBytes c g (info k) sup (s.tskidOf c 0))).isSome;
      written s .trap false && written t .tag true && (tget (at' (.nop 0)).crews 0).any fun c => c.regs.shandler == 0 && !userRoute ((at' (.nop 0)).recordOf c.launch) .tag && (c.group? 0).isSome
        && (tget (at' (.nop 0)).launches c.launch).any fun l => l.phase != .completing && l.phase != .complete
          && decide (((at' (.nop 0)).crews.map Prod.fst).Nodup) && (at' (.nop 0)).crews.all fun p => p.2.id == p.1) = true := by decide +kernel

/-- TrapEvents: a pending trap that may enter, a deferred trap at a chain group that the event or the word's issue would begin, a rendezvous that has waited for 2^24 cycles. -/
theorem wit_trap_events : (
    let i : TrapInfo := { cause := .tag, packet := 0, word := 0, mask := 0xFF }
      let s := group (at' (.nop 0)) fun g => { g with trap := some i }
      let d : State := crew (at' (.nop 0)) fun w => { w with deferred := [{ cause := .mcheck, addr := none, info := 0 }] }
      let w := core (group (at' (.voteAny 0 0x13 1 0)) fun g => { g with wait := some .rendezvous, since := some 1 }) fun r => { r with clk := 2 ^ 24 + 1 };
      ((tget s.crews 0).any fun c => !s.blockInHandler c.block && !s.midChain c.block && !s.skidDue c.block && match s.nextTrap c.block with
          | some (w, g, t) => w.id == 0 && w.queueReady g && t == i
          | none => false)
        && ((d.focus.bind fun r => (d.carried r).bind fun x => d.ctxOf r x.1 x.2 0).any fun c => d.mayIssue c && c.grp.snap.isNone && c.grp.joined.isNone && c.crew.handler.isNone && c.crew.deferred != [] && (d.groupWord c.crew c.grp).any fun w => (d.chainWait { c with word := w } (instrOf w)).isNone)
        && ((d.ctx? (.nop 0)).any fun c => !isEvent (.nop 0) && d.mayIssue c && c.grp.snap.isNone && c.grp.joined.isNone && c.crew.handler.isNone && c.crew.deferred != [] && (d.chainWait c (.nop 0)).isNone)
        && (tget w.crews 0).any fun c => (c.group? 0).any fun g => g.wait == some .rendezvous && !g.halted && g.trap.isNone && !c.frozen && !c.isShadow && g.since == some 1 && 1 + 2 ^ 24 ≤ (w.core c.core).clk
          && g.joined.isNone && (w.reach c g 3).any fun h => (w.groupWord c h).any fun v => (w.ctxOf { core := c.core, half := c.half, stream := 0 } 0 0 v).any fun x =>
            w.firstWaiting { x with grp := h, active := c.activeLanes h } (maskCode v)) = true := by decide +kernel

/-- ReturnResumes: from a trap at a word within its packet, at a packet's end and at the run's end, from deferred traps taken at a chain group and at run end, and from RUNLEN. -/
theorem wit_returns : (
    [(Cause.trap, false, false, 1, some (3 : DWord)), (.trap, false, false, 2, some 3), (.trap, false, false, 2, some 0), (.mcheck, true, false, 0, some 0), (.mcheck, true, true, 0, some 0), (.runlen, false, false, 0, none)].all fun (k, defer, late, wd, fin) =>
      let s := crew (handling (at' (.nop 0)) true) fun w => { w with handler := w.handler.map fun h => { h with info := { h.info with cause := k, defer := defer, word := wd }, atEnd := late, final := fin } }
      (tget s.crews 0).any fun c => c.id == 0 && c.shadow.isNone && c.deferred == [] && s.crewsOf c.block == [c] && match c.handler with
        | some h => (c.groups.all fun g => h.gmask &&& g.lanes != 0) && h.info.cause == k && h.info.defer == defer && h.atEnd == late && h.info.word == wd && h.final == fin && (s.fetchWord c.launch h.info.packet h.info.word).isSome
        | none => false) = true := by decide +kernel

/-- EngineCommandEvents: the last four units of a copy. -/
theorem wit_transfers : (
    let c : FerryCmd := { copyCmd with prog := 192 };
      (ferry c).cmd? 0 0 == some c && (ferry c).cmdRuns 0 c && c.prog + 4 * c.unit == c.total && (ferry c).partEnds c 4 && c.landing.isSome) = true := by decide +kernel

/-- EngineCommandEvents: done commands: of an earlier generation, with a landing, failed without one, clean without one. -/
theorem wit_completions : (
    [({ copyCmd with done := true, gen := 1 } : FerryCmd), { copyCmd with done := true }, { copyCmd with done := true, badRead := some (5, true) }, { copyCmd with done := true, landing := none, fault := some 5 }, { copyCmd with done := true, landing := none, badRead := some (5, true) }, { copyCmd with done := true, landing := none }].all fun c =>
      (ferry c).cmd? 0 0 == some c && c.done && c.updates == 0 && (((tget (ferry c).crews c.crew).map fun w : Crew => w.gen) == some c.gen) == (c.gen == 0)) = true := by decide +kernel

/-- EngineCommandEvents: an FATOM whose operand is mapped and whose filter is empty. -/
theorem wit_fatom : (
    let c : FerryCmd := { cmdOf .fatom (bytesOfNat 8 4096 ++ bytesOfNat 8 1 ++ bytesOfNat 8 0 ++ bytesOfNat 4 (16384 - 8) ++ [0, 1, 0, 0]) 8 with ticket := some 0 }
      let s := ferry c
      let key := s.ticketKey 0 c.ticket
      let t := s.filterRetire (s.homeSlice 1 4096) .l2 key c.hor
      s.cmd? 0 0 == some c && s.cmdRuns 0 c && s.fatomReady 0 c && c.prog == 0 && c.landing.isSome && okAnd (s.engPlace c 0 (.virt none 1 4096) (fatomDesc c.desc).size true) (fun p => p == .glob 1 4096 none) && s.pidOf (s.launchOf c.crew) == 1
        && (t.filterGet (s.homeSlice 1 4096) .l2 key 0).isNone && !t.filterFull (s.homeSlice 1 4096) .l2 1) = true := by decide +kernel

/-- EngineCommandEvents: an NMC of four elements that begins. -/
theorem wit_nmc : (
    let c : FerryCmd := { cmdOf .nmc (bytesOfNat 8 4096 ++ bytesOfNat 2 256 ++ bytesOfNat 2 512 ++ bytesOfNat 2 4 ++ [3, 0] ++ bytesOfNat 16 0) 0 with ticket := some 0 }
      let s := ferry c
      let key := s.ticketKey 0 c.ticket
      let t := s.filterRetire (s.homeSlice 1 4096) .msc key c.hor
      s.cmd? 0 0 == some c && s.cmdRuns 0 c && c.landing.isSome && okAnd (s.engPlace c 0 (.virt none 1 4096) (nmcDesc c.desc).bytes true) (fun p => p == .glob 1 4096 none) && (t.filterGet (s.homeSlice 1 4096) .msc key 0).isNone
        && !t.filterFull (s.homeSlice 1 4096) .msc 1 && ((NmcAcc.elems 0 0 1 c (nmcDesc c.desc) 4 0 { st := t.backInvalidate 1 (nmcDesc c.desc) (4096 - (nmcDesc c.desc).dst % 65536), done := 0, sum := c.total, clean := c.written }).finish 0 1 c (nmcDesc c.desc)).stop.isNone) = true := by decide +kernel

/-- PeerCommandEvents: the last chunk of an FPUT to a rank of this device that goes on, and of one that does not. -/
theorem wit_puts : (
    let c : FerryCmd := { putCmd .fput with prog := 48 }
      let s (b : Bool) : State := if b then peered (ferry c) else ranked (ferry c);
      [false, true].all fun b => (s b).cmd? 0 0 == some c && (s b).cmdRuns 0 c && c.prog + 16 == c.total && (s b).partEnds c 1 && c.landing.isSome && !(putDesc c.desc).rl && ((s b).cmdPeer c).any fun e => e.node == (s b).node && (s b).peerLives e == b
        && (!b || (let v := (s b).putArrive c (((s b).peerPid e).getD ((s b).pidOf 0)) 3 1; v.putRoom c (((s b).peerPid e).getD ((s b).pidOf 0)) 3 1))) = true := by decide +kernel

/-- PeerCommandEvents: acknowledgements that belong to no command, to one that is done, and to one that runs. -/
theorem wit_acks : (
    let c (d : Bool) : FerryCmd := { putCmd .fput with prog := 64, acked := 48, done := d, txns := [(7, 0)] };
      ((at' (.nop 0)).txnOwner 0 7).isNone && [false, true].all fun d => (ferry (c d)).txnOwner 0 7 == some (0, 0, c d) && (((tget (ferry (c d)).crews 0).map fun w : Crew => w.gen) == some (c d).gen) && (c d).ending.isNone
        && (c d).acked + 16 + ((ferry (c d)).portLink 0).unsent 7 ≤ (c d).prog) = true := by decide +kernel

/-- PeerCommandEvents: a CBAR of one member that has issued it. -/
theorem wit_cbar : (
    let c : FerryCmd := { cmdOf .collCbar (bytesOfNat 24 0 ++ bytesOfNat 2 1 ++ bytesOfNat 2 1 ++ bytesOfNat 2 1 ++ bytesOfNat 34 0) 0 with sent := true }
      let s : State := { ranked (ferry c) with collectives := [{ group := [(0, ctxKey 1 0)], number := 0, parts := [{ src := 0, dst := 0 }] }] }
      s.cmd? 0 0 == some c && s.cmdRuns 0 c && c.sent && c.prog == 0 && c.landing.isSome && !s.collOver c (s.collGroup c) (s.collOwn c) && s.collReady c (s.collGroup c) (s.collOwn c) && s.collGroup c == [(0, ctxKey 1 0)]) = true := by decide +kernel

/-- PeerCommandEvents: a ticketed request that is acknowledged, and one that is not. -/
theorem wit_requests : (
    let r (k : Nat) : TicketedReq := { ticket := BitVec.ofNat 64 (k * 2 ^ 48), horizon := 4, crew := 0, reply := { id := 5, rd := some 2, sd := none, lanes := [], ent := { id := 5, op := .atom .add 4 2 [{ lane := 1, loc := .vault 0x20000, operand := val .i32 3, second := {} }] } } }
      let s (k : Nat) : State := { crew (owned (at' (.nop 0))) fun w => { w with seq := 4 } with requests := [r k] };
      (s 3).requests[0]? == some (r 3) && (s 3).spentTicket (r 3) && !(s 4).spentTicket (r 4)
        && (let w : Crew := { id := 0, block := 0, launch := 0, idx := 0, width := 64 }
            let vs := ((s 4).entVaults w (r 4).reply.ent).filter fun v => !(s 4).vaultRefused 0 ((s 4).pidOf 0) (.vault v.2);
            vs.length == 1 && (((vs.map fun v => vaultHome v.2 / 32).eraseDups).foldl (fun (t : State) k => t.filterRetire k .vault ((s 4).ticketKey 0 (some (r 4).ticket)) 4) (s 4)).filtersHaveRoom w (r 4).reply.ent vs)) = true := by decide +kernel

/-- FaultQueueEvents: a paused command with room in the ring; a tag that names nothing; one that names a paused copy, and a paused NMC. -/
theorem wit_fault_queue : (
    let c (op : EngOp) (tag : Option Nat) : FerryCmd := { cmdOf op [] 64 with paused := some (0x20000, true, false), ftag := tag }
      let s (op : EngOp) (tag : Option Nat) : State := (ferry (c op tag)).modSlice 0 fun y => { y with fqBase := 0x4000, paused := if tag.isSome then [{ ftag := 3, core := 0, slot := 0 }] else [] };
      ((s .fcopy none).cmd? 0 0 == some (c .fcopy none) && (c .fcopy none).ftag.isNone && let y := (s .fcopy none).slice ((s .fcopy none).faultQueueOf 0 (c .fcopy none)).2; (y.fqProd - y.fqCons).toNat < 2 ^ (y.fqLog2n + 4))
        && (((s .fcopy (some 3)).slice 0).paused.all fun q => q.ftag != 4) && [EngOp.fcopy, .nmc].all fun op => (s op (some 3)).cmd? 0 0 == some (c op (some 3)) && ((s op (some 3)).slice 0).paused == [{ ftag := 3, core := 0, slot := 0 }]
          && (c op (some 3)).ftag == some 3 && !op.isColl) = true := by decide +kernel

/-- QueueEvents: a good descriptor and a bad one. -/
theorem wit_queue_descriptor : (
    let d (n : Nat) : List Byte := bytesOfNat 8 0x8000 ++ [BitVec.ofNat 8 n, 0, 0, 0] ++ bytesOfNat 52 2
      let s (n : Nat) : State := (owned (at' (.nop 0))).writeGlobal 1 0x4000 (d n);
    [3, 4, 16].all fun n => ((s n).slice 0).fwPid == 1 && (s n).descOk 1 0x4000 ((s n).readGlobal 1 0x4000 64) == decide (4 ≤ n)) = true := by decide +kernel

/-- QueueEvents: stopping a queue, and one that does not exist. -/
theorem wit_queue_stop : (
    let s : State := { owned (at' (.nop 0)) with queues := [queue5] };
    (s.slice 0).fwPid == 1 && s.queue? 1 (5 % 4096) == some queue5 && (s.queue? 1 6).isNone) = true := by decide +kernel

/-- QueueEvents: a doorbell from a slice that the firewall refuses, of a queue that is stopped, with a count that is accepted, and with one that is not. -/
theorem wit_doorbell : (
    let s (st : Bool) : State := { owned (at' (.nop 0)) with queues := [{ queue5 with stopped := st }] };
    !(s false).firewallOk 1 0 1 && (s false).firewallOk 0 0 1 && queue5.accepts 21 && !queue5.accepts 22 && !queue5.accepts 6 && [false, true].all fun st => (s st).queues.any fun q => q.dbell == 0x77 && q.stopped == st && !q.launchMode) = true := by decide +kernel

/-- QueueEvents: a record whose context was killed, one that is refused, one whose dependence failed, one whose dependence is pending, and one that is ready. -/
theorem wit_admission : (
    let dep := 6 * 2 ^ 20 + 3
      let s (nbx d held : Nat) : State := { (owned (launch (at' (.nop 0)) fun l => { l with quid := 9, num := 3 })).writeGlobal 1 (queue5.slotAddr 6) (recordBytes nbx d) with queues := [{ queue5 with held := [(3, held)] }], nextId := 40 }
      let why (s : State) : Nat × List DepFate := match s.queue? 1 5 with
        | none => (99, [])
        | some q => match s.readVirtual 1 (q.slotAddr (q.head + 1).toNat) 128 with
          | none => (99, [])
          | some b => (s.refusal q b (if recordOk b then s.readCargo 1 (parseRecord b) else none) ((parseRecord b).deps.map (s.depFate 1)), (parseRecord b).deps.map (s.depFate 1));
    (let k : State := { s 0 0 0 with contexts := (s 0 0 0).contexts.map fun p => (p.1, { p.2 with killed := true }) }; k.contextEnd queue5.ctx == some .aborted && (k.readVirtual 1 (queue5.slotAddr 6) 128).isSome && k.sliceRuns 0 && (k.queue? 1 5).isSome)
      && why (s 0 0 0) == (1, []) && why (s 1 dep 2) == (0, [.failed]) && why (s 1 dep 0) == (0, [.pending 0]) && why (s 1 0 0) == (0, []) && (s 1 0 0).sliceRuns 0 && queue5.pause.isNone && ((s 1 0 0).contextEnd queue5.ctx).isNone && queue5.tail != queue5.head) = true := by decide +kernel

/-- BlockLifeEvents: a ready launch of level 1 with room for its template crew. -/
theorem wit_template_crew : (
    let s := record (owned (launch (at' (.nop 0)) fun l => { l with phase := .ready })) fun r => { r with level := 1, tsKb := 4 };
    launchOf s fun l => l.phase == .ready && l.record.level != 0 && l.templateBlock.isNone && (s.slicesOf l.pid).contains 0 && s.coreTakes 0 && ((s.coreUse 0).template l.record (s.coreUse 0).half).ok) = true := by decide +kernel

/-- BlockLifeEvents: a crew at the end of a FREEZE's run with nothing outstanding. -/
theorem wit_image : (
    let s (k : Nat) := group (at' (.nop 0)) fun g => { g with atEnd := true, wait := some .freeze, transfer := some { packet := 3, word := 0, active := 0xFF, kind := .freeze k } };
    [1, 2].all fun k => (tget (s k).crews 0).any fun c => (tget (s k).blocks c.block).any fun b => b.state == .running && !c.frozen && c.sact == 0 && c.replay.isEmpty && c.deferred.isEmpty && !(s k).crewBusy c && (b.sides.all fun sd => sd.queue.isEmpty)
      && (tget (s k).launches c.launch).isSome && c.groups.head?.any fun g => g.atEnd && g.wait == some .freeze && g.trap.isNone && !g.halted && (g.transfer.map (·.kind)) == some (.freeze k)) = true := by decide +kernel

/-- BlockLifeEvents: staging of a block without cargo, of one whose cargo does not translate, and of one whose cargo lies outside its scratchpad. -/
theorem wit_staging : (
    let e (g l : Nat) : CargoEnt := { gaddr := BitVec.ofNat 64 g, laddr := BitVec.ofNat 64 l, bytes := 16, gstr := 0, lstr := 0, dirIn := true, dirOut := true, vault := false, declass := false, hint := 0 }
      let s (c : List CargoEnt) : State := owned (block (launch (at' (.nop 0)) fun l => { l with cargo := c, record := { l.record with pKb := 16 } }) fun b => { b with state := .staging })
      let moved (c : List CargoEnt) : Option CargoEnd := match tget (s c).launches 0, tget (s c).blocks 0 with
        | some l, some b => if b.state == .staging && !b.template && !b.killed && !pauseWaits b.pause && b.geo.stage == 0 then some ((s c).moveCargo b ((s c).stagingMoves l b)).1 else none
        | _, _ => none;
    moved [] == some .done && moved [e 0x1000 0] == some .done && moved [e 0x10000 0] == some .paused && moved [e 0x1000 16000, e 0 16376] == some .failed) = true := by decide +kernel

/-- BlockLifeEvents: writeback of a killed block, of one without cargo, and of ones whose cargo does not translate or lies outside. -/
theorem wit_writeback : (
    let e (g l : Nat) : CargoEnt := { gaddr := BitVec.ofNat 64 g, laddr := BitVec.ofNat 64 l, bytes := 16, gstr := 0, lstr := 0, dirIn := true, dirOut := true, vault := false, declass := false, hint := 0 }
      let s (k : Bool) (c : List CargoEnt) : State := owned (crew (block (launch (at' (.nop 0)) fun l => { l with cargo := c, record := { l.record with pKb := 16 } }) fun b => { b with killed := k }) fun w => { w with groups := [] })
      let moved (k : Bool) (c : List CargoEnt) : Option CargoEnd := match tget (s k c).launches 0, tget (s k c).blocks 0 with
        | some l, some b => if b.state == .running && !b.template && b.killed == k && !pauseWaits b.pause && (s k c).blockDone b then some (((s k c).modBlock 0 fun b => { b with state := .writeback }).moveCargo { b with pause := none } (writebackMoves l b true)).1 else none
        | _, _ => none;
    moved true [] == some .done && moved false [e 0x1000 0] == some .done && moved false [e 0x10000 0] == some .paused && moved false [e 0x1000 16384] == some .failed) = true := by decide +kernel

/-- BlockLifeEvents: the last block of a launch retires; a completing launch with no block left. -/
theorem wit_retirement : (
    let s := launch (block (at' (.nop 0)) fun b => { b with state := .retiring }) fun l => { l with nextBeta := 1 }
      let c : State := { launch (at' (.nop 0)) fun l => { l with phase := .completing, status := .ok } with blocks := [], crews := [] };
    ((tget s.blocks 0).any fun b => b.state == .retiring && (tget (s.dropBlock b).launches b.launch).any fun l => l.phase == .running && l.nextBeta == l.record.grid && l.back.isEmpty) && launchOf c fun l => l.phase == .completing && !c.launchBusy l) = true := by decide +kernel

/-- SchedulerEvents: a launch with an unassigned block, and a cooperative one. -/
theorem wit_assignment : (
    let s (co : Bool) := record (owned (launch (at' (.nop 0)) fun l => { l with phase := .ready, quid := 9 })) fun r => { r with coop := co };
    [false, true].all fun co => (s co).sliceRuns 0 && ((s co).served 0).any fun l => !(s co).resumesFirst l && let t := (s co).modSlice 0 fun x => { x with turns := tput x.turns ((s co).effPrio l) l.quid }; l.record.coop == co && (t.chooseCore l).isSome && (t.coopPlaces l).isSome) = true := by decide +kernel

/-- SchedulerEvents: the group at the head of a core's queue, where its resources are free. -/
theorem wit_dispatch : (
    let s := core (owned { at' (.nop 0) with blocks := [(3, { id := 3, launch := 0, group := 2 })], stageGroups := [(2, { id := 2, launch := 0, blocks := [3] })], crews := [] }) fun r => { r with blockQueue := [3], reservedBy := some (0, 0) };
    (s.core 0).blockQueue.head? == some 3 && (tget s.blocks 3).any fun b => (tget s.stageGroups b.group).isSome && (tget s.launches b.launch).any fun l => (s.groupPlace l.record l.id 0).isSome && (tget s.stageGroups b.group).any fun g => (l.record.cores 0).all fun k => s.coreTakes k && !s.reservedFrom k l (s.groupBeta g)) = true := by decide +kernel

/-- SchedulerEvents: an exchange at 8192 cycles with nothing to move, with a group that fits nowhere, and with one that a neighbour takes. -/
theorem wit_balance : (
    let s (n : Nat) (b : Nat) : State := (core { at' (.nop 0) with blocks := (List.range n).map fun k => (k, { id := k, launch := 0, group := k }), stageGroups := (List.range n).map fun k => (k, { id := k, launch := 0, blocks := [k] }) } fun r => { r with clk := 8192, blockQueue := List.range n }).modSlice 0 fun x => { x with balance := b }
      let t (n b : Nat) : State := (s n b).modCore 0 fun c => { c with exchanges := c.exchanges + 1 };
    8192 * (((s 0 4).core 0).exchanges + 1) ≤ ((s 0 4).core 0).clk && ((t 0 4).movableGroup 0).isNone && ((t 3 4).movableGroup 0).isSome && ((t 4 4).movableGroup 0).any fun g => g.blocks == [3] && coreNeighbours 0 == [1, 31] && (t 4 4).coreTakes 1) = true := by decide +kernel

/-- SchedulerEvents: a launch that has waited for 2^22 cycles. -/
theorem wit_reservation : (
    let s := ((owned (launch (at' (.nop 0)) fun l => { l with phase := .ready, readyAt := 5 })).modSlice 0 fun x => { x with clk := 2 ^ 22 + 5 });
    launchOf s fun l => (s.longest l).any fun c => c.1 == 0 && 2 ^ 22 ≤ c.2 && (s.launches.all fun p => s.effPrio p.2 ≤ s.effPrio l) && (s.cores.all fun e => e.2.reservedBy != some (0, c.1)) && (s.core 3).reservedBy.isNone && (s.slicesOf l.pid).contains 0 && s.coreTakes 3) = true := by decide +kernel

/-- SchedulerEvents: a block whose groups stand at chain-group boundaries. -/
theorem wit_freeze_signal : (
    let s := at' (.nop 0);
    s.freezeDue (.contextOnSlice (ctxKey 1 0) 0) && s.unitBlocks (.contextOnSlice (ctxKey 1 0) 0) != [] && (s.unitBlocks (.contextOnSlice (ctxKey 1 0) 0)).all fun b => b.freezable && s.atBoundary b && !s.entering b.id) = true := by decide +kernel

/-- SchedulerEvents: a block that has held its core for its quantum while a launch of another queue waits. -/
theorem wit_quantum : (
    let s := ((owned { at' (.nop 0) with launches := [(0, { id := 0, lid := 0x00100001, pid := 1, qnum := 0, home := 0, ctx := ctxKey 1 0, phase := .running, nextBeta := 1 }), (1, { id := 1, lid := 0x00200001, pid := 1, qnum := 1, quid := 1, home := 0, ctx := ctxKey 1 0, phase := .ready })] }).modSlice 0 fun x => { x with clk := 0x200000 });
    (tget s.blocks 0).any fun b => b.onCore && s.allowance b ≤ s.heldFor b && (launchOf s fun l => s.launches.any fun p => p.2.pid == l.pid && p.2.quid != l.quid && s.effPrio p.2 == s.effPrio l && s.waitsForRoom p.2)
      && s.unitBlocks (s.unitOf b) != [] && (s.unitBlocks (s.unitOf b)).all fun x => x.freezable && s.atBoundary x && !s.entering x.id) = true := by decide +kernel

/-- PreemptionEvents: a frozen unit with nothing on its way. -/
theorem wit_capture : (
    let u : FreezingUnit := { id := 7, unit := .block 0, blocks := [0], since := [(0, 0)] }
      let s : State := { crew (block (at' (.nop 0)) fun b => { b with state := .frozen }) fun w => { w with frozen := true, regs := { w.regs with cnt := { loads := 1, stores := 1 } }, loads := [{ id := 1, ty := .i32, size := 4, dest := 0x13, lanes := [(0, .spad 0)] }], storeQ := [{ id := 3, op := .st [(0, .spad 0, [1])] }] } with freezing := [u] };
    s.freezingUnit? 7 == some u && !u.captured && u.blocks != [] && s.settled u && (coresOf (s.unitMembers u)).all s.genFree) = true := by decide +kernel

/-- PreemptionEvents: a saved unit without core parts, which returns to a core, and one whose part cannot be read. -/
theorem wit_restore : (
    let s0 := owned (launch (at' (.nop 0)) fun l => { l with record := { l.record with pKb := 16 } })
      let u (parts : List (Nat × Nat)) : SavedUnit := { id := 7, ctx := ctxKey 1 0, unit := .block 0, blocks := (tget s0.blocks 0).toList, crews := (tget s0.crews 0).toList, groups := [{ id := 0, launch := 0, blocks := [0] }], cores := [0], parts := parts }
      let s (parts : List (Nat × Nat)) : State := { s0 with blocks := [], crews := [], saved := [u parts], partitions := s0.partitions.map fun p => (p.1, { p.2 with pages := [] }) }
      let v (parts : List (Nat × Nat)) : State := (tget (s parts).contexts (ctxKey 1 0)).elim (s parts) fun x => parts.foldl (fun (v : State) p => v.detectPart x p.1) (s parts)
      let placed (parts : List (Nat × Nat)) : Option State := ((v parts).placeAllSaved (u parts).withoutFlits ((u parts).keys.zip [3])).bind fun t =>
        ({ t with saved := t.saved.filter fun y => y.id != 7 } : State).endCut (ctxKey 1 0) (((v parts).saved.filter fun y => y.ctx == ctxKey 1 0).flatMap SavedUnit.recorded ++ (v parts).cutFlits (ctxKey 1 0));
    [[], [(0, 1)]].all fun parts => ((s parts).saved.find? fun u => u.id == 7) == some (u parts) && (tget (s parts).contexts (u parts).ctx).any (fun x => (tget (s parts).partitions x.pid).any (fun p => !p.needSession && !x.lost && !x.killed) && [3].length == (u parts).keys.length
      && !(s parts).assignsFirst (u parts) && ((s parts).saved.all fun w => !(s parts).resumesBefore x (u parts) w) && (v parts).badPart x (u parts) == (if parts == [] then none else some (0, 1)) && (placed parts).isSome)) = true := by decide +kernel

/-- PreemptionEvents: a replay of a store, and of a load that was issued before it. -/
theorem wit_replay : (
    let l : LoadOp := { id := 1, ty := .i32, size := 4, dest := 0x13, lanes := [(0, .spad 0)] }
      let e : StoreEnt := { id := 3, op := .st [(0, .spad 0, [1])] }
      let s (ms : List ManifestEnt) : State := crew (at' (.nop 0)) fun w => { w with replay := ms };
    [([storeEntry [] e], 0), ([storeEntry [1] e, loadEntry l], 1)].all fun (ms, k) => (tget (s ms).crews 0).any fun c => !c.frozen && (s ms).replayNext c == some k && ((s ms).replayEntry c k).isSome) = true := by decide +kernel

/-- PreemptionEvents: a core on which a unit is not captured 65,536 cycles after its signal, in service and failed already. -/
theorem wit_watchdog : (
    let u : FreezingUnit := { id := 7, unit := .block 0, blocks := [0], since := [(0, 5)] }
      let s (b : Bool) : State := { core (at' (.nop 0)) fun r => { r with clk := 65541, failed := b } with freezing := [u] };
    [false, true].all fun b => ((s b).freezing.find? fun u => !u.captured && ((tget u.since 0).map fun t => decide (t + 65536 ≤ ((s b).core 0).clk)) == some true) == some u && ((s b).core 0).failed == b) = true := by decide +kernel

/-- ContextEvents: both actions of %sact. -/
theorem wit_supervisor_action : (
    let s (k : Nat) : State := crew (at' (.nop 0)) fun w => { w with sact := k };
    [1, 2].all fun k => (tget (s k).crews 0).any fun c => !c.frozen && (c.groups.all fun g => g.snap.isNone) && c.sact == k) = true := by decide +kernel

/-- ContextEvents: a context that does not exist yet, one that does, a roster of one rank and of 1024, a cut of a context that runs, and of a captured one with a channel. -/
theorem wit_contexts : (
    let s := at' (.nop 0)
      let rank (n : Nat) : RosterEntry := { node := n, ctx := 0, usable := true, sameKey := false, ports := [(0, 1)] }
      let t : State := { (owned s).modLink 0 (fun l => { l with up := true, lanes := 8 }) with blocks := [], contexts := s.contexts.map fun p => (p.1, { p.2 with roster := [rank 1] }) };
    (tget s.contexts (ctxKey 1 0xFFFFFFFF)).isNone && (tget s.partitions 1).isSome && (tget s.contexts (ctxKey 1 0)).isSome && [rank 0] != [] && (List.replicate 1024 (rank 0)).length ≤ 1024 && !s.contextCaptured (ctxKey 1 0) && t.contextCaptured (ctxKey 1 0)
      && (tget t.contexts (ctxKey 1 0)).any fun x => x.cutting.isNone && t.channels x == [(0, 1)]) = true := by decide +kernel

/-- ContextEvents: a lead that holds a store while its shadow would release the same, another, and has not come there for 2^24 cycles. -/
theorem wit_shadows : (
    let i : Instr := .st 0 0x12 0x11 0 2 2 0 0
      let p (k : Bool) : State := put i (val .i64 (if k then 8 else 0)) (val .i32 7) {}
      let w : List HeldWord := ((p false).ctxOf { core := 0, half := 0, stream := 0 } 0 0 (((p false).groupWord ((tget (p false).crews 0).getD { id := 0, block := 0, launch := 0, idx := 0, width := 8 }) { id := 0, lanes := 0xFF, packet := 0, runStart := 0, final := some 0 }).getD 0)).elim [] fun x => [(p false).heldWord i x x.crew []]
      let h : HeldChain := { lanes := 0xFF, words := w }
      let s (k : Bool) (late : Bool) : State := let a := core (p k) fun r => { r with clk := 2 ^ 24 }
        { crew a (fun c => { c with shadow := some { partner := 4, isShadow := false, held := some h } }) with
          crews := (crew a fun c => { c with shadow := some { partner := 4, isShadow := false, held := some h } }).crews ++ ((tget a.crews 0).toList.map fun c => (4, { c with id := 4, groups := c.groups.map fun g => { g with atEnd := late }, shadow := some { partner := 0, isShadow := true } })) };
    [(false, false), (true, false), (false, true)].all fun (k, late) => ((s k late).leadHeld 0).any fun (c, _, x, d) => x == h && w.length == 1 && (h.since + 2 ^ 24 ≤ ((s k late).core c.core).clk)
      && match (s k late).shadowReached c d x with
        | none => late
        | some y => !late && (compareHeld x.words y).isSome == k) = true := by decide +kernel

/-- LinkEvents: a link that runs; a key for the other sending slot and for a retired receiving slot; a link with lanes; one that trains; an Ethernet frame. -/
theorem wit_links : (
    let s (f : Link → Link) : State := (owned (at' (.nop 0))).modLink 0 f
      let up := s fun l => { l with up := true, lanes := 8 }
      let eth := s fun l => { l with up := true, lanes := 8, mode := 1 };
    (up.portLink 0).runs && !(up.portLink 0).stopped && !(up.portLink 0).txSlot && !(up.portLink 0).otherKey.fresh && !((up.portLink 0).rxKey true).live && (up.portLink 0).mode == 0 && (up.portLink 0).lanes != 0
      && ((s id).portLink 0).lanes == 0 && !((s id).portLink 0).up && ((s id).slice 0).fwPid != 0 && (eth.portLink 0).mode == 1 && (eth.portLink 0).up && (List.replicate 60 (0 : Byte)).length ≤ 9216) = true := by decide +kernel

/-- ContextEvents: words that differ in the word, the masks, an address and the number of data. -/
theorem wit_held_words : (
    let h : HeldWord := { word := 5, packet := 0, wpos := 0, mask := 0xFF, addrs := [(0, 8)], data := [(0, [val .i32 7])] };
      (decide ((h.data.map Prod.fst).Nodup)) && (compareWord h { h with word := 6 }).isSome && (compareWord h { h with mask := 0xF }).any (fun m => m.lane == 4) && (compareWord h { h with addrs := [(0, 16)] }).any (fun m => m.detail == 1)
        && (compareWord h { h with data := [(0, [])] }).any fun m => m.detail == 2) = true := by decide +kernel

/-- LinkEvents: a retransmission; a flit from the queue; an IDLE, with nothing queued and with the window full; the switch of the slot and the stop when the last INV is used; a command whose transfer ran over a port, with and without another route. -/
theorem wit_link_sends : (
    let p : PlainFlit := { ftype := 1, len := 1 }
      let fresh : KeySlot := { fresh := true, live := true }
      let l : List Link := [{ retry := [p, p], resend := 1 }, { sendQ := [p], window := 1 }, { window := 1 }, { sendQ := [p], retry := [p], window := 1 }, { txInv := 2 ^ 32 }, { txInv := 2 ^ 32, tx1 := fresh }]
      let rank : RosterEntry := { node := 7, ctx := 0, usable := true, sameKey := false, ports := [(0, 1), (1, 2)] }
      let s (b : Bool) : State := let t := (ranked (ferry { putCmd .fput with prog := 32, txns := [(7, 0)] })).modLink 1 fun l => { l with up := b, lanes := if b then 8 else 0 }
        { t.modSlice 1 (fun x => { x with fwPid := 1 }) with contexts := t.contexts.map fun x => (x.1, { x.2 with roster := (List.range 4).map fun k => if k == 1 then { rank with node := 0 } else rank }) };
    (l[0]?).any (fun l => l.txInv < 2 ^ 32 && (l.retry[l.retry.length - l.resend]?).isSome) && (l[1]?).any (fun l => l.resend == 0 && l.sendQ != [] && l.retry.length < l.window) && (l[2]?).any (fun l => l.resend == 0 && l.sendQ == []) && (l[3]?).any (fun l => l.resend == 0 && l.window ≤ l.retry.length)
      && (l[4]?).any (fun l => 2 ^ 32 ≤ l.txInv && !l.otherKey.fresh) && (l[5]?).any (fun l => 2 ^ 32 ≤ l.txInv && l.otherKey.fresh) && (s true).route 1 rank == some 1 && (s false).route 1 rank == none
      && [false, true].all fun b => ((s b).cmd? 0 0).any fun c => !c.done && (c.txns.any fun t => t.1 / 4096 == 0) && (s b).hasRoute c == b) = true := by decide +kernel

/-- HostEvents: slice 15, a change of ways that goes on, and the registers of its window. -/
theorem wit_windows : (
    let s : State := (owned (at' (.nop 0))).modSlice 15 fun x => { x with fwPid := 1, pways := 4, pwBusy := true, pwTarget := 2, cecnt := 0xFF, plines := [(9, 1)] };
    (15 < 16) && (s.slice 15).pwBusy) = true := by decide +kernel

/-- HostEvents: a MOVE that is refused, one of a free slice that has no blocks as it begins, and as its slice is vacated. -/
theorem wit_resize : (
    let c : BitVec 128 := 0x01000101
      let r := rung (owned (at' (.nop 0))) 1
      let s := rung (owned (at' (.nop 0))) 1 0x01000101
      let v : State := { s with harbour := { s.harbour with moving := some c } };
    r.ownerTakes 1 0 && r.harbour.moving.isNone && (r.resizeRefusal (resizeCmd 0)).isSome && s.ownerTakes 1 c && s.harbour.moving.isNone && (s.resizeRefusal (resizeCmd c)).isNone && v.ownerTakes 1 c && v.harbour.moving == some c && !v.sliceOccupied (resizeCmd c).slice && !v.nmcOn (resizeCmd c)) = true := by decide +kernel

/-- HostEvents: a source that is pending, accesses that a halted slice and a firewall stop, and those that read and write global memory, a vault and a window. -/
theorem wit_host_accesses : (
    let s : State := (owned (at' (.nop 0))).modSlice 0 fun x => { x with sources := [(3, { pending := true, target := 3, identity := 5 })] }
      let halted : State := s.modSlice 0 fun x => { x with tripped := true }
      let barred : State := s.modPartition 1 fun p => { p with attached := true }
      let sealed : State := { s with harbour := { handles := [(1, { live := true, pid := 1, vwin := [(0x200000, 65536)] })] } }
      let sealed : State := sealed.modPartition 1 fun p => { p with pages := [({ va := 0x200000, size := 65536, vault := true, pa := 0x20000, writable := true } : Page)] }
      let q (t : HostTarget) (src : Nat) (d : Option (List Byte)) : HostReq := { agent := .pcie 0 0, srcSlice := src, pid := 1, target := t, len := 2, data := d }
      let st : SourceSetting := { src := 3, target := 7, identity := 6 };
    s.slicesOf 1 == [0] && sourceSlice st.src == 0 && st.target / 8 == 0 && tget (s.slice 0).sources 3 == some { pending := true, target := 3, identity := 5 }
      && agentIsPcie (q (.global 0) 0 none).agent && halted.hartStands { q (.global 0) 0 none with agent := .hart 0 } && (tget barred.partitions 1).any (fun p => !p.booting && !p.lets (q (.global 0x8000) 0 none))
      && (tget s.partitions 1).any (fun p => !p.booting && p.lets (q (.global 0x8000) 0 none) && 0x8002 ≤ p.sg) && s.globalRefused 3 1 0x8000 2 == some 0 && (s.globalRefused 0 1 0x8000 2).isNone && ((homeGranules 0x8000 2).all fun g => s.sliceRuns (s.homeSlice 1 g))
      && !s.firewallOk 3 0 1 && s.firewallOk 0 0 1 && s.sliceRuns 0 && sealed.vaultWindowed 1 0x20000 2 && !s.vaultWindowed 1 0x20000 2) = true := by decide +kernel

/-- TrustEvents: an image that fails its check, and one that boots. -/
theorem wit_boot : (
    let s (ok : Bool) : State := { owned (at' (.nop 0)) with harbour := { fuse := 2, flash := { prafelOk := ok, ownerOk := true, version := 3, config := [{ pid := 1, slices := [0, 1] }] } } }
      let t (n : Nat) : BootTrial := { failStep := n, untrained := [] };
    let step (ok : Bool) (n : Nat) := bootFailStep (s ok).harbour.flash (s ok).harbour.fuse (t n);
      step false 0 == 1 && step true 4 == 4 && step true 0 == 0 && flashAccepted (s true).harbour.flash (s true).harbour.fuse && !flashAccepted (s false).harbour.flash (s false).harbour.fuse) = true := by decide +kernel

/-- TrustEvents: codes that no mailbox and only the other mailbox knows. -/
theorem wit_mailbox_codes : (
    let s := owned (at' (.nop 0));
    [0, 0x10, 0x12, 0xFF].all (fun c => !(mailboxCodes true).contains c && (rung s c).ownerRung c) && [0, 1, 6, 0xFF].all (fun c => !(mailboxCodes false).contains c && (mailed s c).mailRung 1 c)) = true := by decide +kernel

/-- TrustEvents: a record at 64 that binds, one that is misplaced, one with a reserved byte, and a session that has ended. -/
theorem wit_bind : (
    let k : KeyHandle := { live := true, pid := 1 }
      let s (last : Nat) (cmd : List Byte := bytesOfNat 8 0x4000 ++ bytesOfNat 4 4) : State := (({ mailed (owned (at' (.nop 0))) 0x10 cmd with harbour := { booted := true, sessions := [{ id := 4, pid := 1, tenant := 8, role := .tenantSession }], handles := [(1, k)] } } : State).writeGlobal 1 0x4000 (bytesOfNat 4 77 ++ [1, 0, 0, 0] ++ bytesOfNat 8 0x70000 ++ bytesOfNat 8 65536)).writeGlobal 1 (0x4000 + 255) [BitVec.ofNat 8 last]
      let odd := s 0 (bytesOfNat 8 0x4001 ++ bytesOfNat 4 4)
      let gone := s 0 (bytesOfNat 8 0x4000 ++ bytesOfNat 4 5)
      let takes (s : State) (a k : Nat) : Bool := s.mailTakes 1 0x10 && s.inGlobal 1 0x100 16 && s.mailField 1 0 8 a && s.mailField 1 8 4 k && s.detectGlobal 1 a 256 == s
      let x (s : State) (k : Nat) : Option Session := s.harbour.sessions.find? fun x => x.id == k && x.pid == 1 && x.role == .tenantSession && x.tenant == 8;
    (tget (s 0).partitions 1).any (fun p => p.mailbox.command == 0x100) && takes (s 0) 0x4000 4 && takes (s 1) 0x4000 4 && takes odd 0x4001 4 && takes gone 0x4000 5 && (x (s 0) 4).isSome && (x gone 5).isNone && (s 0).inGlobal 1 0x4000 256 && (s 0).keySlot == some 2 && 0x4000 % 64 == 0 && !(s 0).bindBad 1 ((s 0).readGlobal 1 0x4000 256) && (s 1).bindBad 1 ((s 1).readGlobal 1 0x4000 256)) = true := by decide +kernel

/-- TrustEvents: a handle of the partition and one that names nothing. -/
theorem wit_release : (
    let s (h : Nat) : State := { mailed (owned (at' (.nop 0))) 0x11 (bytesOfNat 4 h) with harbour := { booted := true, handles := [(1, { live := true, pid := 1, gen := 3 })] } }
      let s3 := s 0x3001
      let s1 := s 0x1001
      let far := s3.modPartition 1 fun p => { p with mailbox := { p.mailbox with queue := [(0x11, BitVec.ofNat 64 p.sg)] } };
    [(s3, 0x3001), (s1, 0x1001)].all (fun x => x.1.mailTakes 1 0x11 && x.1.inGlobal 1 0x100 16 && x.1.mailField 1 0 4 x.2) && far.mailTakes 1 0x11 && (tget far.partitions 1).any (fun p => !far.inGlobal 1 p.mailbox.command 16) && ((s3.handle? 0x3001).any fun k => k.pid == 1) && ((s1.handle? 0x1001).filter fun k => k.pid == 1).isNone && (tget s3.partitions 1).isSome) = true := by decide +kernel

/-- TrustEvents: a partition that boots and one that runs. -/
theorem wit_portmode : (
    let s (b : Bool) (slice mode : Nat) : State := (mailed (owned (at' (.nop 0))) 0x12 [BitVec.ofNat 8 slice, BitVec.ofNat 8 mode]).modPartition 1 fun p => { p with booting := b };
    [(true, 0, 1), (false, 0, 1), (true, 1, 1), (true, 0, 2)].all fun x => let t := s x.1 x.2.1 x.2.2
        t.mailTakes 1 0x12 && t.inGlobal 1 0x100 16 && t.mailField 1 0 1 x.2.1 && t.mailField 1 1 1 x.2.2 && (tget t.partitions 1).any (fun p => p.booting == x.1 && p.mailbox.command == 0x100) && t.slicesOf 1 == [0]) = true := by decide +kernel

/-- TrustEvents: an image in the owner's memory; nothing staged; an image staged while a unit is resident and while none is. -/
theorem wit_firmware : (
    let s (code : Nat) (i : Option (List Byte)) (here : Bool) : State := let t := owned (at' (.nop 0))
        { t with blocks := if here then t.blocks else [], harbour := { booted := true, mailbox := { queue := [(code, 0x100)] }, staged := i, sessions := [{ id := 4, pid := 1, tenant := 8, role := .runtime }], unlocks := [(0, 4)], ownerMem := writeBytes (writeBytes [] 0x100 (bytesOfNat 8 0x200 ++ bytesOfNat 8 2)) 0x200 [1, 2] } }
      let none' := s 6 none false
      let idle' := s 6 (some [1, 2]) false
      let busy := s 6 (some [1, 2]) true
      let stage := s 5 none false;
    [none', idle', busy].all (fun t => t.harbour.booted && t.ownerRung 6) && stage.harbour.booted && stage.ownerRung 5 && readBytes stage.harbour.ownerMem (stage.ownerCmd.toNat % 2 ^ 64) (stage.ownerCmd.toNat / 2 ^ 64) == [1, 2]
      && none'.harbour.staged.isNone && idle'.harbour.staged == some [1, 2] && idle'.blocks.all (fun b => !b.2.resident) && busy.harbour.staged == some [1, 2] && busy.blocks.any (fun b => b.2.resident) && busy.harbour.emptying.isNone) = true := by decide +kernel

/-- TrustEvents: a session that begins, one that ends with its unlock, an unlock in a living session and in none. -/
theorem wit_sessions : (
    let s : State := { owned (at' (.nop 0)) with harbour := { sessions := [{ id := 4, pid := 1, tenant := 8, role := .tenantSession }], unlocks := [(0, 4), (1, 9)] } }
      let living (id : Nat) := s.harbour.sessions.find? fun x => x.id == id && x.role == .tenantSession;
    s.harbour.sessions.all (fun x => x.id != 5) && (tget s.partitions 1).isSome && (s.harbour.sessions.find? (fun x => x.id == 4)).isSome && (living 4).isSome && (living 5).isNone) = true := by decide +kernel

/-- TrustEvents: the interface of an attached partition in every state. -/
theorem wit_interface : (
    let s (d : TdispState) : State := { owned (at' (.nop 0)) with partitions := (owned (at' (.nop 0))).partitions.map fun p => (p.1, { p.2 with attached := true, tdisp := d }) };
    [.configUnlocked, .configLocked, .run, .error].all fun d => (tget (s d).partitions 1).any fun p => p.attached && p.tdisp == d) = true := by decide +kernel

/-- TrustEvents: a block that a supervisor handler handed outside on BRK, under an unlock of its partition's session. -/
theorem wit_debug_resume : (
    let s : State := block (crew ({ owned (at' (.nop 0)) with harbour := { sessions := [{ id := 3, pid := 1, tenant := 8, role := .runtime }, { id := 4, pid := 1, tenant := 8, role := .tenantSession }], unlocks := [(2, 4)] } }) fun w => { w with handler := some {
      supervisor := true, gmask := 0xFF, info := { cause := .brk, packet := 0, word := 0, mask := 0xFF }, runStart := 0, final := some 0, atEnd := false, guards := [], transfer := none, tileCode := 0, trailer := [] } }) fun b => { b with brk := true };
    (tget s.blocks 0).any fun b => b.brk && s.debugSees 2 b && ((s.crewsOf 0).find? fun c => c.servesBrk && c.storeQ.isEmpty && !c.frozen).any fun c => (c.groups.find? fun g => c.inHandler g).any fun g => c.id == 0 && g.id == 0) = true := by decide +kernel

/-- PowerAndMemoryEvents: a target that names nothing, a slice, a free slice, a partition, host cores that run, and a slice with a block. -/
theorem wit_power : (
    let s (n : Nat) (h : List Nat) (here : Bool) : State := let t := rung (owned (at' (.nop 0))) 4 n
        ({ t with blocks := if here then t.blocks else [] }).modSlice 0 fun x => { x with harts := h }
      let c (t st : Nat) : Nat := t + st * 256
      let s0 (x : Nat × Nat) : State := s (c x.1 x.2) [] false
      let takes (t : State) (x : Nat × Nat) : Bool := t.ownerTakes 4 (BitVec.ofNat 128 (c x.1 x.2))
      let all : List (Nat × Nat) := [(16, 1), (0x82, 1), (16, 3), (0x82, 3), (0, 4), (0x81, 0x103), (0, 0x100), (0, 0), (0x81, 2), (0, 3), (2, 3), (0x81, 3)];
    all.all (fun x => takes (s0 x) x) && (s0 (0, 0)).powerTarget 16 == none && (s0 (0, 0)).powerTarget 0x82 == none && (s0 (0, 0)).powerTarget 0 == some (none, [0]) && (s0 (0, 0)).powerTarget 0x81 == some (some 1, [0]) && (s0 (0, 0)).powerTarget 2 == some (none, [2])
      && ((s0 (0, 0)).slice 0).fwPid == 1 && ((s0 (0, 0)).slice 2).fwPid == 0 && takes (s (c 0x81 3) [1] false) (0x81, 3) && ((s (c 0x81 3) [1] false).slice 0).harts != [] && ((s0 (0x81, 3)).slice 0).harts == [] && !(s0 (0x81, 3)).sliceOccupied 0
      && ((s0 (2, 3)).slice 2).harts == [] && !(s0 (2, 3)).sliceOccupied 2 && takes (s (c 0x81 3) [] true) (0x81, 3) && ((s (c 0x81 3) [] true).slice 0).harts == [] && (s (c 0x81 3) [] true).sliceOccupied 0 && (s (c 0x81 3) [] true).harbour.emptying.isNone) = true := by decide +kernel

/-- PowerAndMemoryEvents: slice 15 in service, and a bridge between slices 0 and 15. -/
theorem wit_trips : (
    let s := owned (at' (.nop 0));
    !(s.slice 15).tripped && !(s.slice 0).tripped && [0, 15] != [] && decide ([0, 15] : List Nat).Nodup) = true := by decide +kernel

/-- PowerAndMemoryEvents: a sector with an uncorrectable error and one without, the last of the space. -/
theorem wit_patrol : (
    let s : State := { owned (at' (.nop 0)) with partitions := (owned (at' (.nop 0))).partitions.map fun p => (p.1, { p.2 with sg := 1024, gm := { p.2.gm with uncorr := [3], errAt := [(1, 5)] } }) };
    (tget s.partitions 1).any fun p => p.sg == 1024 && p.gm.uncorr.contains 3 && !p.gm.uncorr.contains 2 && p.gm.errCode 2 == 0 && p.gm.errCode 3 == 0 && p.gm.errCode 1 == 5) = true := by decide +kernel

/-- PowerAndMemoryEvents: commands at and beyond the ranges of their fields, with the parking region free and occupied. -/
theorem wit_bank_test : (
    let s (n : Nat) (p : Bool) : State := (rung (owned (at' (.nop 0))) 2 n).modSlice 15 fun x => { x with parking := p }
      let c : Nat := 15 + 63 * 2 ^ 8 + 63 * 2 ^ 16 + 2 * 2 ^ 24
      let outside : List Nat := [16, 64 * 2 ^ 8, 64 * 2 ^ 16, 3 * 2 ^ 24, 2 ^ 32];
    let bad (v : Nat) : Bool := 16 ≤ bitsAt v 0 8 || 64 ≤ bitsAt v 8 8 || 64 ≤ bitsAt v 16 8 || 3 ≤ bitsAt v 24 8 || bitsAt v 32 32 != 0;
      (outside.all fun v => (s v true).ownerTakes 2 (BitVec.ofNat 128 v) && bad v) && (s c true).ownerTakes 2 (BitVec.ofNat 128 c) && (s c false).ownerTakes 2 (BitVec.ofNat 128 c) && !bad c && ((s c true).slice 15).parking && !((s c false).slice 15).parking) = true := by decide +kernel

/-- PowerAndMemoryEvents: LOGREAD rung in the owner's mailbox. -/
theorem wit_logread : (
    let s : State := let t := rung (owned (at' (.nop 0))) 3 (0x4000 + 2 * 2 ^ 64)
        { t with harbour := { t.harbour with log := [{ type := 1 }, { type := 2 }, { type := 3 }] } };
    s.ownerTakes 3 (BitVec.ofNat 128 (0x4000 + 2 * 2 ^ 64))) = true := by decide +kernel

/-- StepRunsDecodedWord: a stream of the agenda and the focus stream, at a word, at one that is no instruction, at an unmapped one and at the end of a run; and an event. -/
theorem wit_steps : (
    let s (i : Instr) : State := at' i
      let bad : State := State.reset.withFetchWord 32 0xFFFFFFFF
      let far : State := group (at' (.nop 0)) fun g => { g with packet := 0x4000 }
      let done : State := group (at' (.nop 0)) fun g => { g with atEnd := true }
      let joint : State := crew (s (.yield 0)) fun c => { c with groups := c.groups ++ [({ c.groups.headD { id := 1, lanes := 0, packet := 0, runStart := 0, final := some 0 } with id := 1, lanes := 0, snap := some (freshRegs 8 0 0 none), joined := some { results := [] } } : Group)] }
      let mid : State := group (at' (.nop 0)) fun g => { g with snap := some (freshRegs 8 0 0 none) }
      let held (t : State) : State := group t fun g => { g with code := some (g.packet, [0x00800000, 0, 0]) }
      let grp (t : State) : Option (Crew × Group) := (tget t.crews 0).bind fun c => (c.group? 0).map fun g => (c, g)
      let fetched (t : State) : Option Word := (grp t).bind fun x => t.groupWord x.1 x.2
      let bytes (t : State) (k : Nat) : Option (List Byte) := (grp t).bind fun x => t.readProgram x.1.launch (12 * x.2.packet.toNat + 4 * k) 4
      let ends (t : State) : Bool := (((tget t.crews 0).bind fun c => c.group? 0).map fun g => g.atEnd) == some true
      let carried (t : State) : Bool := t.focus == some placedStream && t.carried placedStream == some (0, 0) && t.agenda.isEmpty && t.jointNext.isNone && t.focusGoes && !t.focusMidChain && (grp t).any fun x => x.2.word < 3
      let word (t : State) : Option (Except DecodeReject Instr) := (fetched t).map decode;
    carried (s (.yield 0)) && carried bad && carried far && carried done && (match word (s (.yield 0)) with | some (.ok i) => i == .yield 0 | _ => false) && (match word bad with | some (.error _) => true | _ => false) && (fetched far).isNone && ((List.range 3).all fun k => (bytes far k).isNone && (bytes bad k).isSome) && mid.focusMidChain && ((grp (held bad)).any fun x => (x.2.code.map (·.1)) == some x.2.packet) && fetched (held bad) == some 0x00800000
      && joint.jointNext == some ({ core := 0, half := 0, stream := 4 }, 0, 1) && !joint.focusMidChain && ends done && !ends bad && isEvent .runEnd) = true := by decide +kernel

/-- StepKeepsInvariant: the machine with a word placed, whose step goes on. -/
theorem wit_keeps_invariant : (
    let s := at' (.nop 0);
    s.memWf && s.blocks.all (fun p => p.2.ts % 64 == 0) && s.saved.isEmpty && next (step s) fun _ => true) = true := by decide +kernel

/-- RegisterWordFrame: every row of both families, on operands that it accepts. -/
theorem wit_register_frame : (
    let tags : List Tag := [.i64, .f64, .n32];
    (scalarRows.all fun r => tags.any fun t => tags.any fun u => let i := r.word 0 3 1 2; meets (put i (val t 5) (val u 3) {}) i fun _ c => !c.grp.halted && c.active != [] && r.tagA (c.getS 1).tag && r.tagB (c.getS 1).tag (c.getS 2).tag)
      && vectorRows.all fun r => let i := r.word 0 0x14 0x11 0x12; meets (put i (val .i32 5) (val .i32 3) {}) i fun t c => !c.grp.halted && okAnd (c.go.vecOperands t (some 0x14) [0x11, 0x12] (sameTag Tag.anyInt)) fun _ => true) = true := by decide +kernel

/-- StoreFrame: a store of two lanes to scratchpad, its own bytes and others; a vault store with another that meets none of its bytes. -/
theorem wit_store_frame : (
    let e : StoreEnt := { id := 3, op := .st [(0, .spad 8192, [1, 2]), (1, .spad 16382, [3, 4])] }
      let v : VaultPend := { id := 1, crew := 0, gran := 0x10, writes := [(0x100, [1, 2]), (0x104, [0])], seq := 4 }
      let s : State := core (crew (owned (at' (.nop 0))) fun w => { w with storeQ := [e], loads := [{ id := 3, ty := .i32, size := 4, dest := 0x13, lanes := [(0, .spad 0)] }] }) fun r => { r with vaultPend := [{ v with writes := [(0x102, [5])], seq := 3 }, v] };
    (tget s.crews 0).any (fun c => c.storeQ.head? == some e && !e.release && (c.loads.all fun l => e.id ≤ l.id) && !s.acquireDue c e.id && s.memWf && (tget s.blocks c.block).any fun b => b.ts % 64 == 0)
      && (s.core 0).vaultPend[1]? == some v && (((s.core 0).vaultPend ++ (s.core (mateCore 0)).vaultPend.filter fun u => u.twin || v.twin).all fun u => decide (v.seq ≤ u.seq) || !u.overlaps v) && !s.vaultRefused 0 (s.slice 0).fwPid (.vault 0x100) && (s.modSlice 0 fun x => { x with fwTab := [2] }).vaultRefused 0 ((s.modSlice 0 fun x => { x with fwTab := [2] }).slice 0).fwPid (.vault 0x100) && decide (v.writes.Pairwise fun x y => x.1 + x.2.length ≤ y.1 ∨ y.1 + y.2.length ≤ x.1)) = true := by decide +kernel


/-! ### Flits -/

/-- A link whose receiving slot 0 holds a live key. -/
def flitLink : Link := { up := true, lanes := 8, rx0 := { live := true } }

/-- A flit of a TYPE and a tag. -/
def flitWith (n : Nat) (tag : BitVec 128) : Flit :=
  { ftype := BitVec.ofNat 4 n, slot := false, nak := false, vc := 0, len := 1, seq := 0, ackSeq := 0, inv := 0, dest := 0, txn := 0, fidx := 0, payload := List.replicate 224 0, tag := tag }

/-- The tag that the link's key gives a flit (R446). -/
def tagOf (n : Nat) : BitVec 128 :=
  BitVec.ofNat 128 (natOfBytes (gcmTag (flitLink.rxKey false).roundKeys (flitIv (flitLink.rxKey false) 0) (flitAad (flitWith n 0)) (List.replicate 224 0)))

/-- A flit with its tag. -/
def flitOf (n : Nat) : Flit := flitWith n (tagOf n)

/-- The placed machine with that link on port 0. -/
def flitState : State := (at' (.nop 0)).modLink 0 fun _ => flitLink

/-- The machine with its context captured to be moved, and an OPEN flit of transaction 0 of a peer recorded for it on port 0. -/
def cutState : State := ({ owned (at' (.nop 0)) with
  freezing := [{ id := 7, unit := .block 0, blocks := [0], since := [(0, 0)], captured := true }]
  contexts := [(ctxKey 1 0, { ctx := ctxKey 1 0, pid := 1, cutting := some [], roster := [{ node := 3, ctx := 12, usable := true, sameKey := false, ports := [(0, 1)] }] })] } : State).modLink 0 fun _ =>
    { flitLink with cut := [(ctxKey 1 0, false, [{ ftype := 2, payload := bytesOfNat 4 12 }])] }

/-- A flit's tag is authentic where it is that of its key. -/
theorem flitWith_authentic (n : Nat) (x : BitVec 128)
    (h : x = BitVec.ofNat 128 (natOfBytes (gcmTag (flitLink.rxKey false).roundKeys (flitIv (flitLink.rxKey false) 0) (flitAad (flitWith n x)) (List.replicate 224 0)))) :
    flitLink.authentic (flitWith n x) = true := by
  have h1 : (flitLink.rxKey false).live = true := rfl
  unfold Link.authentic
  simp only [show (flitWith n x).slot = false from rfl, show (flitWith n x).tag = x from rfl, show (flitWith n x).inv = 0 from rfl, show (flitWith n x).payload = List.replicate 224 0 from rfl, h1, Bool.true_and]
  exact beq_iff_eq.mpr h

/-- The header of a flit does not hold its tag. -/
theorem flitAad_flitWith (n : Nat) (x y : BitVec 128) : flitAad (flitWith n x) = flitAad (flitWith n y) := rfl

/-- A flit of a valid TYPE is accepted. -/
theorem flitOf_accepted {n : Nat} (h : (BitVec.ofNat 4 n).toNat < 6) : flitLink.fate (flitOf n) = .accepted := by
  have h0 : flitLink.authentic (flitOf n) = true := flitWith_authentic n (tagOf n) (by rw [flitAad_flitWith n (tagOf n) 0]; rfl)
  unfold flitOf at h0 ⊢
  generalize tagOf n = x at h0
  have h2 : (flitWith n x).len.toNat ≤ 14 := by show (1#4).toNat ≤ 14; decide
  have h3 : flitLink.invRises (flitWith n x) = true := rfl
  have h4 : ((flitWith n x).seq == flitLink.expect) = true := rfl
  have h5 : flitLink.discarding = false := rfl
  have h6 : (flitWith n x).ftype.toNat < 6 := h
  simp [Link.fate, Link.verifies, h0, h2, h3, h4, h5, h6]

/-- FlitReceipts: on a link that runs, a flit that is accepted of every TYPE 0 to 5, with a CUT and a DATA flit that this device performs; a DATA flit of a transfer whose OPEN was recorded; one that fails and one that is discarded. -/
theorem wit_flits : (flitState.portLink 0).runs = true ∧ flitState.portLink 0 = flitLink ∧ (flitOf 1).payload.length = 224
    ∧ (∀ n < 6, (flitOf n).ftype = BitVec.ofNat 4 n ∧ flitLink.fate (flitOf n) = .accepted)
    ∧ (let t := flitState.modLink 0 fun _ => flitLink.take (flitOf 4); (t.cutFlit 0 (flitLink.decrypt (flitOf 4))).isSome = true)
    ∧ (let t := flitState.modLink 0 fun _ => flitLink.take (flitOf 1); let p := flitLink.decrypt (flitOf 1)
      p.dest = flitState.node ∧ t.flitContext 0 p = none ∧ (t.performFlit 0 p).isSome = true)
    ∧ (flitLink.decrypt { flitOf 2 with dest := 5 }).dest ≠ flitState.node
    ∧ (let l := cutState.portLink 0; let t := cutState.modLink 0 fun _ => l.take (flitOf 1); let p := l.decrypt (flitOf 1)
      l.runs = true ∧ l.fate (flitOf 1) = .accepted ∧ p.dest = cutState.node ∧ t.flitContext 0 p = some (ctxKey 1 0) ∧ t.cut (ctxKey 1 0) = true ∧ (t.portLink 0).closed (ctxKey 1 0) = false ∧ t.cutRoom (ctxKey 1 0) = true)
    ∧ flitLink.fate { flitOf 0 with seq := 1 } = .failed ∧ ({ flitLink with discarding := true } : Link).fate { flitOf 0 with seq := 1 } = .discarded := by
  have hc : (cutState.portLink 0).fate (flitOf 1) = .accepted := flitOf_accepted (n := 1) (by decide)
  unfold flitOf at hc ⊢
  generalize hx : tagOf = x at hc
  refine ⟨by decide +kernel, by decide +kernel, List.length_replicate, fun n h => ⟨rfl, ?_⟩, rfl, ⟨?_, rfl, rfl⟩, ?_, ⟨by decide +kernel, hc, ?_, rfl, rfl, rfl, (by decide +kernel : cutState.cutRoom (ctxKey 1 0) = true)⟩, ?_, ?_⟩
  · have h6 : (BitVec.ofNat 4 n).toNat < 6 := by simp; omega
    subst hx; exact flitOf_accepted h6
  · show (0#16).toNat = flitState.node
    decide +kernel
  · show (5#16).toNat ≠ flitState.node
    decide +kernel
  · show (0#16).toNat = cutState.node
    decide +kernel
  · have h1 : (({ flitWith 0 (x 0) with seq := 1 } : Flit).seq == flitLink.expect) = false := rfl
    have h2 : ¬(flitLink.expect - ({ flitWith 0 (x 0) with seq := 1 } : Flit).seq).toNat < 2 ^ 15 := by show ¬(0#16 - 1#16).toNat < 2 ^ 15; decide
    have h3 : flitLink.discarding = false := rfl
    simp only [Link.fate, h1, h2, h3, Bool.false_and, Bool.false_eq_true, if_false, ite_self]
  · rfl

/-! ### A save of a captured unit -/

/-- A page that covers a core part at an offset of the save area. -/
def savePage (off : Nat) : Page := { va := 0x10000000000 + off, size := partBytes, vault := false, pa := 0, writable := true }

/-- A unit that is captured. -/
def savedUnit7 : FreezingUnit := { id := 7, unit := .block 0, blocks := [0], since := [(0, 0)], captured := true }

/-- The placed machine with its block captured and frozen, a context whose save area begins at 2^40, and a page for core part 0. -/
def saveState (off : Nat) : State :=
  let s := at' (.nop 0)
  { block s fun b => { b with state := .frozen } with
    freezing := [savedUnit7], contexts := s.contexts.map fun x => (x.1, { x.2 with area := 0x10000000000#64 })
    partitions := s.partitions.map fun p => (p.1, { p.2 with pages := [savePage off], sg := partBytes }) }

/-- Bytes of a mapped range are written; the page stays, and no context changes. -/
theorem writeVirtual_mapped (g : Page) (hv : g.vault = false) (hw : g.writable = true) (hc : g.va + g.size ≤ 2 ^ 56) (bs : List Byte) :
    ∀ (s : State) (va : Nat) (p : Partition), tget s.partitions 1 = some p → p.pages = [g] → g.pa + g.size ≤ p.sg → g.va ≤ va → va + bs.length ≤ g.va + g.size →
    ∃ t q, s.writeVirtual 1 va bs = some t ∧ t.contexts = s.contexts ∧ tget t.partitions 1 = some q ∧ q.pages = [g] ∧ g.pa + g.size ≤ q.sg := by
  induction bs with
  | nil => intro s va p hp hg hs _ _; exact ⟨_, p, rfl, rfl, hp, hg, hs⟩
  | cons b bs ih =>
    intro s va p hp hg hs h1 h2
    simp only [List.length_cons] at h2
    have hx : s.xlate 1 va true = .ok (false, g.pa + (va - g.va)) := by
      have hcv : canonicalVa va = true := by simp [canonicalVa]; omega
      have hf : p.page? va = some g := by simp [Partition.page?, Page.valid, hv, hcv, hg, h1, show va < g.va + g.size by omega, show g.pa + (va - g.va) < p.sg by omega]
      simp [State.xlate, hp, hf, hw, hv]
    simp only [State.writeVirtual, hx]
    obtain ⟨t, q, ht, hc, hq, hqg⟩ := ih (s.writeGlobal 1 (g.pa + (va - g.va)) [b]) (va + 1) { p with gm := p.gm.outsideWrite (g.pa + (va - g.va)) [b] }
      (by simp [State.writeGlobal, State.modPartition, hp, show ¬p.sg < g.pa + (va - g.va) + 1 by omega]) hg hs (by omega) (by omega)
    exact ⟨t, q, ht, by simp [hc, State.writeGlobal, State.modPartition, hp], hq, hqg⟩

/-- Sections that lie in a mapped range are written. -/
theorem writeSections_mapped (g : Page) (hv : g.vault = false) (hw : g.writable = true) (hc : g.va + g.size ≤ 2 ^ 56) (l : List (Nat × List Byte)) :
    ∀ (s : State) (p : Partition), tget s.partitions 1 = some p → p.pages = [g] → g.pa + g.size ≤ p.sg → (∀ x ∈ l, x.1 + x.2.length ≤ g.size) →
    ∃ t, s.writeSections 1 g.va l = some t ∧ t.contexts = s.contexts := by
  induction l with
  | nil => intros; exact ⟨_, rfl, rfl⟩
  | cons x l ih =>
    intro s p hp hg hs h
    have hx := h x (List.mem_cons_self ..)
    obtain ⟨t, q, ht, hct, hq, hqg, hqs⟩ := writeVirtual_mapped g hv hw hc x.2 s (g.va + x.1) p hp hg hs (by omega) (by omega)
    obtain ⟨v, hv', hcv⟩ := ih t q hq hqg hqs fun y hy => h y (List.mem_cons_of_mem _ hy)
    exact ⟨v, by simp only [State.writeSections, ht, Option.bind_some, hv'], hcv.trans hct⟩

/-- A page covers its own range. -/
theorem virtPieces_page {s : State} {p : Partition} {va n : Nat} (hp : tget s.partitions 1 = some p)
    (hg : p.pages = [({ va := va, size := n, vault := false, pa := 0, writable := true } : Page)]) (hn : 0 < n) : s.virtPieces 1 va n = [(0, n)] := by
  have h0 : va < va + n := by omega
  have h4 : va + n - va = n := by omega
  simp only [State.virtPieces, hp, Option.map_some, Option.getD_some, hg, List.filterMap_cons, List.filterMap_nil, Nat.max_self, Nat.min_self, Nat.sub_self, Nat.add_zero, h4, h0, Bool.not_false, Bool.true_and, decide_true, if_true]

/-- The ranges of core part 0 cover it. -/
theorem savePage_pieces {s : State} {p : Partition} {off : Nat} (hp : tget s.partitions 1 = some p) (hg : p.pages = [savePage off]) :
    s.virtPieces 1 (0x10000000000 + off) partBytes = [(0, partBytes)] :=
  virtPieces_page hp hg (by decide)

/-- A record changed under a key of a table. -/
theorem tget_mapAt {α : Type} (t : Table α) (k : Nat) (f : α → α) : tget (t.map fun p => (p.1, if p.1 = k then f p.2 else p.2)) k = (tget t k).map f := by
  induction t with
  | nil => rfl
  | cons p t ih => by_cases h : p.1 = k <;> simp [tget, h, ih]

/-- A core part whose sections lie in it. -/
def fits (p : CorePart) : Prop := p.sections.length ≤ 15 ∧ ∀ x ∈ p.sections.zipIdx 1, sectionAt x.2 + x.1.length ≤ partBytes

/-- A header has 4096 bytes. -/
theorem headerBytes_length (ctx q : Nat) (p : CorePart) (h : p.sections.length ≤ 15) : (headerBytes ctx q p).length = 4096 := by
  have h4 (l : List Nat) : (l.flatMap (bytesOfNat 4)).length = 4 * l.length := by
    induction l with
    | nil => rfl
    | cons x l ih => simp only [List.flatMap_cons, List.length_append, ih, List.length_cons, bytesOfNat, List.length_map, List.length_range]; omega
  have h1 : p.lens.length = p.sections.length + 1 := by simp [CorePart.lens]
  have h2 : p.offs.length = p.sections.length + 1 := by simp [CorePart.offs, h1]
  simp only [headerBytes, List.length_append, h4, sixteen, List.length_replicate, h1, h2, bytesOfNat, List.length_map, List.length_range]
  omega

/-- Core part 0 of a context with that page is written. -/
theorem writePart_mapped {s : State} {p : Partition} {x : Context} (w : Option Seal) (cp : CorePart) (hp : tget s.partitions 1 = some p) (hg : p.pages = [savePage (Config.partOffset 0).toNat]) (hsg : partBytes ≤ p.sg)
    (hx : tget s.contexts (ctxKey 1 0) = some x) (h1 : x.pid = 1) (h2 : x.area = 0x10000000000#64) (hf : fits cp) :
    ∃ t y, s.writePart (ctxKey 1 0) 0 w cp = some t ∧ tget t.contexts (ctxKey 1 0) = some y := by
  have hlt : (Config.partOffset 0).toNat < 2 ^ 40 := (Config.partOffset 0).isLt
  have ha : x.area.toNat = 0x10000000000 := by rw [h2]; decide
  have hs : s.partPieces x 0 = [(0, partBytes)] := by simp only [State.partPieces, h1, ha]; exact savePage_pieces hp hg
  have hw : wholePart [((0 : Nat), partBytes)] = true := by simp [wholePart]
  simp only [State.writePart, hx, hs, hw, Bool.not_true, Bool.false_eq_true, if_false, h1, ha]
  have hq (k : Nat) : tget ((s.modContext (ctxKey 1 0) fun x => { x with saveSeq := tput x.saveSeq 0 k }).modPartition 1 fun p => { p with gm := p.gm.freshPart [(0, partBytes)] }).partitions 1
      = some { p with gm := p.gm.freshPart [(0, partBytes)] } := by simp [State.modPartition, State.modContext, hp]
  generalize hk : (tget x.saveSeq 0).getD 0 + 1 = k
  generalize hl : ((0, headerBytes (ctxKey 1 0 % 2 ^ 32) k cp) :: (cp.sections.zipIdx 1).filterMap fun x => if x.1.isEmpty then none else some (sectionAt x.2, x.1)) = l
  have hb : ∀ y ∈ l, y.1 + y.2.length ≤ (savePage (Config.partOffset 0).toNat).size := by
    subst hl
    intro y hy
    rcases List.mem_cons.mp hy with rfl | hy
    · simp only [headerBytes_length _ _ _ hf.1, savePage, partBytes]; omega
    · obtain ⟨z, hz, he⟩ := List.mem_filterMap.mp hy
      split at he
      · cases he
      · cases he; exact hf.2 z hz
  have hbd : (savePage (Config.partOffset 0).toNat).va + (savePage (Config.partOffset 0).toNat).size ≤ 2 ^ 56 := by
    clear hsg; simp only [savePage, partBytes]; omega
  have hz (m : GlobalMem) : (savePage (Config.partOffset 0).toNat).pa + (savePage (Config.partOffset 0).toNat).size ≤ ({ p with gm := m } : Partition).sg := by
    rw [show (savePage (Config.partOffset 0).toNat).pa = 0 from rfl, Nat.zero_add]; exact hsg
  obtain ⟨t, ht, hc⟩ := writeSections_mapped (savePage (Config.partOffset 0).toNat) rfl rfl hbd l _ _ (hq k) hg (hz _) hb
  have ht' : State.writeSections _ 1 (0x10000000000 + (Config.partOffset 0).toNat) l = some t := ht
  refine ⟨_, { x with saveSeq := tput x.saveSeq 0 k }, by rw [ht', Option.map_some], ?_⟩
  rw [Sys2Proof.Laws.modPartition_contexts, hc, Sys2Proof.Laws.modPartition_contexts]
  exact (tget_mapAt s.contexts (ctxKey 1 0) fun x => { x with saveSeq := tput x.saveSeq 0 k }).trans (by rw [hx]; rfl)

/-- How many bytes a unit's sections have. -/
def sectionLens (s : State) (u : FreezingUnit) (core : Nat) : List Nat :=
  let cs := (s.crewsIn u.blocks).filter fun c => c.core == core
  let sides := (s.unitMembers u).flatMap fun b => (b.sides.zipIdx.filter fun x => x.1.core == core).map fun x => (b, x.2, x.1)
  let r := ((s.unitMembers u).head?.map fun b => s.recordOf b.launch).getD {}
  let sum (ns : List Nat) : Nat := ns.foldl (· + ·) 0
  let images := (sides.filterMap fun x => if x.2.1 != 0 then none else (tget s.launches x.1.launch).bind fun l => tget l.blockImages x.1.id).length
  [256 * cs.length, 512 * cs.length, 512 * sum (cs.map fun c => c.width), 24576 * images, (sides.map fun x => x.1.spadSize).sum
  , sum (sides.map fun x => x.2.2.tiles.length * r.tileBytes + 128), (if r.recompute then 0 else sum (sides.map fun x => accBytes x.1 r))
  , (if r.recompute || !r.mcheck then 0 else 12288 * sides.length)
  , (cs.map fun c => (c.manifestImage (((tget s.blocks c.block).map fun b : Block => (b.side c.side).queue).getD [])).length).sum
  , 64 * ((s.core core).berths.filter fun e => u.blocks.contains e.2.block).length]

/-- A range of scratchpad has the bytes asked for. -/
theorem spadBytes_length (s : State) (b : Block) (side n : Nat) : ∀ off, (s.spadBytes b side off n).length = n := by
  induction n with
  | zero => intro _; rfl
  | succ n ih => intro off; simp [State.spadBytes, ih]

/-- They are those of its core part. -/
theorem corePart_lens (s : State) (u : FreezingUnit) (core : Nat) : (s.corePart u core).sections.map List.length = sectionLens s u core := by
  simp [State.corePart, sectionLens, spadBytes_length, saveSection, List.length_flatMap]

/-- A core part fits where its sections have so many bytes. -/
theorem fits_of_lens (p : CorePart) (ns : List Nat) (h : p.sections.map List.length = ns) (hn : ns.length ≤ 15)
    (hb : ((ns.zipIdx 1).all fun x => decide (sectionAt x.2 + x.1 ≤ partBytes)) = true) : fits p := by
  subst h
  refine ⟨by simpa using hn, fun x hx => ?_⟩
  have := List.all_eq_true.mp hb (x.1.length, x.2) (by rw [List.zipIdx_map]; exact List.mem_map.mpr ⟨x, hx, rfl⟩)
  simpa using this

/-- With no flit recorded nothing joins a manifest, and no partition, context or saved unit changes. -/
theorem takeCut_keeps (s : State) (u : FreezingUnit) (ctx : Nat) :
    (s.takeCut u ctx).partitions = s.partitions ∧ (s.takeCut u ctx).contexts = s.contexts ∧ (s.takeCut u ctx).saved = s.saved := by
  unfold State.takeCut; split
  · exact ⟨rfl, rfl, rfl⟩
  · simp [State.keepCut]

/-- PreemptionEvents: a captured unit of one core, whose part the save area of its context holds. -/
theorem wit_context_save : ∃ s : State, s.freezingUnit? 7 = some savedUnit7 ∧ savedUnit7.captured = true ∧ s.unitMembers savedUnit7 ≠ []
    ∧ (∀ k ∈ coresOf (s.unitMembers savedUnit7), ∀ v ∈ s.vaultView k, savedUnit7.pendMark ≤ v.seq) ∧ s.cutComplete (s.unitCtx savedUnit7) = true
    ∧ (let bs := s.unitMembers savedUnit7
      let v := s.takeCut savedUnit7 (s.unitCtx savedUnit7)
      let parts := v.freeParts (s.unitCtx savedUnit7) (coresOf bs).length
      ∃ t x, v.writeParts (s.unitCtx savedUnit7) (v.unitSeal bs) (parts.zip ((coresOf bs).map (v.corePart savedUnit7))) = some t
        ∧ tget t.contexts (s.unitCtx savedUnit7) = some x) := by
  obtain ⟨hp, hx, hs⟩ := takeCut_keeps (saveState (Config.partOffset 0).toNat) savedUnit7 (ctxKey 1 0)
  have hf : fits (((saveState (Config.partOffset 0).toNat).takeCut savedUnit7 (ctxKey 1 0)).corePart savedUnit7 0) :=
    fits_of_lens _ _ (corePart_lens ..) (by simp [sectionLens]) (by decide +kernel)
  obtain ⟨t, y, ht, hy⟩ := writePart_mapped (s := (saveState (Config.partOffset 0).toNat).takeCut savedUnit7 (ctxKey 1 0)) (p := _) (x := _)
    (((saveState (Config.partOffset 0).toNat).takeCut savedUnit7 (ctxKey 1 0)).unitSeal ((saveState (Config.partOffset 0).toNat).unitMembers savedUnit7)) _
    (by rw [hp]; rfl) rfl (Nat.le_refl _) (by rw [hx]; rfl) rfl rfl hf
  generalize (Config.partOffset 0).toNat = off at *
  have hfree : ((saveState off).takeCut savedUnit7 (ctxKey 1 0)).freeParts (ctxKey 1 0) 1 = [0] := by unfold State.freeParts; rw [hs]; rfl
  refine ⟨saveState off, rfl, rfl, by rw [show (saveState off).unitMembers savedUnit7 = [_] from rfl]; simp, ?_, rfl, t, y, ?_, hy⟩
  · rw [show coresOf ((saveState off).unitMembers savedUnit7) = [0] from rfl, show (saveState off).vaultView = (at' (.nop 0)).vaultView from rfl]
    exact (by decide +kernel : ∀ k ∈ [0], ∀ v ∈ (at' (.nop 0)).vaultView k, 0 ≤ v.seq)
  · rw [show (saveState off).unitCtx savedUnit7 = ctxKey 1 0 from rfl, show coresOf ((saveState off).unitMembers savedUnit7) = [0] from rfl]
    simp only [List.length_singleton, hfree, List.map_cons, List.map_nil, List.zip_cons_cons, List.zip_nil_right, State.writeParts, ht, Option.bind_some]

end Sys2Proof.Tests
end

section
/-! SUPPORT. Control registers: what the four CSR words come to, what a write leaves of a crew (R68-R75, R377-R379), and the registers at creation (R42). -/

namespace Sys2Proof.Laws

open Sys2Proof.Machine

/-! ### A crew changed, and a crew outside a shadow pair -/

/-- A crew that stands in the table is what the change makes of it. -/
theorem tget_modCrew_same {s : State} {k : Nat} {w : Crew} (h : tget s.crews k = some w) (f : Crew → Crew) :
    tget (s.modCrew k f).crews k = some (f w) := by
  simp [State.modCrew, h]

/-- The same of its registers alone. -/
theorem tget_modRegs_same {s : State} {k : Nat} {w : Crew} (h : tget s.crews k = some w) (f : CrewRegs → CrewRegs) :
    tget (s.modRegs k f).crews k = some { w with regs := f w.regs } :=
  tget_modCrew_same h _

/-- A crew outside a shadow pair leaves no record of what it reads (R464). -/
theorem recordS_alone {c : Ctx} (h : c.crew.shadow = none) (s : State) (v : RegVal) : s.recordS c v = s := by
  simp [State.recordS, State.recordLv, State.modLvq, State.modFollower, Crew.isShadow, h]

/-! ### The bodies of the CSR words -/

/-- A register of a privilege that the group does not run in is refused in every active lane (R68, R378). -/
theorem csrProt_of_privileged {c : Ctx} {n : Nat}
    (h : (0x800 ≤ n ∧ c.crew.inSupervisor c.grp = false) ∨ (0x400 ≤ n ∧ n ≤ 0x406 ∧ c.handler = false)) :
    c.csrProt n = some (c.fail .prot c.active 2 1) := by
  rcases h with ⟨hn, hs⟩ | ⟨hlo, hhi, hh⟩
  · simp [Ctx.csrProt, hn, hs]
  · simp [Ctx.csrProt, hlo, hhi, hh, show ¬ 0x800 ≤ n by omega]

theorem bodyCsrr_of_prot {c : Ctx} {r : BitVec 12} {t : TrapInfo} (h : c.csrProt r.toNat = some t) (d : BitVec 5) (s : State) :
    bodyCsrr d r c s = .trap t := by
  simp [bodyCsrr, h]

/-- %clk in a STRICT launch is not deterministic (R71). -/
theorem bodyCsrr_of_strict_clk {c : Ctx} {r : BitVec 12} (h : c.csrProt r.toNat = none) (hn : r.toNat = 0x024)
    (hs : c.record.strict = true) (d : BitVec 5) (s : State) : bodyCsrr d r c s = .trap (c.fail .ndet c.active) := by
  rw [hn] at h
  simp [bodyCsrr, h, hn, hs]

theorem bodyCsrr_of_readable {c : Ctx} {r : BitVec 12} (h : c.csrProt r.toNat = none) (hn : ¬(r.toNat = 0x024 ∧ c.record.strict = true))
    (ha : c.crew.shadow = none) (d : BitVec 5) (s : State) :
    bodyCsrr d r c s = .done (s.writeS c d
      { bits := BitVec.ofNat 64 (s.csrRead c r.toNat), tag := if r.toNat = 0x402 then .m64 else .n64 }) := by
  have hw : ∀ p : Prop, ∀ [Decidable p], (if p then Tag.m64 else Tag.n64).is32 = false := by
    intro p _
    split <;> rfl
  simp [bodyCsrr, h, hn, mkVal, hw, recordS_alone ha]

/-- The three words that write differ in their function of the old value alone (R377). -/
theorem wordBody_csrw (ch : BitVec 1) (a : BitVec 5) (r : BitVec 12) : wordBody (.csrw ch a r) = csrWrite a r fun _ x => x := rfl
theorem wordBody_csrs (ch : BitVec 1) (a : BitVec 5) (r : BitVec 12) : wordBody (.csrs ch a r) = csrWrite a r fun o x => o ||| x := rfl
theorem wordBody_csrc (ch : BitVec 1) (a : BitVec 5) (r : BitVec 12) : wordBody (.csrc ch a r) = csrWrite a r fun o x => o &&& ~~~x := rfl

theorem csrWrite_of_prot {c : Ctx} {r : BitVec 12} {t : TrapInfo} (h : c.csrProt r.toNat = some t) (a : BitVec 5)
    (f : DWord → DWord → DWord) (s : State) : csrWrite a r f c s = .trap t := by
  simp [csrWrite, h, firstTrap]

/-- A code of %tile that selects no width, or one wider than the crew (R72, R73). -/
def TileRefused (c : Ctx) (n : Nat) (v : DWord) : Prop :=
  n = 0x104 ∧ (5 < v.toNat % 8 ∨ (v.toNat % 8 ≠ 0 ∧ c.crew.width < 2 ^ (v.toNat % 8)))

/-- An integer or a mask in A passes the operand check of the three writing words. -/
theorem csrOperand_ok {c : Ctx} {x : RegVal} (h : x.tag.isInt = true ∨ x.tag = .m64) :
    c.scalarCheck [(2, x, fun t => t.isInt || t == .m64)] = none := by
  have hp : x.tag ≠ .poison := by
    rintro hp
    rw [hp] at h
    exact absurd h (by decide)
  rcases h with h | h
  · simp [Ctx.scalarCheck, hp, h]
  · simp [Ctx.scalarCheck, h]

/-- Code 0 selects the crew's own width, which is never too wide. -/
theorem lt_tileCodeWidth (k w : Nat) : w < tileCodeWidth k w ↔ k ≠ 0 ∧ w < 2 ^ k := by
  unfold tileCodeWidth
  split
  · next hk => simp [hk]
  · next hk => simp [hk]

/-- The three writing words, with the check of %tile in the statement's terms. -/
theorem csrWrite_of_ok {c : Ctx} {a : BitVec 5} {r : BitVec 12} (h : c.csrProt r.toNat = none)
    (ht : (c.getS a).tag.isInt = true ∨ (c.getS a).tag = .m64) (f : DWord → DWord → DWord) (s : State) :
    let v := f (BitVec.ofNat 64 (s.csrRead c r.toNat)) (c.getS a).bits
    (TileRefused c r.toNat v → csrWrite a r f c s = .trap (c.fail .illop c.active 2))
    ∧ (¬TileRefused c r.toNat v → csrWrite a r f c s = .done (s.csrPut c r.toNat v)) := by
  intro v
  have hv : (r.toNat = 0x104 && (5 < v.toNat % 8 || c.crew.width < tileCodeWidth (v.toNat % 8) c.crew.width)) = true ↔ TileRefused c r.toNat v := by
    simp only [Bool.and_eq_true, Bool.or_eq_true, decide_eq_true_eq, lt_tileCodeWidth, TileRefused]
  simp only [csrWrite, h, csrOperand_ok ht, firstTrap]
  exact ⟨fun hr => if_pos (hv.mpr hr), fun hr => if_neg (mt hv.mp hr)⟩

/-- The four words are crew-uniform words whose bodies refuse a register first of all. -/
theorem csrWord_refuses {ch : BitVec 1} {d : BitVec 5} {r : BitVec 12} {i : Instr}
    (hi : i ∈ [Instr.csrr ch d r, .csrw ch d r, .csrs ch d r, .csrc ch d r]) :
    isEvent i = false ∧ uniform i = true ∧ ∀ (c : Ctx) (s : State) (t : TrapInfo), c.csrProt r.toNat = some t → wordBody i c s = .trap t := by
  simp only [List.mem_cons, List.not_mem_nil, or_false] at hi
  rcases hi with rfl | rfl | rfl | rfl
  · exact ⟨rfl, rfl, fun c s t h => bodyCsrr_of_prot h d s⟩
  · exact ⟨rfl, rfl, fun c s t h => by rw [wordBody_csrw]; exact csrWrite_of_prot h d _ s⟩
  · exact ⟨rfl, rfl, fun c s t h => by rw [wordBody_csrs]; exact csrWrite_of_prot h d _ s⟩
  · exact ⟨rfl, rfl, fun c s t h => by rw [wordBody_csrc]; exact csrWrite_of_prot h d _ s⟩

/-! ### What a write leaves of a crew -/

/-- Every control register write is a change of the crew's registers that keeps all but its own, or of the supervisor's action alone. -/
theorem tget_csrPut {s : State} {c : Ctx} {w : Crew} (hw : tget s.crews c.cid = some w) (n : Nat) (v : DWord) :
    ∃ u, tget (s.csrPut c n v).crews c.cid = some u ∧ u.groups = w.groups ∧ u.regs = { w.regs with
      fpmode := if n = 0x100 then v &&& 7 else w.regs.fpmode
      fpflags := if n = 0x101 then v &&& 31 else w.regs.fpflags
      fptrap := if n = 0x102 then v &&& 31 else w.regs.fptrap
      tile := if n = 0x104 then v.extractLsb' 0 3 else w.regs.tile
      shandler := if n = 0x801 then v &&& 0x00FFFFFFFFFFFFFF else w.regs.shandler } := by
  unfold State.csrPut
  split
  · exact ⟨_, tget_modRegs_same hw _, rfl, rfl⟩
  · exact ⟨_, tget_modRegs_same hw _, rfl, rfl⟩
  · exact ⟨_, tget_modRegs_same hw _, rfl, rfl⟩
  · exact ⟨_, tget_modRegs_same hw _, rfl, rfl⟩
  · exact ⟨_, tget_modRegs_same hw _, rfl, rfl⟩
  · split
    · exact ⟨w, hw, rfl, rfl⟩
    · exact ⟨_, tget_modCrew_same hw _, rfl, rfl⟩
  · next h0 h1 h2 h4 h8 _ => exact ⟨w, hw, rfl, by rw [if_neg h0, if_neg h1, if_neg h2, if_neg h4, if_neg h8]⟩

/-! ### Registers at creation (R42, R223) -/

/-- The registers with which a crew begins where no image gives them (R42, R223). -/
theorem freshRegs_none (n : Nat) (start shandler : DWord) :
    freshRegs n start shandler none = { lanes := List.replicate n {}, restart := start, shandler := shandler } := rfl

/-- A register file at its creation: each register 0 with tag RAW (R42). -/
theorem fresh_register {n k : Nat} (h : k < n) :
    ((Vector.replicate n ({} : RegVal))[k]?.map fun v => (v.bits, v.tag)) = some (0, Tag.raw) := by
  rw [Vector.getElem?_replicate, if_pos h]
  rfl

end Sys2Proof.Laws

namespace Sys2Proof.Proofs

open Sys2Proof.Machine Sys2Proof.Laws

/-- R68, R111, R378: the privileged registers are refused to the four words, which only pass with no active lane. -/
theorem csrWord_privilege {s : State} {c : Ctx} {ch : BitVec 1} {d : BitVec 5} {r : BitVec 12} {i : Instr}
    (hi : i ∈ [Instr.csrr ch d r, .csrw ch d r, .csrs ch d r, .csrc ch d r]) (hr : Ready s i c) :
    (c.active = [] → Runs i s c id)
    ∧ (c.active ≠ [] → ((0x800 ≤ r.toNat ∧ c.crew.inSupervisor c.grp = false) ∨ (0x400 ≤ r.toNat ∧ r.toNat ≤ 0x406 ∧ c.handler = false)) →
      Traps i s c (c.go.fail .prot c.active 2 1)) := by
  obtain ⟨hev, hun, hbody⟩ := csrWord_refuses hi
  exact ⟨runs_idle hr hev hun, fun ha hp => traps_of_trap hr hev (fun _ => ha) (hbody c.go _ _ (csrProt_of_privileged (c := c.go) hp))⟩

/-- R69-R71, R377: CSRR of a register that it may read. -/
theorem csrr_allowed {s : State} {c : Ctx} {ch : BitVec 1} {d : BitVec 5} {r : BitVec 12} (hr : Ready s (.csrr ch d r) c)
    (ha : c.active ≠ []) (hp : c.csrProt r.toNat = none) :
    ((r.toNat = 0x024 ∧ c.record.strict = true) → Traps (.csrr ch d r) s c (c.go.fail .ndet c.active))
    ∧ (¬(r.toNat = 0x024 ∧ c.record.strict = true) → Runs (.csrr ch d r) s c fun t => t.writeS c d {
        bits := BitVec.ofNat 64 (t.csrRead c r.toNat), tag := if r.toNat = 0x402 then .m64 else .n64 }) :=
  ⟨fun ⟨hn, hs⟩ => traps_of_trap hr rfl (fun _ => ha) (bodyCsrr_of_strict_clk (c := c.go) hp hn hs d _),
    fun hn => runs_of_done hr rfl (fun _ => ha) (bodyCsrr_of_readable (c := c.go) hp hn hr.alone d _)⟩

/-- R72, R73, R377, R379: one of the three writing words, whose body is csrWrite with the function of the old value. -/
theorem csrWrite_allowed {s : State} {c : Ctx} {a : BitVec 5} {r : BitVec 12} {i : Instr} {f : DWord → DWord → DWord}
    (hev : isEvent i = false) (hb : wordBody i = csrWrite a r f) (hr : Ready s i c) (ha : c.active ≠ [])
    (ht : (c.getS a).tag.isInt = true ∨ (c.getS a).tag = .m64) (hp : c.csrProt r.toNat = none) :
    let v := f (BitVec.ofNat 64 ((s.atEffect i c).csrRead c r.toNat)) (c.getS a).bits
    (TileRefused c r.toNat v → Traps i s c (c.go.fail .illop c.active 2))
    ∧ (¬TileRefused c r.toNat v → Runs i s c fun t => t.csrPut c r.toNat v) := by
  obtain ⟨htrap, hdone⟩ := csrWrite_of_ok (c := c.go) hp ht f (s.atEffect i c)
  exact ⟨fun hw => traps_of_trap hr hev (fun _ => ha) (by rw [hb]; exact htrap hw),
    fun hw => runs_of_done (f := fun t => t.csrPut c r.toNat _) hr hev (fun _ => ha) (by rw [hb]; exact hdone hw)⟩

/-- Settles O49: the four words through their bodies, and a write through the registers that it keeps. -/
theorem controlRegisters : Obligations.ControlRegisters := by
  refine ⟨fun s c ch d r i hi hr => csrWord_privilege hi hr, ⟨fun s c ch d r hr ha hp => csrr_allowed hr ha hp, ?_⟩, ?_⟩
  · intro s c ch a r ht hp q hq
    simp only [List.mem_cons, List.not_mem_nil, or_false] at hq
    rcases hq with rfl | rfl | rfl
    · exact fun hr ha => csrWrite_allowed rfl (wordBody_csrw ch a r) hr ha ht hp
    · exact fun hr ha => csrWrite_allowed rfl (wordBody_csrs ch a r) hr ha ht hp
    · exact fun hr ha => csrWrite_allowed rfl (wordBody_csrc ch a r) hr ha ht hp
  · intro s c w n v hw
    obtain ⟨u, hu, hg, hregs⟩ := tget_csrPut hw n v
    refine ⟨u, hu, ?_⟩
    simp [hregs, hg]

/-- Settles O42: the initial values of the state, a slice and a lane as they are declared, and every register file through its one element. -/
theorem resetValues : Obligations.ResetValues := by
  refine ⟨⟨rfl, rfl, rfl, rfl, rfl, rfl, rfl, rfl, rfl, rfl, rfl⟩, ⟨rfl, rfl, rfl, rfl, rfl, rfl, rfl, rfl, rfl, rfl, rfl⟩,
    ⟨fun k hk => fresh_register hk, fun k hk => fresh_register hk, rfl, rfl⟩, fun n start shandler => ?_⟩
  rw [freshRegs_none]
  exact ⟨rfl, fun k hk => fresh_register hk, rfl, rfl, rfl, rfl, rfl, rfl, rfl, rfl, rfl⟩

end Sys2Proof.Proofs
end

section
/-! SUPPORT. The host side: window registers, the MOVE command, interrupt sources, and accesses from outside (R335, R418, R430, R435-R442, R462, R487). -/

namespace Sys2Proof.Laws

open Sys2Proof.Machine

/-! ### Slices changed -/

/-- The record of a slice is what the change makes of it. -/
@[simp] theorem slice_modSlice_same (s : State) (k : Nat) (f : Slice → Slice) : (s.modSlice k f).slice k = f (s.slice k) := by
  simp [State.modSlice, State.slice]

/-! ### Events of the window and of the owner -/

/-- An event that can take place answers its next state. -/
theorem enabledEvent_some {o : Option State} {t : State} (h : o = some t) : enabledEvent o = .next t := by
  rw [h, enabledEvent]

/-- A command of the owner's mailbox that executes, and can go on. -/
theorem ownerCommand_of_takes {s t : State} {code : Nat} {cmd : BitVec 128} {o : Option State} (h : s.ownerTakes code cmd = true)
    (ho : o = some t) : ownerCommand code cmd s o = .next t := by
  rw [ownerCommand, if_pos h]
  exact enabledEvent_some ho

theorem exec_registerWrite {k : Nat} (hk : k < 16) (s : State) (off : Nat) (v : DWord) :
    exec (.registerWrite k off v) s = .next (s.registerWrite k off v) := if_pos hk

theorem exec_pwaysWrite {k : Nat} (hk : k < 16) (s : State) (v : DWord) : exec (.pwaysWrite k v) s = .next (s.pwaysWrite k v) := if_pos hk

/-- The released ways are sealed while PWBUSY is 1 (R418). -/
theorem pwaysDone_of_busy {s : State} {k : Nat} (h : (s.slice k).pwBusy = true) :
    s.pwaysDone k = some ((s.modPartition (s.slice k).fwPid fun p => { p with
      gm := p.gm.settleSectors fun j => (tget p.gm.sealed j).isSome }).modSlice k fun x => { x with pways := x.pwTarget, pwBusy := false, plines := [] }) := by
  simp [State.pwaysDone, h]

/-! ### Registers of the window -/

/-- The low half of a doubleword as a number. -/
theorem low_toNat (v : DWord) : (v.truncate 32 : Word).toNat = v.toNat % 2 ^ 32 := BitVec.toNat_setWidth ..

/-- The quantum of priority class n (R358). -/
theorem registerWrite_quantum (s : State) (k : Nat) {n : Nat} (hn : n < 24) (v : DWord) :
    s.registerWrite k (0x100 + 8 * n) v
      = s.modSlice k fun x => { x with quantum := x.quantum.set n (max (v.toNat % 2 ^ 32) 0x10000) } := by
  have hi : (0x100 + 8 * n - 0x100) / 8 = n := by omega
  have hoff : (decide (0x100 ≤ 0x100 + 8 * n) && decide (0x100 + 8 * n < 0x1C0) && decide ((0x100 + 8 * n) % 8 = 0)) = true := by
    simp only [Bool.and_eq_true, decide_eq_true_eq]
    omega
  calc s.registerWrite k (0x100 + 8 * n) v
      = s.modSlice k fun x => { x with
          quantum := x.quantum.set ((0x100 + 8 * n - 0x100) / 8) (max (v.truncate 32 : Word).toNat 0x10000) } := if_pos hoff
    _ = _ := by rw [hi, low_toNat]

/-- %shandler of core c of the slice (R436). -/
theorem registerWrite_shandler (s : State) (k : Nat) {c : Nat} (hc : c < 32) (v : DWord) :
    s.registerWrite k (0x8008 + 0x400 * c) v = s.modCore (32 * k + c) fun x => { x with shandler := v &&& 0x00FFFFFFFFFFFFFF#64 } := by
  have hlow : (decide (0x100 ≤ 0x8008 + 0x400 * c) && decide (0x8008 + 0x400 * c < 0x1C0) && decide ((0x8008 + 0x400 * c) % 8 = 0)) ≠ true := by
    simp only [ne_eq, Bool.and_eq_true, decide_eq_true_eq]
    omega
  have hhigh : (decide (0x8000 ≤ 0x8008 + 0x400 * c) && decide (0x8008 + 0x400 * c < 0x10000)) = true := by
    simp only [Bool.and_eq_true, decide_eq_true_eq]
    omega
  have hreg : (0x8008 + 0x400 * c - 0x8000) % 0x400 = 8 := by omega
  have hcore : k * 32 + (0x8008 + 0x400 * c - 0x8000) / 0x400 = 32 * k + c := by omega
  rw [← hcore]
  exact (if_neg hlow).trans ((if_pos hhigh).trans (if_pos hreg))

/-- Registers that are read-only, reserved or absent (R4, R436). -/
theorem registerWrite_ignored (s : State) (k : Nat) {off : Nat} (v : DWord)
    (h : off ∈ [0x210, 0x308, 0x400, 0x500, 0x508, 0x610, 0x718, 0x010, 0x1C8, 0x630, 0xFFF8]) : s.registerWrite k off v = s := by
  simp only [List.mem_cons, List.not_mem_nil, or_false] at h
  rcases h with rfl | rfl | rfl | rfl | rfl | rfl | rfl | rfl | rfl | rfl | rfl <;> rfl

theorem registerWrite_balance (s : State) (k : Nat) (v : DWord) :
    s.registerWrite k 0x1C0 v = s.modSlice k fun x => { x with balance := v.toNat % 16 } := rfl

theorem registerWrite_fqBase (s : State) (k : Nat) (v : DWord) : s.registerWrite k 0x200 v = s.modSlice k fun x => { x with fqBase := v } := rfl

/-- FQ_CONS raises the fault source of its slice again where records remain (R453). -/
theorem registerWrite_fqCons (s : State) (k : Nat) (v : DWord) :
    let t := s.modSlice k fun x => { x with fqCons := v.truncate 32 }
    s.registerWrite k 0x218 v = if (t.slice k).fqProd = v.truncate 32 then t else t.raiseSource (s.slice k).fwPid k 0 := rfl

/-- A 1 written to VQ_LOST clears its bit (R409). -/
theorem registerWrite_vqLost (s : State) (k : Nat) (v : DWord) :
    s.registerWrite k 0x620 v = s.modPartition (s.slice k).fwPid fun p => { p with vqLost := p.vqLost &&& (0xFFFFFFFF ^^^ v.toNat % 2 ^ 32) } := by
  rw [← low_toNat]
  rfl

/-- A 1 written to CECNT clears its bit (R457). -/
theorem registerWrite_cecnt (s : State) (k : Nat) (v : DWord) :
    s.registerWrite k 0x628 v = s.modSlice k fun x => { x with cecnt := x.cecnt &&& (0xFFFFFFFF ^^^ v.toNat % 2 ^ 32) } := by
  rw [← low_toNat]
  rfl

/-! ### The MOVE command (R438-R442) -/

/-- A MOVE that has not begun and fails its checks. -/
theorem resizeMove_of_refused {s : State} {cmd : BitVec 128} {r : Nat × Nat} (hm : s.harbour.moving ≠ some cmd)
    (hr : s.resizeRefusal (resizeCmd cmd) = some r) : s.resizeMove cmd = some (s.ownerDone r.1 r.2) := by
  simp [State.resizeMove, hm, hr]

/-- A MOVE that passes its checks. -/
theorem resizeMove_of_passed {s : State} {cmd : BitVec 128} (hm : s.harbour.moving ≠ some cmd) (hr : s.resizeRefusal (resizeCmd cmd) = none) :
    s.resizeMove cmd = some (({ s with harbour := { s.harbour with moving := some cmd } } : State).unassign (resizeCmd cmd).slice) := by
  simp [State.resizeMove, hm, hr]

/-- A MOVE that has begun, its slice vacated. -/
theorem resizeMove_of_vacated {s : State} {cmd : BitVec 128} (hm : s.harbour.moving = some cmd)
    (ho : s.sliceOccupied (resizeCmd cmd).slice = false) (hn : s.nmcOn (resizeCmd cmd) = false) :
    s.resizeMove cmd = some (s.moveOn (resizeCmd cmd)) := by
  simp [State.resizeMove, hm, ho, hn]

/-! ### Interrupt sources (R435, R487) -/

/-- A source that the partition has, aimed at a host core of the partition. -/
theorem enableSource_of_owned {s : State} {pid : Nat} {st : SourceSetting} {x : IntSource} (hs : sourceSlice st.src ∈ s.slicesOf pid)
    (hx : tget (s.slice (sourceSlice st.src)).sources st.src = some x) (ht : st.target / 8 ∈ s.slicesOf pid) :
    let now := st.enable && x.pending
    let t := s.putSource st.src { pending := x.pending && !now, enabled := st.enable, target := st.target, identity := st.identity }
    s.enableSource pid st = some (if now = true then t.deliver st.target st.identity else t) := by
  simp [State.enableSource, State.source, hs, hx, ht]

/-! ### Accesses from outside (R335, R422, R430, R436, R479) -/

/-- No host cores of the requester's partition wait for their release (R474, log 47). -/
def PortsSettled (s : State) (q : HostReq) : Prop :=
  agentIsPcie q.agent = true ∨ ∀ p, tget s.partitions q.pid = some p → p.booting = false

/-- The requester runs, and its partition's interface lets the request through (R479, R484). -/
structure Admitted (s : State) (q : HostReq) : Prop where
  settled : PortsSettled s q
  stands : s.hartStands q = false
  lets : ∀ p, tget s.partitions q.pid = some p → p.lets q = true

/-- Host cores that are not booting are not released again. -/
theorem releaseHarts_of_settled {s : State} {q : HostReq} (h : PortsSettled s q) :
    (if agentIsPcie q.agent then s else s.releaseHarts q.pid) = s := by
  rcases h with h | h
  · exact if_pos h
  · have hb : ((tget s.partitions q.pid).map fun p : Partition => p.booting).getD false = false := by
      cases hp : tget s.partitions q.pid with
      | none => rfl
      | some p => exact h p hp
    simp [State.releaseHarts, hb]

theorem hostAccess_of_halted {s : State} {q : HostReq} (hb : PortsSettled s q) (h : s.hartStands q = true) (ep : Bool) :
    s.hostAccess q ep = s.answer none false := by
  simp only [State.hostAccess, releaseHarts_of_settled hb, h, if_true]

theorem hostAccess_of_barred {s : State} {q : HostReq} (hb : PortsSettled s q) (h : s.hartStands q = false) (ht : ownerTarget q = false)
    (hl : ∃ p, tget s.partitions q.pid = some p ∧ p.lets q = false) (ep : Bool) :
    s.hostAccess q ep = s.refuseHost q (s.accessSlice q) (targetAddr q.target) := by
  obtain ⟨p, hp, hl⟩ := hl
  simp [State.hostAccess, releaseHarts_of_settled hb, h, ht, State.partition?, hp, hl]

/-- An admitted access goes to what its target names. -/
theorem hostAccess_of_admitted {s : State} {q : HostReq} (h : Admitted s q) (ep : Bool) :
    (∀ a, q.target = .global a → s.hostAccess q ep = s.accessGlobal q a ep)
    ∧ (∀ core off, q.target = .vault core off → s.hostAccess q ep = s.accessVault q core off ep)
    ∧ (∀ slice off, q.target = .window slice off → s.hostAccess q ep = s.accessWindow q slice off) := by
  have hl : (!ownerTarget q && (s.partition? q.pid).any fun p => !p.lets q) = false := by
    cases hp : tget s.partitions q.pid with
    | none => simp [State.partition?, hp]
    | some p => simp [State.partition?, hp, h.lets p hp]
  refine ⟨fun a ht => ?_, fun core off ht => ?_, fun slice off ht => ?_⟩ <;>
    simp only [State.hostAccess, releaseHarts_of_settled h.settled, h.stands, hl, ht, Bool.false_eq_true, if_false]

/-- The bytes that an access moves. -/
def accessLen (q : HostReq) : Nat := (q.data.map List.length).getD q.len

/-- An access to global memory: refused at a home, answered by nothing beyond the space, else performed (R422, R430). -/
theorem accessGlobal_of_refused {s : State} {q : HostReq} {a k : Nat} (h : s.globalRefused q.srcSlice q.pid a (accessLen q) = some k) (ep : Bool) :
    s.accessGlobal q a ep = s.refuseHost q k a := by
  rw [accessLen] at h
  simp [State.accessGlobal, h]

section Global

variable {s : State} {q : HostReq} {a : Nat} {p : Partition}

/-- No home of the range refuses it, and each runs. -/
structure HomesOpen (s : State) (q : HostReq) (a : Nat) : Prop where
  accepted : s.globalRefused q.srcSlice q.pid a (accessLen q) = none
  run : ∀ g ∈ homeGranules a (accessLen q), s.sliceRuns (s.homeSlice q.pid g) = true

theorem HomesOpen.none_halted (h : HomesOpen s q a) :
    ((homeGranules a (accessLen q)).any fun g => !s.sliceRuns (s.homeSlice q.pid g)) = false := by
  simpa using h.run

theorem accessGlobal_of_beyond (h : HomesOpen s q a) (hp : tget s.partitions q.pid = some p) (hn : p.sg < a + accessLen q) (ep : Bool) :
    s.accessGlobal q a ep = s.answer none false := by
  obtain ⟨ha, hr⟩ := And.intro h.accepted h.none_halted
  rw [accessLen] at ha hr hn
  simp only [State.accessGlobal, ha, hr, hp, Option.map_some, Option.getD_some, hn, Bool.false_eq_true, if_false, if_true]

/-- Inside the space the access is performed: a write as outsideWrite, a read through the checks of its sectors (R462). -/
theorem accessGlobal_of_inside (h : HomesOpen s q a) (hp : tget s.partitions q.pid = some p) (hn : a + accessLen q ≤ p.sg) (ep : Bool) :
    (∀ bs, q.data = some bs → s.accessGlobal q a ep = (s.outsideWrite q.pid a bs ep).answer (some []) false)
    ∧ (q.data = none → let r := s.outsideSectors q.pid (agentIsPcie q.agent) (sectorsOf a (accessLen q))
      s.accessGlobal q a ep = r.2.answer ((tget r.2.partitions q.pid).map fun p : Partition => p.gm.outside (agentIsPcie q.agent) a (accessLen q)) r.1) := by
  have hn : ¬ p.sg < a + accessLen q := by omega
  obtain ⟨ha, hr⟩ := And.intro h.accepted h.none_halted
  rw [accessLen] at ha hr hn
  refine ⟨fun bs hd => ?_, fun hd => ?_⟩
  all_goals
    simp only [State.accessGlobal, accessLen, ha, hr, hp, Option.map_some, Option.getD_some, hn, Bool.false_eq_true, if_false]
    rw [hd]

end Global

section Vault

variable {s : State} {q : HostReq} {core off : Nat}

/-- The vault's slice accepts the access and runs, and the access lies within the core's vault. -/
structure VaultOpen (s : State) (q : HostReq) (core off : Nat) : Prop where
  accepted : s.firewallOk q.srcSlice (core / 32) q.pid = true
  inside : off + accessLen q ≤ 2 ^ 23
  listed : core < 512
  runs : s.sliceRuns (core / 32) = true

theorem accessVault_of_refused (h : s.firewallOk q.srcSlice (core / 32) q.pid = false) (ep : Bool) :
    s.accessVault q core off ep = s.refuseHost q (core / 32) (core * 2 ^ 23 + off) := by
  simp [State.accessVault, h]

/-- A world's window reads zero and discards a write; elsewhere the access is performed (R422). -/
theorem accessVault_of_open (h : VaultOpen s q core off) (ep : Bool) :
    let pa := core * 2 ^ 23 + off
    let n := accessLen q
    (s.vaultWindowed q.pid pa n = true → s.accessVault q core off ep
      = (s.refusalRecord q.srcSlice (core / 32) q.pid (BitVec.ofNat 64 pa) .vault).answer (some (if q.data.isSome then [] else List.replicate n 0)) false)
    ∧ (s.vaultWindowed q.pid pa n = false →
      (∀ bs, q.data = some bs → s.accessVault q core off ep
        = ({ s with vault := s.vault.inbound (agentIsPcie q.agent) pa bs ep } : State).answer (some []) false)
      ∧ (q.data = none → let t := s.detect core q.pid 0 (.vault pa) n
        let r := if agentIsPcie q.agent then t.vaultChecks q core pa n else (false, t)
        s.accessVault q core off ep = r.2.answer (some (r.2.vault.bytes pa n)) (r.2.vault.poisoned pa n || r.1))) := by
  obtain ⟨ha, hn, hc, hr⟩ := h
  have hin : (decide (2 ^ 23 < off + (q.data.map List.length).getD q.len) || decide (512 ≤ core) || !s.sliceRuns (core / 32)) = false := by
    rw [accessLen] at hn
    simpa [hr, hc] using hn
  intro pa n
  refine ⟨fun hw => ?windowed, fun hw => ⟨fun bs hd => ?write, fun hd => ?read⟩⟩
  all_goals
    simp only [pa, n, accessLen] at hw ⊢
    simp only [State.accessVault, ha, hin, hw, Bool.not_true, Bool.false_eq_true, if_false, if_true]
  case write => rw [hd]
  case read => rw [hd]

end Vault

/-- A window of a slice that accepts the access and runs (R436). -/
theorem accessWindow_of_open {s : State} {q : HostReq} {slice off : Nat} (ha : s.firewallOk q.srcSlice slice q.pid = true)
    (hn : off + accessLen q ≤ 65536) (hs : slice < 16) (hr : s.sliceRuns slice = true) :
    (∀ bs, q.data = some bs → s.accessWindow q slice off = (s.windowBytes slice off bs).answer (some []) false)
    ∧ (q.data = none → s.accessWindow q slice off = s.answer (some (s.windowRange slice off (accessLen q))) false) := by
  have hin : (decide (65536 < off + (q.data.map List.length).getD q.len) || decide (16 ≤ slice) || !s.sliceRuns slice) = false := by
    rw [accessLen] at hn
    simp [hr, hn, hs]
  refine ⟨fun bs hd => ?_, fun hd => ?_⟩
  all_goals
    simp only [State.accessWindow, accessLen, ha, hin, Bool.not_true, Bool.false_eq_true, if_false]
    rw [hd]

end Sys2Proof.Laws

namespace Sys2Proof.Proofs

open Sys2Proof.Machine Sys2Proof.Laws

/-- R437-R442: what a MOVE that the Harbourmaster executes comes to, refused, begun, or with its slice vacated. -/
theorem exec_resizeMove {s : State} {cmd : BitVec 128} (ht : s.ownerTakes 0x01 cmd = true) :
    let c := resizeCmd cmd
    (∀ r, s.harbour.moving ≠ some cmd → s.resizeRefusal c = some r → exec (.resizeMove cmd) s = .next (s.ownerDone r.1 r.2))
    ∧ (s.harbour.moving ≠ some cmd → s.resizeRefusal c = none →
      exec (.resizeMove cmd) s = .next (({ s with harbour := { s.harbour with moving := some cmd } } : State).unassign c.slice))
    ∧ (s.harbour.moving = some cmd → s.sliceOccupied c.slice = false → s.nmcOn c = false → exec (.resizeMove cmd) s = .next (s.moveOn c)) :=
  ⟨fun _ hm hr => ownerCommand_of_takes ht (resizeMove_of_refused hm hr), fun hm hr => ownerCommand_of_takes ht (resizeMove_of_passed hm hr),
    fun hm ho hn => ownerCommand_of_takes ht (resizeMove_of_vacated hm ho hn)⟩

/-- R422, R430, R462: an admitted access to global memory. -/
theorem hostAccess_global {s : State} {q : HostReq} {a : Nat} (h : Admitted s q) (ht : q.target = .global a) (ep : Bool) :
    (∀ k, s.globalRefused q.srcSlice q.pid a (accessLen q) = some k →
      s.hostAccess q ep = (s.firewallRecord q.srcSlice k q.pid (BitVec.ofNat 64 a) .global).answer none false)
    ∧ (HomesOpen s q a → ∀ p, tget s.partitions q.pid = some p →
      (p.sg < a + accessLen q → s.hostAccess q ep = s.answer none false)
      ∧ (a + accessLen q ≤ p.sg →
        (∀ bs, q.data = some bs → s.hostAccess q ep = (s.outsideWrite q.pid a bs ep).answer (some []) false)
        ∧ (q.data = none → let r := s.outsideSectors q.pid (agentIsPcie q.agent) (sectorsOf a (accessLen q))
          s.hostAccess q ep = r.2.answer ((tget r.2.partitions q.pid).map fun p : Partition => p.gm.outside (agentIsPcie q.agent) a (accessLen q)) r.1))) := by
  rw [(hostAccess_of_admitted h ep).1 a ht]
  refine ⟨fun k hk => ?_, fun ho p hp => ⟨fun hn => accessGlobal_of_beyond ho hp hn ep, fun hn => accessGlobal_of_inside ho hp hn ep⟩⟩
  rw [accessGlobal_of_refused hk, State.refuseHost, ht, accessSpace]

/-- R4, R436: an admitted access to a window that is open to it. -/
theorem hostAccess_window {s : State} {q : HostReq} {slice off : Nat} (h : Admitted s q) (ht : q.target = .window slice off)
    (ha : s.firewallOk q.srcSlice slice q.pid = true) (hn : off + accessLen q ≤ 65536) (hs : slice < 16) (hr : s.sliceRuns slice = true) (ep : Bool) :
    (∀ bs, q.data = some bs → s.hostAccess q ep = (s.windowBytes slice off bs).answer (some []) false)
    ∧ (q.data = none → s.hostAccess q ep = s.answer (some (s.windowRange slice off (accessLen q))) false) := by
  rw [(hostAccess_of_admitted h ep).2.2 slice off ht]
  exact accessWindow_of_open ha hn hs hr

/-- R430: an admitted access to a vault that its slice's firewall refuses. -/
theorem hostAccess_vault_refused {s : State} {q : HostReq} {core off : Nat} (h : Admitted s q) (ht : q.target = .vault core off)
    (hf : s.firewallOk q.srcSlice (core / 32) q.pid = false) (ep : Bool) : s.hostAccess q ep
      = (s.firewallRecord q.srcSlice (core / 32) q.pid (BitVec.ofNat 64 (core * 2 ^ 23 + off)) .vault).answer none false := by
  rw [(hostAccess_of_admitted h ep).2.1 core off ht, accessVault_of_refused hf, State.refuseHost, ht, accessSpace]

/-- Settles O36: each register, command, source and kind of access by its own lemma. -/
theorem hostEvents : Obligations.HostEvents := by
  refine ⟨fun s k v hk => exec_pwaysWrite hk s v, fun s k hb => enabledEvent_some (pwaysDone_of_busy hb), fun s k off v hk => ?registers,
    fun s cmd ht => exec_resizeMove ht, fun s pid st x hs hx ht => ?sources, fun s q ep => ⟨rfl, fun hp hd => ?inbound, fun hb => ?accesses⟩⟩
  case registers =>
    simp only [exec_registerWrite hk]
    exact ⟨fun h => by rw [registerWrite_ignored s k v h], by rw [registerWrite_balance], by rw [registerWrite_fqBase], by rw [registerWrite_fqCons],
      by rw [registerWrite_vqLost], by rw [registerWrite_cecnt], fun n hn => by rw [registerWrite_quantum s k hn],
      fun c hc => by rw [registerWrite_shandler s k hc]⟩
  case sources =>
    intro now t
    refine (enabledEvent_some (enableSource_of_owned hs hx ht)).trans ?_
    cases hn : st.enable && x.pending
    · simp [t, now, hn, State.putSource]
    · simp [t, now, hn, State.putSource, State.deliver]
  case inbound => exact if_pos (by rw [hp, hd]; rfl)
  case accesses =>
    refine ⟨fun hh => hostAccess_of_halted hb hh ep, fun hh ho hl => hostAccess_of_barred hb hh ho hl ep, fun hh hl => ?_⟩
    have hadm : Admitted s q := ⟨hb, hh, hl⟩
    refine ⟨fun a ht => ?global, fun core off ht => ?vault, fun slice off ht ha hn hs hr => hostAccess_window hadm ht ha hn hs hr ep⟩
    case global =>
      obtain ⟨hrefused, hopen⟩ := hostAccess_global hadm ht ep
      exact ⟨hrefused, fun ha hr => hopen ⟨ha, hr⟩⟩
    case vault =>
      refine ⟨fun hf => hostAccess_vault_refused hadm ht hf ep, fun hf hn hc hr => ?_⟩
      have hv := accessVault_of_open ⟨hf, hn, hc, hr⟩ ep
      rw [← (hostAccess_of_admitted hadm ep).2.1 core off ht] at hv
      exact hv

end Sys2Proof.Proofs
end

section
/-! SUPPORT. Scalar words of two operands: the order of their checks, and the shape that the eighteen of them share (R57, R111-R115). -/

namespace Sys2Proof.Laws

open Sys2Proof.Machine Sys2Proof.Statements

/-- The checks of two scalar operands in their order: POISON in A, POISON in B, the tag of A, the tag of B (R57, R112). -/
theorem scalarCheck_pair (c : Ctx) (x y : RegVal) (p q : Tag → Bool) :
    c.scalarCheck [(2, x, p), (3, y, q)] =
      if x.tag = .poison then some (c.fail .poison c.active 2)
      else if y.tag = .poison then some (c.fail .poison c.active 3)
      else if p x.tag = false then some (c.fail .tag c.active 2 x.tag.code)
      else if q y.tag = false then some (c.fail .tag c.active 3 y.tag.code)
      else none := by
  by_cases hx : x.tag = .poison
  · simp [Ctx.scalarCheck, hx]
  by_cases hy : y.tag = .poison
  · simp [Ctx.scalarCheck, hx, hy]
  cases hp : p x.tag <;> cases hq : q y.tag <;> simp [Ctx.scalarCheck, hx, hy, hp, hq]

/-- A two-operand scalar word traps with what its operand checks find. -/
theorem salu_of_trap {c : Ctx} {a b : BitVec 5} {accA : Tag → Bool} {accB : Tag → Tag → Bool} {t : TrapInfo}
    (h : c.scalarCheck [(2, c.getS a, accA), (3, c.getS b, accB (c.getS a).tag)] = some t)
    (s : State) (d : BitVec 5) (res : Tag → Tag) (f : Nat → Nat → Nat → Nat) : salu c s d a b accA accB res f = .trap t := by
  simp only [salu, h]

/-- Each row of SALU is a crew-uniform word of two operands, with the row's accepted tags and result tag (R114). -/
theorem scalarRow_word {r : ScalarRow} (hr : r ∈ scalarRows) (ch : BitVec 1) (d a b : BitVec 5) :
    isEvent (r.word ch d a b) = false ∧ uniform (r.word ch d a b) = true
      ∧ ∃ f, ∀ c s, wordBody (r.word ch d a b) c s = salu c s d a b r.tagA r.tagB r.res f := by
  simp only [scalarRows, List.mem_cons, List.not_mem_nil, or_false] at hr
  rcases hr with rfl | rfl | rfl | rfl | rfl | rfl | rfl | rfl | rfl | rfl | rfl | rfl | rfl | rfl | rfl | rfl | rfl | rfl
  all_goals
    refine ⟨rfl, rfl, ?_⟩
    delta wordBody
    simp only [bodySadd, bodySsub, bodySmul, bodySmulh, bodySmulhn, bodySand, bodySor, bodySxor, bodySshl, bodySshr, bodySsra,
      bodySmin, bodySmax, bodySminn, bodySmaxn, bodySeq, bodySlt, bodySltn, saluArith, saluBits, saluShift, saluCmp]
    exact ⟨_, fun _ _ => rfl⟩

end Sys2Proof.Laws

namespace Sys2Proof.Proofs

open Sys2Proof.Machine Sys2Proof.Statements Sys2Proof.Laws

/-- A SALU word of a group with an active lane traps with what the checks of its two operands find. -/
theorem scalarRow_traps {r : ScalarRow} (hr : r ∈ scalarRows) {s : State} {c : Ctx} {ch : BitVec 1} {d a b : BitVec 5} {t : TrapInfo}
    (h : Ready s (r.word ch d a b) c) (ha : c.active ≠ [])
    (ht : c.go.scalarCheck [(2, c.go.getS a, r.tagA), (3, c.go.getS b, r.tagB (c.go.getS a).tag)] = some t) : Traps (r.word ch d a b) s c t := by
  obtain ⟨hev, -, f, hbody⟩ := scalarRow_word hr ch d a b
  exact traps_of_trap h hev (fun _ => ha) ((hbody _ _).trans (salu_of_trap ht _ _ _ _))

/-- Settles O3: the four traps are the four outcomes of the operand checks, and an idle crew-uniform word only passes. -/
theorem scalarOperandTraps : Obligations.ScalarOperandTraps := by
  intro r hr s c ch d a b h
  obtain ⟨hev, hun, -⟩ := scalarRow_word hr ch d a b
  have hS : c.go.getS = c.getS := rfl
  have hL : c.go.active = c.active := rfl
  refine ⟨runs_idle h hev hun, fun ha hx => ?_, fun ha hx hy => ?_, fun ha hx hy hp => ?_, fun ha hx hy hp hq => ?_⟩
  all_goals
    refine scalarRow_traps hr h ha ?_
    rw [scalarCheck_pair, hS, hL]
  · rw [if_pos hx]
  · rw [if_neg hx, if_pos hy]
  · rw [if_neg hx, if_neg hy, if_pos hp]
  · rw [if_neg hx, if_neg hy, if_neg (by simp [hp]), if_pos hq]

end Sys2Proof.Proofs
end

section
/-! SUPPORT. Shape records and geometry words: their fields as bits, the row pitch, and validity (R59-R63, R186). -/

namespace Sys2Proof.Laws

open Sys2Proof.Machine

/-- A field of a doubleword, as a number and as bits. -/
theorem toNat_extractLsb'_eq_bitsAt (b : DWord) (lo n : Nat) : (b.extractLsb' lo n).toNat = bitsAt b.toNat lo n := by
  rw [BitVec.extractLsb'_toNat, Nat.shiftRight_eq_div_pow, bitsAt]

/-- A field that reaches to the top of a doubleword. -/
theorem bitsAt_top (b : DWord) {lo n : Nat} (h : lo + n = 64) : bitsAt b.toNat lo n = b.toNat / 2 ^ lo := by
  refine Nat.mod_eq_of_lt (Nat.div_lt_of_lt_mul ?_)
  rw [← Nat.pow_add, h]
  exact b.isLt

/-- A field of a doubleword holds a value that it has the bits for. -/
theorem extractLsb'_eq_iff (b : DWord) (lo : Nat) {n : Nat} (v : BitVec n) : b.extractLsb' lo n = v ↔ bitsAt b.toNat lo n = v.toNat := by
  rw [← toNat_extractLsb'_eq_bitsAt, BitVec.toNat_inj]

theorem shape_valid_iff (h : Shape) (n S : Nat) : h.valid n S = true ↔
    h.fmt ≤ 10 ∧ 1 ≤ h.rows ∧ h.rows ≤ 256 ∧ 1 ≤ h.cols ∧ h.cols ≤ 1024 ∧ h.coff < h.cstr ∧ h.stor < n ∧ (h.scale = 15 ∨ h.scale < n) ∧ h.rsv = 0
      ∧ h.rows * h.pitch ≤ S := by
  simp only [Shape.valid, Bool.and_eq_true, Bool.or_eq_true, decide_eq_true_eq, beq_iff_eq, and_assoc]

/-- The pitch is the least multiple of 64 bytes that holds a row (R63). -/
theorem shape_pitch_bounds (h : Shape) :
    h.pitch % 64 = 0 ∧ h.cols * h.cstr * fmtBytes h.fmt ≤ h.pitch ∧ h.pitch < h.cols * h.cstr * fmtBytes h.fmt + 64 := by
  unfold Shape.pitch
  generalize h.cols * h.cstr * fmtBytes h.fmt = row
  omega

/-- The fields of a geometry word, valid or not (R186). -/
def geometryFields (b : DWord) : AccGeo where
  base := (b.extractLsb' 0 6).toNat
  rows := (b.extractLsb' 6 9).toNat
  cols := (b.extractLsb' 15 11).toNat
  pitch := (b.extractLsb' 28 20).toNat
  fmt := if b.extractLsb' 26 2 = 0 then .fp32 else if b.extractLsb' 26 2 = 1 then .i32 else .fp64

/-- A geometry word that passes every check of R186 for an allocation is read as its fields, any other as none. -/
theorem accGeo_ofBits_eq (b : DWord) (alloc : Nat) :
    let g := geometryFields b
    AccGeo.ofBits b alloc = if 1 ≤ g.rows ∧ g.rows ≤ 256 ∧ 1 ≤ g.cols ∧ g.cols ≤ 1024 ∧ b.extractLsb' 26 2 ≠ 3 ∧ b.extractLsb' 48 16 = 0
      ∧ g.base * 16384 + g.rows * g.cols * g.fmt.bytes ≤ alloc then some g else none := by
  intro g
  simp only [g, geometryFields, ne_eq, toNat_extractLsb'_eq_bitsAt, extractLsb'_eq_iff, bitsAt_top b (show 48 + 16 = 64 from rfl)]
  rw [← ite_not, AccGeo.ofBits]
  generalize bitsAt b.toNat 26 2 = f
  rcases f with _ | _ | f
  all_goals
    refine ite_congr (propext ?_) (fun _ => rfl) fun _ => rfl
    simp only [Bool.or_eq_true, decide_eq_true_eq, BitVec.ofNat_eq_ofNat, BitVec.toNat_ofNat, Nat.reducePow, Nat.reduceMod, Nat.reduceEqDiff,
      reduceIte, reduceCtorEq, or_false, not_false_eq_true, true_and]
    omega

end Sys2Proof.Laws

namespace Sys2Proof.Proofs

open Sys2Proof.Machine Sys2Proof.Laws

/-- Settles O18: the fields by their places, a record's validity and pitch, and a geometry word as its fields under its checks. -/
theorem shapeAndGeometryRecords : Obligations.ShapeAndGeometryRecords := by
  refine ⟨fun b => ?fields, shape_valid_iff, shape_pitch_bounds, fun b alloc g => ?geometry⟩
  case fields =>
    simp only [toNat_extractLsb'_eq_bitsAt, bitsAt_top b (show 37 + 27 = 64 from rfl)]
    exact ⟨rfl, rfl, rfl, rfl, rfl, rfl, rfl, rfl⟩
  case geometry =>
    rw [accGeo_ofBits_eq, Option.ite_none_right_eq_some, Option.some_inj, eq_comm (a := geometryFields b), and_comm]
    exact and_congr_right fun hg => by rw [hg]

end Sys2Proof.Proofs
end

section
/-! SUPPORT. VCMP: the end of a word that raises no enabled flag, the predicate written, and the conditions on integers (R92, R156). -/

namespace Sys2Proof.Laws

open Sys2Proof.Machine Sys2Proof.Statements

/-- A floating-point word whose flags meet no enabled trap takes effect, and its flags are merged (R92, R369). -/
theorem finishFp_of_noFpx {c : Ctx} {flags : List (Nat × Flags)} (h : noFpx c (orFlags (flags.map (·.2))))
    (pending : List (Nat × (RegVal × RegVal × RegVal × RegVal))) (s : State) :
    c.finishFp flags pending s = .done (s.mergeFlags c.cid (orFlags (flags.map (·.2)))) := by
  rcases h with h | h
  · simp [Ctx.finishFp, h]
  · simp [Ctx.finishFp, h]

/-- The value that VCMP writes, of the way of combining, the predicate's old value and the condition (R156). -/
def vcmpWritten (m : BitVec 2) (old new : Bool) : Bool := if m = 0 then new else if m = 1 then old && new else old || new

/-- VCMP with operands that pass their checks and no enabled flag raised. -/
theorem bodyVcmp_of_noFpx {c : Ctx} {s : State} {a b : BitVec 6} {k : BitVec 4} {o : Operands}
    (ho : c.vecOperands s none [a, b] (sameTag (cmpTags k.toNat)) = .ok o)
    (hq : noFpx c (orFlags (o.vals.map fun x => (cmpLane k.toNat c.regs.ftz x.2).2))) (p : BitVec 3) (m : BitVec 2) :
    bodyVcmp p a b m k c s = .done ((o.state.writeP c p.toNat (o.vals.map fun x =>
      (x.1, vcmpWritten m ((c.regs.lane x.1).getP p.toNat) (cmpLane k.toNat c.regs.ftz x.2).1))).mergeFlags c.cid
      (orFlags (o.vals.map fun x => (cmpLane k.toNat c.regs.ftz x.2).2))) := by
  have hm : m = 0 ∨ m = 1 ∨ m = 2 ∨ m = 3 := by
    revert m
    decide
  rw [bodyVcmp, ho]
  refine (finishFp_of_noFpx ?_ _ _).trans ?_
  · rw [List.map_map, List.map_map]
    exact hq
  · rcases hm with rfl | rfl | rfl | rfl
    all_goals
      simp only [List.map_map]
      rfl

theorem floatFmt_of_isInt {t : Tag} (h : t.isInt = true) : t.floatFmt = none := by
  revert h
  cases t <;> decide

/-- On two operands of one integer tag VCMP tests their numbers, and raises no flag (R156). -/
theorem cmpLane_of_isInt {x y : RegVal} (hx : x.tag.isInt = true) (hy : y.tag = x.tag) (k : Nat) (ftz : Bool) :
    let w := x.tag.scalarWidth
    cmpLane k ftz [x, y] = (cmpInt k (signedOf w (x.low w)) (signedOf w (y.low w)) (x.low w) (y.low w), 0) := by
  simp [cmpLane, opnd, floatFmt_of_isInt hx, RegVal.read, hy]

/-- Patterns of a width are told apart by their signed readings. -/
theorem signedOf_inj {w x y : Nat} (hx : x < 2 ^ w) (hy : y < 2 ^ w) : signedOf w x = signedOf w y ↔ x = y := by
  have hx' : (x : Int) < 2 ^ w := by exact_mod_cast hx
  have hy' : (y : Int) < 2 ^ w := by exact_mod_cast hy
  unfold signedOf
  generalize 2 ^ (w - 1) = half
  generalize (2 ^ w : Int) = full at hx' hy' ⊢
  split <;> split <;> omega

theorem low_lt (x : RegVal) (w : Nat) : x.low w < 2 ^ w := Nat.mod_lt _ (Nat.two_pow_pos w)

end Sys2Proof.Laws

namespace Sys2Proof.Proofs

open Sys2Proof.Machine Sys2Proof.Statements Sys2Proof.Laws

/-- Settles O48: VCMP through its body with no flag enabled, and each integer condition as the test of cmpInt; equal patterns are equal signed numbers. -/
theorem compareResults : Obligations.CompareResults := by
  refine ⟨fun s c ch p a b m k hr o ho hq => ?_, fun x y ftz hx hy => ?_⟩
  · exact runs_of_done (f := fun _ => State.mergeFlags _ c.cid _) hr rfl (fun h => absurd h Bool.false_ne_true) (bodyVcmp_of_noFpx ho hq p m)
  · intro w sx sy
    have heq : (x.low w == y.low w) = decide (sx = sy) := by
      rw [Bool.beq_eq_decide_eq]
      exact decide_eq_decide.mpr (signedOf_inj (low_lt x w) (low_lt y w)).symm
    have hne : (x.low w != y.low w) = decide (sx ≠ sy) := by rw [bne, heq, decide_not]
    simp only [cmpLane_of_isInt hx hy]
    exact ⟨congrArg (·, 0) heq, congrArg (·, 0) hne, rfl, rfl, rfl, rfl, rfl, rfl, rfl, rfl⟩

end Sys2Proof.Proofs
end

section
/-! SUPPORT. Vector integer words: elements modulo their range, and the shapes that the words of VINT, VINTI, VLI and VIMAD share (R53, R56, R138-R149, R152). -/

namespace Sys2Proof.Laws

open Sys2Proof.Machine Sys2Proof.Statements

/-! ### Integers modulo a power of two -/

theorem two_pow_pos_int (w : Nat) : (0 : Int) < 2 ^ w := Int.pow_pos (by decide)

/-- The pattern of an integer is its residue. -/
theorem wrapTo_cast (w : Nat) (z : Int) : (wrapTo w z : Int) = z % 2 ^ w :=
  Int.toNat_of_nonneg (Int.emod_nonneg z (Int.ne_of_gt (two_pow_pos_int w)))

theorem wrapTo_natCast (w n : Nat) : wrapTo w (n : Int) = n % 2 ^ w := by
  rw [wrapTo, ← Int.toNat_natCast (n % 2 ^ w)]
  push_cast
  rfl

/-- A number and an integer of one residue have one pattern. -/
theorem mod_eq_wrapTo {w n : Nat} {z : Int} (h : (n : Int) % 2 ^ w = z % 2 ^ w) : n % 2 ^ w = wrapTo w z := by
  rw [← wrapTo_natCast, wrapTo, h, wrapTo]

theorem wrapTo_lt (w : Nat) (z : Int) : wrapTo w z < 2 ^ w := by
  have h := Int.emod_lt_of_pos z (two_pow_pos_int w)
  rw [← wrapTo_cast] at h
  exact_mod_cast h

theorem wrapTo_mod (w : Nat) (z : Int) : wrapTo w z % 2 ^ w = wrapTo w z := Nat.mod_eq_of_lt (wrapTo_lt w z)

/-! ### Elements -/

/-- Packing reads each element modulo the element's range. -/
theorem packElems_map_mod (e : Nat) (xs : List Nat) : packElems e (xs.map (· % 2 ^ e)) = packElems e xs := by
  induction xs with
  | nil => rfl
  | cons x xs ih => rw [List.map_cons, packElems, packElems, ih, Nat.mod_mod]

theorem packElems_singleton (e x : Nat) : packElems e [x] = x % 2 ^ e := by
  rw [packElems, packElems, Nat.mul_zero, Nat.add_zero]

theorem elemsOf_lt {t : Tag} {b : DWord} {x : Nat} (h : x ∈ elemsOf t b) : x < 2 ^ t.elemBits := by
  obtain ⟨i, -, rfl⟩ := List.mem_map.mp h
  exact Nat.mod_lt _ (Nat.two_pow_pos _)

/-- A value formed element by element, where each element has the residue of the integer given (R145). -/
theorem packElems_map_eq {e : Nat} {xs : List Nat} {f : Nat → Nat} {g : Nat → Int} (h : ∀ x ∈ xs, f x % 2 ^ e = wrapTo e (g x)) :
    packElems e (xs.map f) = packElems e ((xs.map g).map (wrapTo e)) := by
  rw [← packElems_map_mod, List.map_map, List.map_map]
  exact congrArg (packElems e) (List.map_congr_left h)

theorem mkElems_eq_elements {t : Tag} {xs : List Nat} {f : Nat → Nat} {g : Nat → Int} (h : ∀ x ∈ xs, f x % 2 ^ t.elemBits = wrapTo t.elemBits (g x)) :
    mkElems t (xs.map f) = elements t (xs.map g) := by
  rw [mkElems, packElems_map_eq h, elements, mkElems]

/-- A 32-bit tag has one element of 32 bits, so packed elements of it are no wider (R53). -/
theorem packElems_elemsOf_lt {t : Tag} (h : t.is32 = true) (b : DWord) (f : Nat → Nat) :
    packElems t.elemBits ((elemsOf t b).map f) < 2 ^ 32 := by
  have one : t.elemCount = 1 ∧ t.elemBits = 32 := by
    revert h
    cases t <;> decide
  rw [elemsOf, one.1, one.2, List.range_one, List.map_singleton, List.map_singleton, packElems_singleton]
  exact Nat.mod_lt _ (by decide)

/-- A value that a 32-bit tag has room for is kept whole (R53). -/
theorem mkVal_of_fits {t : Tag} {v : Nat} (h : t.is32 = true → v < 2 ^ 32) : mkVal t v = { bits := BitVec.ofNat 64 v, tag := t } := by
  cases ht : t.is32 with
  | false => rw [mkVal, ht]; rfl
  | true => rw [mkVal, ht, if_pos rfl, Nat.mod_eq_of_lt (h ht)]

theorem elements_singleton (t : Tag) (z : Int) : elements t [z] = mkVal t (wrapTo t.elemBits z) := by
  rw [elements, mkElems, List.map_singleton, packElems_singleton, wrapTo_mod]

/-! ### Words of one shape -/

/-- A vector word that is no crew-uniform one, given by vecWord, pushes the values of its function (R138). -/
theorem pushes_of_vecWord {i : Instr} {d : BitVec 6} {codes : List (BitVec 6)} {tags : List RegVal → Option (Nat × Tag)}
    {f g : List RegVal → RegVal} (hev : isEvent i = false) (hun : uniform i = false)
    (hb : ∀ c s, wordBody i c s = c.vecWord s d codes tags g) (hfg : ∀ vs, g vs = f vs) (s : State) (c : Ctx) : Pushes i s c d codes tags f := by
  intro hr o ho
  have hf : g = f := funext hfg
  refine runs_of_done (f := fun _ => o.state.pushWrite c d _) hr hev (fun h => absurd (hun.symm.trans h) Bool.false_ne_true) ?_
  rw [hb, Ctx.vecWord, ho, hf]
  rfl

/-- A word on the elements of A: each result element has the residue of the integer given (R145). -/
theorem pushes_vint1 {i : Instr} {d a : BitVec 6} {acc : Tag → Bool} {res : Tag → Tag} (f : Nat → Nat → Nat) {g : Tag → Nat → Int}
    (hev : isEvent i = false) (hun : uniform i = false) (hb : ∀ c s, wordBody i c s = vint1 c s d a acc res f)
    (hfg : ∀ t x, x < 2 ^ t.elemBits → f t.elemBits x % 2 ^ t.elemBits = wrapTo t.elemBits (g t x)) (s : State) (c : Ctx) :
    Pushes i s c d [a] (sameTag acc) fun vs =>
      { (elements (opnd vs 0).tag ((elemsOf (opnd vs 0).tag (opnd vs 0).bits).map (g (opnd vs 0).tag))) with tag := res (opnd vs 0).tag } := by
  refine pushes_of_vecWord hev hun hb (fun vs => ?_) s c
  have hpack := packElems_map_eq (f := fun u => f _ u % 2 ^ (opnd vs 0).tag.elemBits) (xs := elemsOf (opnd vs 0).tag (opnd vs 0).bits)
    fun x hx => (Nat.mod_mod _ _).trans (hfg (opnd vs 0).tag x (elemsOf_lt hx))
  rw [elements, mkElems, ← hpack, mkVal_of_fits fun h => packElems_elemsOf_lt h _ _]
  rfl

/-- A word on the elements of A and an immediate keeps the tag of A (R148). -/
theorem pushes_vinti {i : Instr} {d a : BitVec 6} {acc : Tag → Bool} (imm : Int) (f : Nat → Nat → Nat → Nat) {g : Tag → Nat → Int}
    (hev : isEvent i = false) (hun : uniform i = false) (hb : ∀ c s, wordBody i c s = vinti c s d a acc imm f)
    (hfg : ∀ t x, f t.elemBits x (wrapTo t.elemBits imm) % 2 ^ t.elemBits = wrapTo t.elemBits (g t x)) (s : State) (c : Ctx) :
    Pushes i s c d [a] (sameTag acc) fun vs =>
      elements (opnd vs 0).tag ((elemsOf (opnd vs 0).tag (opnd vs 0).bits).map (g (opnd vs 0).tag)) :=
  pushes_vint1 (fun e x => f e x (wrapTo e imm)) hev hun hb (fun t x _ => hfg t x) s c

/-- A shift by B[5:0] modulo the element width (R145). -/
theorem pushes_vshift {i : Instr} {d a b : BitVec 6} (f : Nat → Nat → Nat → Nat) {g : Tag → Nat → Nat → Int}
    (hev : isEvent i = false) (hun : uniform i = false) (hb : ∀ c s, wordBody i c s = vshift c s d a b f)
    (hfg : ∀ t x n, f t.elemBits x n % 2 ^ t.elemBits = wrapTo t.elemBits (g t x n)) (s : State) (c : Ctx) :
    Pushes i s c d [a, b] (twoTags Tag.anyIntM Tag.isInt) fun vs =>
      elements (opnd vs 0).tag ((elemsOf (opnd vs 0).tag (opnd vs 0).bits).map fun x =>
        g (opnd vs 0).tag x ((opnd vs 1).bits.toNat % 64 % (opnd vs 0).tag.elemBits)) :=
  pushes_of_vecWord hev hun hb (fun _ => mkElems_eq_elements fun x _ => hfg _ x _) s c

/-! ### Bitwise words -/

/-- The bits that a word reads of a value: all of them, or the low 32 under a 32-bit tag (R53). -/
def lowBits (x : RegVal) : DWord := if x.tag.is32 then x.bits &&& 0xFFFFFFFF else x.bits

/-- The low 32 bits of a doubleword, as a number. -/
theorem ofNat_mod_word (n : Nat) : BitVec.ofNat 64 (n % 2 ^ 32) = BitVec.ofNat 64 n &&& 0xFFFFFFFF := by
  apply BitVec.eq_of_toNat_eq
  have hm : (0xFFFFFFFF : DWord).toNat = 2 ^ 32 - 1 := rfl
  rw [BitVec.toNat_and, hm, Nat.and_two_pow_sub_one_eq_mod, BitVec.toNat_ofNat, BitVec.toNat_ofNat]
  omega

theorem ofNat_read (x : RegVal) : BitVec.ofNat 64 x.read = lowBits x := by
  have hx : BitVec.ofNat 64 x.bits.toNat = x.bits := by rw [BitVec.ofNat_toNat, BitVec.setWidth_eq]
  rw [RegVal.read, RegVal.low, Tag.scalarWidth, lowBits]
  cases x.tag.is32
  · simp only [Bool.false_eq_true, if_false, Nat.mod_eq_of_lt x.bits.isLt, hx]
  · simp only [if_true, ofNat_mod_word, hx]

/-- A bitwise word: A and B as they are read, the result in A's tag (R56, R145). -/
theorem pushes_vbits {i : Instr} {d a b : BitVec 6} (f : Nat → Nat → Nat) {g : DWord → DWord → DWord}
    (hev : isEvent i = false) (hun : uniform i = false) (hb : ∀ c s, wordBody i c s = vbits c s d a b f)
    (hfg : ∀ x y : DWord, BitVec.ofNat 64 (f x.toNat y.toNat) = g x y) (s : State) (c : Ctx) :
    Pushes i s c d [a, b] (fun _ => none) fun vs =>
      { bits := if (opnd vs 0).tag.is32 then g (lowBits (opnd vs 0)) (lowBits (opnd vs 1)) &&& 0xFFFFFFFF else g (lowBits (opnd vs 0)) (lowBits (opnd vs 1))
        tag := (opnd vs 0).tag } := by
  refine pushes_of_vecWord hev hun hb (fun vs => ?_) s c
  have hread : ∀ x : RegVal, x.read = (lowBits x).toNat := fun x => by
    rw [← ofNat_read, BitVec.toNat_ofNat, Nat.mod_eq_of_lt]
    exact Nat.lt_of_le_of_lt (Nat.mod_le _ _) x.bits.isLt
  rw [hread, hread, mkVal, apply_ite (BitVec.ofNat 64), ofNat_mod_word, hfg]

/-! ### Packing words and bit fields -/

/-- Two halves joined, as a number. -/
theorem append_eq_ofNat (hi lo : BitVec 32) : (hi ++ lo : DWord) = BitVec.ofNat 64 (lo.toNat + hi.toNat * 2 ^ 32) := by
  apply BitVec.eq_of_toNat_eq
  have := hi.isLt
  have := lo.isLt
  rw [BitVec.toNat_append, ← Nat.shiftLeft_add_eq_or_of_lt lo.isLt, Nat.shiftLeft_eq, BitVec.toNat_ofNat]
  omega

/-- VPACK: the halves of A and B joined (R147). -/
theorem vpack_value (x y : RegVal) : mkVal (if x.tag == .raw || x.tag.is32 then .raw else x.tag) (x.low 32 + y.low 32 * 2 ^ 32) =
    { bits := y.bits.extractLsb' 0 32 ++ x.bits.extractLsb' 0 32, tag := if x.tag.is32 then .raw else x.tag } := by
  have htag : (if x.tag == .raw || x.tag.is32 then Tag.raw else x.tag) = if x.tag.is32 then .raw else x.tag := by
    cases x.tag <;> rfl
  have hwide : (if x.tag.is32 then Tag.raw else x.tag).is32 = false := by
    cases x.tag <;> rfl
  rw [htag, mkVal_of_fits fun h => absurd (hwide.symm.trans h) Bool.false_ne_true, append_eq_ofNat]
  simp [RegVal.low]

/-- The elements of +0 above the half that VUNPK takes (R147). -/
def upperZeros (t : Tag) : BitVec 32 := if t == .tt8x8 then 0x77777777 else 0

theorem packElems_upperZeros (t : Tag) :
    (if t == .raw then 0 else packElems t.elemBits (List.replicate (32 / t.elemBits) t.zeroElem) * 2 ^ 32) = (upperZeros t).toNat * 2 ^ 32 := by
  cases t <;> decide

/-- The half of a doubleword that a bit selects. -/
def halfOf (x : DWord) (upper : Bool) : BitVec 32 := if upper then x.extractLsb' 32 32 else x.extractLsb' 0 32

theorem toNat_halfOf (x y : DWord) : (halfOf x (y.getLsbD 0)).toNat = if y.toNat % 2 = 1 then x.toNat / 2 ^ 32 else x.toNat % 2 ^ 32 := by
  have := x.isLt
  have hy : y.getLsbD 0 = decide (y.toNat % 2 = 1) := Nat.testBit_zero _
  rw [halfOf, hy]
  split
  · next h => simp [of_decide_eq_true h, Nat.shiftRight_eq_div_pow]; omega
  · next h => simp [of_decide_eq_false (Bool.eq_false_iff.mpr h)]

/-- VUNPK: the half of A that B[0] selects, under elements of +0 (R147). -/
theorem unpk_value (x y : RegVal) : unpk x.tag x.bits.toNat y.bits.toNat =
    { bits := upperZeros x.tag ++ halfOf x.bits (y.bits.getLsbD 0), tag := x.tag } := by
  have hfits : x.tag.is32 = true → (halfOf x.bits (y.bits.getLsbD 0)).toNat + (upperZeros x.tag).toNat * 2 ^ 32 < 2 ^ 32 := by
    intro h
    have hz : upperZeros x.tag = 0 := by
      revert h
      cases x.tag <;> decide
    rw [hz]
    simpa using (halfOf x.bits (y.bits.getLsbD 0)).isLt
  simp only [unpk, packElems_upperZeros, ← toNat_halfOf]
  rw [mkVal_of_fits hfits, append_eq_ofNat]

/-- A field below bit w is the same in the low w bits and in all of them. -/
theorem mod_div_mod {w pos k : Nat} (h : pos + k ≤ w) (x : Nat) : x % 2 ^ w / 2 ^ pos % 2 ^ k = x / 2 ^ pos % 2 ^ k := by
  obtain ⟨r, rfl⟩ := Nat.exists_eq_add_of_le h
  rw [Nat.add_assoc, Nat.pow_add, Nat.mod_mul_right_div_self, Nat.mod_mod_of_dvd _ (Nat.pow_dvd_pow 2 (Nat.le_add_right k r))]

/-- The field length of VBFE and VBFI (R146). -/
theorem fieldLen_eq_min (e pos len : Nat) : fieldLen e pos len = min len (e - pos) := by
  rw [fieldLen]
  split <;> omega

/-- VBFE: the field of A, sign-extended under a signed tag (R146). -/
theorem vbfe_value (x : RegVal) (ctl : Nat) :
    let t := x.tag
    let pos := ctl % 64
    let k := min (ctl / 256 % 64) (t.elemBits - pos)
    let f := x.low t.elemBits / 2 ^ pos % 2 ^ k
    mkVal t (bfe t x.read ctl) = elements t [if t.isSigned ∧ k ≠ 0 then signedOf k f else f] := by
  intro t pos k f
  have hlen : fieldLen t.elemBits (ctl % 64) (ctl / 2 ^ 8 % 64) = k := fieldLen_eq_min _ _ _
  rw [elements_singleton, bfe]
  simp only [hlen]
  congr 1
  by_cases hk : k = 0
  · have hf : f = 0 := by simp [f, hk, Nat.mod_one]
    simp [hk, hf, wrapTo]
  · have hwidth : t.elemBits ≤ t.scalarWidth := by
      cases t <;> decide
    have hend : pos + k ≤ t.elemBits := by omega
    have hread : x.read / 2 ^ (ctl % 64) % 2 ^ k = f := by
      rw [RegVal.read, RegVal.low, mod_div_mod (Nat.le_trans hend hwidth)]
      exact (mod_div_mod hend _).symm
    have hf : f < 2 ^ t.elemBits := Nat.lt_of_lt_of_le (Nat.mod_lt _ (Nat.two_pow_pos k)) (Nat.pow_le_pow_right (by decide) (by omega))
    rw [if_neg hk, hread]
    cases t.isSigned
    · simp [wrapTo_natCast, Nat.mod_eq_of_lt hf]
    · simp [hk]

/-- The leading zeros of an element, counted as an integer (R145). -/
theorem clz_eq {e x : Nat} (hx : x < 2 ^ e) : (clz e x : Int) = if x = 0 then (e : Int) else e - 1 - Nat.log2 x := by
  rw [clz]
  split
  · rfl
  · next h =>
    have := (Nat.log2_lt h).mpr hx
    omega

/-- The one bits of an element, counted (R145). -/
theorem popc_eq (e x : Nat) : popc e x = (List.range e).countP fun i => x.testBit i := List.countP_eq_length_filter.symm

/-- The elements of a multiply-add, products first or all three operands at once (R152). -/
theorem multiplyAdd_eq (e : Nat) (x : BitVec 1) (us vs zs : List Nat) :
    (List.zipWith (fun (u v : Nat) => if x == 1 then -((u : Int) * (v : Int)) else (u : Int) * (v : Int)) us vs).zipWith
        (fun (p : Int) (z : Nat) => wrapTo e ((z : Int) + p)) zs
      = ((us.zip vs).zipWith (fun (p : Nat × Nat) (z : Nat) => (z : Int) + if x = 1 then -((p.1 : Int) * p.2) else (p.1 : Int) * p.2) zs).map (wrapTo e) := by
  rw [← List.map_uncurry_zip_eq_zipWith (l := us), List.zipWith_map_left, List.map_zipWith]
  simp only [Function.uncurry, beq_iff_eq]

end Sys2Proof.Laws

namespace Sys2Proof.Proofs

open Sys2Proof.Machine Sys2Proof.Statements Sys2Proof.Laws

/-- R56, R145: the four bitwise words. -/
theorem bitRow_pushes {r : (BitVec 1 → BitVec 6 → BitVec 6 → BitVec 6 → Instr) × (DWord → DWord → DWord)} (hr : r ∈ bitRows)
    (s : State) (c : Ctx) (ch : BitVec 1) (d a b : BitVec 6) :
    Pushes (r.1 ch d a b) s c d [a, b] (fun _ => none) fun vs =>
      { bits := if (opnd vs 0).tag.is32 then r.2 (lowBits (opnd vs 0)) (lowBits (opnd vs 1)) &&& 0xFFFFFFFF else r.2 (lowBits (opnd vs 0)) (lowBits (opnd vs 1))
        tag := (opnd vs 0).tag } := by
  simp only [bitRows, List.mem_cons, List.not_mem_nil, or_false] at hr
  rcases hr with rfl | rfl | rfl | rfl
  · exact pushes_vbits (fun x y => x &&& y) rfl rfl (fun _ _ => rfl) (fun x y => by simp) s c
  · exact pushes_vbits (fun x y => x ||| y) rfl rfl (fun _ _ => rfl) (fun x y => by simp) s c
  · exact pushes_vbits (fun x y => x ^^^ y) rfl rfl (fun _ _ => rfl) (fun x y => by simp) s c
  · exact pushes_vbits (fun x y => x &&& (2 ^ 64 - 1 - y)) rfl rfl (fun _ _ => rfl)
      (fun x y => by rw [← BitVec.toNat_not, ← BitVec.toNat_and, BitVec.ofNat_toNat, BitVec.setWidth_eq]) s c

/-- R145: the three shifts by B. -/
theorem shiftRow_pushes {r : (BitVec 1 → BitVec 6 → BitVec 6 → BitVec 6 → Instr) × (Tag → Nat → Nat → Int)} (hr : r ∈ shiftRows)
    (s : State) (c : Ctx) (ch : BitVec 1) (d a b : BitVec 6) :
    Pushes (r.1 ch d a b) s c d [a, b] (twoTags Tag.anyIntM Tag.isInt) fun vs =>
      elements (opnd vs 0).tag ((elemsOf (opnd vs 0).tag (opnd vs 0).bits).map fun x =>
        r.2 (opnd vs 0).tag x ((opnd vs 1).bits.toNat % 64 % (opnd vs 0).tag.elemBits)) := by
  simp only [shiftRows, List.mem_cons, List.not_mem_nil, or_false] at hr
  rcases hr with rfl | rfl | rfl
  · exact pushes_vshift (fun e x n => x * 2 ^ n % 2 ^ e) rfl rfl (fun _ _ => rfl)
      (fun t x n => (Nat.mod_mod _ _).trans (mod_eq_wrapTo (by push_cast; rfl))) s c
  · exact pushes_vshift (fun _ x n => x / 2 ^ n) rfl rfl (fun _ _ => rfl) (fun t x n => mod_eq_wrapTo (by push_cast; rfl)) s c
  · exact pushes_vshift sraAt rfl rfl (fun _ _ => rfl) (fun t x n => wrapTo_mod _ _) s c

/-- R145: the four words on the elements of A alone. -/
theorem unaryRow_pushes {r : (BitVec 1 → BitVec 6 → BitVec 6 → BitVec 6 → Instr) × (Tag → Bool) × (Tag → Tag) × (Tag → Nat → Int)}
    (hr : r ∈ unaryRows) (s : State) (c : Ctx) (ch : BitVec 1) (d a b : BitVec 6) :
    Pushes (r.1 ch d a b) s c d [a] (sameTag r.2.1) fun vs =>
      { (elements (opnd vs 0).tag ((elemsOf (opnd vs 0).tag (opnd vs 0).bits).map (r.2.2.2 (opnd vs 0).tag))) with tag := r.2.2.1 (opnd vs 0).tag } := by
  simp only [unaryRows, List.mem_cons, List.not_mem_nil, or_false] at hr
  rcases hr with rfl | rfl | rfl | rfl
  · exact pushes_vint1 (fun e x => wrapTo e (signedOf e x).natAbs) rfl rfl (fun _ _ => rfl) (fun t x _ => wrapTo_mod _ _) s c
  · refine pushes_vint1 (fun e x => 2 ^ e - x) rfl rfl (fun _ _ => rfl) (fun t x hx => mod_eq_wrapTo ?_) s c
    rw [Int.ofNat_sub (Nat.le_of_lt hx), Int.natCast_pow]
    exact Int.sub_emod_left ..
  · refine pushes_vint1 clz rfl rfl (fun _ _ => rfl) (fun t x hx => ?_) s c
    rw [← wrapTo_natCast, clz_eq hx]
  · exact pushes_vint1 popc rfl rfl (fun _ _ => rfl)
      (fun t x _ => mod_eq_wrapTo (congrArg (fun n : Nat => (n : Int) % 2 ^ t.elemBits) (popc_eq t.elemBits x))) s c

/-- R148: the five words with an immediate in the place of B. -/
theorem vectorImmRow_pushes {r : (BitVec 1 → BitVec 6 → BitVec 6 → BitVec 10 → Instr) × (Tag → Bool) × (Nat → Nat → Int → Int)}
    (hr : r ∈ vectorImmRows) (s : State) (c : Ctx) (ch : BitVec 1) (d a : BitVec 6) (i : BitVec 10) :
    Pushes (r.1 ch d a i) s c d [a] (sameTag r.2.1) fun vs =>
      elements (opnd vs 0).tag ((elemsOf (opnd vs 0).tag (opnd vs 0).bits).map fun x => r.2.2 x (wrapTo (opnd vs 0).tag.elemBits i.toInt) i.toInt) := by
  simp only [vectorImmRows, List.mem_cons, List.not_mem_nil, or_false] at hr
  rcases hr with rfl | rfl | rfl | rfl | rfl
  · exact pushes_vinti (g := fun _ x => x + i.toInt) i.toInt (fun _ x y => x + y) rfl rfl (fun _ _ => rfl)
      (fun t x => mod_eq_wrapTo (by rw [Int.natCast_add, wrapTo_cast, Int.add_emod_emod])) s c
  · exact pushes_vinti (g := fun t x => (x &&& wrapTo t.elemBits i.toInt : Nat)) i.toInt (fun _ x y => x &&& y) rfl rfl (fun _ _ => rfl)
      (fun t x => (wrapTo_natCast _ _).symm) s c
  · exact pushes_vinti (g := fun t x => (x ||| wrapTo t.elemBits i.toInt : Nat)) i.toInt (fun _ x y => x ||| y) rfl rfl (fun _ _ => rfl)
      (fun t x => (wrapTo_natCast _ _).symm) s c
  · exact pushes_vinti (g := fun t x => (x ^^^ wrapTo t.elemBits i.toInt : Nat)) i.toInt (fun _ x y => x ^^^ y) rfl rfl (fun _ _ => rfl)
      (fun t x => (wrapTo_natCast _ _).symm) s c
  · exact pushes_vinti (g := fun _ x => x * i.toInt) i.toInt (fun _ x y => x * y) rfl rfl (fun _ _ => rfl)
      (fun t x => mod_eq_wrapTo (by rw [Int.natCast_mul, wrapTo_cast, Int.mul_emod, Int.emod_emod, ← Int.mul_emod])) s c

/-- R148: the three shifts by an immediate. -/
theorem vectorShiftImmRow_pushes {r : (BitVec 1 → BitVec 6 → BitVec 6 → BitVec 6 → Instr) × (Tag → Nat → Nat → Int)}
    (hr : r ∈ vectorShiftImmRows) (s : State) (c : Ctx) (ch : BitVec 1) (d a n : BitVec 6) :
    Pushes (r.1 ch d a n) s c d [a] (sameTag Tag.anyIntM) fun vs =>
      elements (opnd vs 0).tag ((elemsOf (opnd vs 0).tag (opnd vs 0).bits).map fun x => r.2 (opnd vs 0).tag x (n.toNat % (opnd vs 0).tag.elemBits)) := by
  simp only [vectorShiftImmRows, List.mem_cons, List.not_mem_nil, or_false] at hr
  rcases hr with rfl | rfl | rfl
  · exact pushes_vinti (g := fun t x => x * 2 ^ (n.toNat % t.elemBits)) 0 (fun e x _ => x * 2 ^ (n.toNat % e)) rfl rfl (fun _ _ => rfl)
      (fun t x => mod_eq_wrapTo (by push_cast; rfl)) s c
  · exact pushes_vinti (g := fun t x => x / 2 ^ (n.toNat % t.elemBits)) 0 (fun e x _ => x / 2 ^ (n.toNat % e)) rfl rfl (fun _ _ => rfl)
      (fun t x => mod_eq_wrapTo (by push_cast; rfl)) s c
  · exact pushes_vinti (g := fun t x => signedOf t.elemBits x / 2 ^ (n.toNat % t.elemBits)) 0 (fun e x _ => sraAt e x (n.toNat % e)) rfl rfl
      (fun _ _ => rfl) (fun t x => wrapTo_mod _ _) s c

/-- R149: VLI, whose one operand is its immediate. -/
theorem vli_runs {s : State} {c : Ctx} {ch : BitVec 1} {d : BitVec 6} {t : BitVec 4} {i : BitVec 15} (hr : Ready s (.vli ch d t i) c)
    (hd : c.badDst (Dst.ofCode d) = false) :
    Runs (.vli ch d t i) s c fun u => u.pushWrite c d (c.active.map fun l => (l, vliValue (Tag.ofCode t.toNat) i)) := by
  refine runs_of_done (f := fun u => u.pushWrite c d _) hr rfl (fun h => absurd h Bool.false_ne_true) ?_
  have hok : c.go.illopCheck [(1, c.go.badDst (Dst.ofCode d))] = none := by
    rw [show c.go.badDst (Dst.ofCode d) = false from hd]
    rfl
  show bodyVli d t i c.go _ = _
  rw [bodyVli, hok]
  rfl

/-- R152: VIMAD, the product of A and B, or its negative, added to C element by element. -/
theorem vimad_pushes (s : State) (c : Ctx) (ch : BitVec 1) (d a b e : BitVec 6) (x : BitVec 1) :
    Pushes (.vimad ch d a b e x) s c d [a, b, e] (sameTag Tag.anyInt) fun vs =>
      let t := (opnd vs 0).tag
      let es (k : Nat) : List Nat := elemsOf t (opnd vs k).bits
      elements t (((es 0).zip (es 1)).zipWith (fun (p : Nat × Nat) (z : Nat) => (z : Int) + if x = 1 then -((p.1 : Int) * p.2) else (p.1 : Int) * p.2) (es 2)) := by
  exact pushes_of_vecWord rfl rfl (fun _ _ => rfl) (fun vs => congrArg (mkElems _) (multiplyAdd_eq _ x _ _ _)) s c

/-- Settles O47: the rows by the shapes of their words, VPACK, VUNPK and VBFE by their values, and VLI and VIMAD by their bodies. -/
theorem vectorBitAndImmediateResults : Obligations.VectorBitAndImmediateResults :=
  ⟨⟨fun _ hr s c ch d a b => bitRow_pushes hr s c ch d a b, fun _ hr s c ch d a b => shiftRow_pushes hr s c ch d a b,
    fun _ hr s c ch d a b => unaryRow_pushes hr s c ch d a b,
    fun s c _ _ _ _ => pushes_of_vecWord rfl rfl (fun _ _ => rfl) (fun vs => vpack_value (opnd vs 0) (opnd vs 1)) s c,
    fun s c _ _ _ _ => pushes_of_vecWord rfl rfl (fun _ _ => rfl) (fun vs => unpk_value (opnd vs 0) (opnd vs 1)) s c,
    fun s c _ _ _ _ => pushes_of_vecWord rfl rfl (fun _ _ => rfl) (fun vs => vbfe_value (opnd vs 0) (opnd vs 1).bits.toNat) s c⟩,
    fun _ hr s c ch d a i => vectorImmRow_pushes hr s c ch d a i, fun _ hr s c ch d a n => vectorShiftImmRow_pushes hr s c ch d a n,
    fun _ _ _ _ _ _ hr hd => vli_runs hr hd, fun s c ch d a b e x => vimad_pushes s c ch d a b e x⟩

end Sys2Proof.Proofs
end

section
/-! SUPPORT. Scalar words: what their functions compute as integers modulo 2^w, and the words whose operands pass their checks (R83, R113-R118). -/

namespace Sys2Proof.Laws

open Sys2Proof.Machine Sys2Proof.Statements

/-! ### Functions of two patterns that compute integers -/

/-- On patterns of a width, f gives the pattern of the integer that g gives (R83). -/
def Computes (f : Nat → Nat → Nat → Nat) (g : Nat → Nat → Nat → Int) : Prop :=
  ∀ w x y, 0 < w → x < 2 ^ w → y < 2 ^ w → f w x y = wrapTo w (g w x y)

/-- A number of the width is its own pattern. -/
theorem wrapTo_of_lt {w n : Nat} (h : n < 2 ^ w) : wrapTo w (n : Int) = n := by
  rw [wrapTo_natCast, Nat.mod_eq_of_lt h]

/-- The signed reading of a pattern has that pattern. -/
theorem wrapTo_signedOf {w x : Nat} (h : x < 2 ^ w) : wrapTo w (signedOf w x) = x := by
  unfold signedOf
  split
  · exact wrapTo_of_lt h
  · rw [wrapTo, Int.sub_emod_right]
    exact wrapTo_of_lt h

/-- Under a wrapped result an addend counts by its pattern alone. -/
theorem wrapTo_add_wrapTo (w : Nat) (x z : Int) : wrapTo w (x + wrapTo w z) = wrapTo w (x + z) := by
  rw [wrapTo, wrapTo_cast, Int.add_emod_emod, wrapTo]

theorem computes_add : Computes (fun w x y => (x + y) % 2 ^ w) (fun _ x y => (x : Int) + y) :=
  fun w x y _ _ _ => (wrapTo_natCast w (x + y)).symm

theorem computes_sub : Computes (fun w x y => (x + 2 ^ w - y) % 2 ^ w) (fun _ x y => (x : Int) - y) := by
  intro w x y _ _ hy
  refine mod_eq_wrapTo ?_
  have hsub : ((x + 2 ^ w - y : Nat) : Int) = (x - y : Int) + 2 ^ w := by
    rw [Int.natCast_sub (by omega)]
    push_cast
    omega
  rw [hsub, Int.add_emod_right]

theorem computes_mul : Computes (fun w x y => x * y % 2 ^ w) (fun _ x y => (x : Int) * y) :=
  fun w x y _ _ _ => (wrapTo_natCast w (x * y)).symm

theorem computes_mulh : Computes mulhSigned (fun w x y => signedOf w x * signedOf w y / 2 ^ w) := fun _ _ _ _ _ _ => rfl

/-- The high half of a product of two patterns is a pattern. -/
theorem computes_mulhn : Computes (fun w x y => x * y / 2 ^ w) (fun w x y => (x : Int) * y / 2 ^ w) := by
  intro w x y _ hx hy
  have hlt : x * y / 2 ^ w < 2 ^ w := Nat.div_lt_of_lt_mul (Nat.mul_lt_mul'' hx hy)
  refine (wrapTo_of_lt hlt).symm.trans ?_
  push_cast
  rfl

theorem computes_and : Computes (fun _ x y => x &&& y) (fun _ x y => (x &&& y : Nat)) :=
  fun _ x _ _ _ hy => (wrapTo_of_lt (Nat.and_lt_two_pow x hy)).symm

theorem computes_or : Computes (fun _ x y => x ||| y) (fun _ x y => (x ||| y : Nat)) :=
  fun _ _ _ _ hx hy => (wrapTo_of_lt (Nat.or_lt_two_pow hx hy)).symm

theorem computes_xor : Computes (fun _ x y => x ^^^ y) (fun _ x y => (x ^^^ y : Nat)) :=
  fun _ _ _ _ hx hy => (wrapTo_of_lt (Nat.xor_lt_two_pow hx hy)).symm

theorem computes_shl : Computes (fun w x n => x * 2 ^ n % 2 ^ w) (fun _ x n => (x : Int) * 2 ^ n) :=
  fun _ _ _ _ _ _ => mod_eq_wrapTo (by push_cast; rfl)

theorem computes_shr : Computes (fun _ x n => x / 2 ^ n) (fun _ x n => (x : Int) / 2 ^ n) := by
  intro w x n _ hx _
  refine (wrapTo_of_lt (Nat.lt_of_le_of_lt (Nat.div_le_self x (2 ^ n)) hx)).symm.trans ?_
  push_cast
  rfl

theorem computes_sra : Computes sraAt (fun w x n => signedOf w x / 2 ^ n) := fun _ _ _ _ _ _ => rfl

/-- A count taken modulo the width is itself a pattern of the width (R115, R117). -/
theorem mod_width_lt {w : Nat} (hw : 0 < w) (n : Nat) : n % w < 2 ^ w :=
  Nat.lt_trans (Nat.mod_lt n hw) Nat.lt_two_pow_self

theorem Computes.count {f : Nat → Nat → Nat → Nat} {g : Nat → Nat → Nat → Int} (h : Computes f g) :
    Computes (fun w x y => f w x (y % w)) (fun w x y => g w x (y % w)) :=
  fun w x y hw hx _ => h w x (y % w) hw hx (mod_width_lt hw y)

theorem computes_min : Computes (fun w x y => if signedOf w x ≤ signedOf w y then x else y) (fun w x y => min (signedOf w x) (signedOf w y)) := by
  intro w x y _ hx hy
  show _ = wrapTo w (min (signedOf w x) (signedOf w y))
  rw [Int.min_def, apply_ite (wrapTo w), wrapTo_signedOf hx, wrapTo_signedOf hy]

theorem computes_max : Computes (fun w x y => if signedOf w y ≤ signedOf w x then x else y) (fun w x y => max (signedOf w x) (signedOf w y)) := by
  intro w x y _ hx hy
  show _ = wrapTo w (max (signedOf w x) (signedOf w y))
  rw [Int.max_comm, Int.max_def, apply_ite (wrapTo w), wrapTo_signedOf hx, wrapTo_signedOf hy]

theorem computes_minn : Computes (fun _ x y => if x ≤ y then x else y) (fun _ x y => (min x y : Nat)) := by
  intro w x y _ hx _
  rw [wrapTo_of_lt (Nat.lt_of_le_of_lt (Nat.min_le_left x y) hx), Nat.min_def]

theorem computes_maxn : Computes (fun _ x y => if y ≤ x then x else y) (fun _ x y => (max x y : Nat)) := by
  intro w x y _ hx hy
  rw [wrapTo_of_lt (Nat.max_lt.mpr ⟨hx, hy⟩), Nat.max_comm, Nat.max_def]

/-- A test gives 1 or 0. -/
theorem computes_test {p q : Nat → Nat → Nat → Prop} [∀ w x y, Decidable (p w x y)] [∀ w x y, Decidable (q w x y)]
    (h : ∀ w x y, p w x y ↔ q w x y) : Computes (fun w x y => if p w x y then 1 else 0) (fun w x y => if q w x y then 1 else 0) := by
  intro w x y hw _ _
  have one : wrapTo w 1 = 1 := wrapTo_of_lt (Nat.one_lt_two_pow (Nat.ne_of_gt hw))
  have zero : wrapTo w 0 = 0 := wrapTo_of_lt (Nat.two_pow_pos w)
  simp only [h, apply_ite (wrapTo w), one, zero]

/-! ### Words whose operands pass -/

theorem scalarWidth_pos (t : Tag) : 0 < t.scalarWidth := by
  cases h : t.is32 <;> simp [Tag.scalarWidth, h]

/-- Two operands of accepted tags and not POISON pass (R112, R114). -/
theorem scalarCheck_pair_ok {c : Ctx} {x y : RegVal} {p q : Tag → Bool} (hx : x.tag ≠ .poison) (hy : y.tag ≠ .poison)
    (hp : p x.tag = true) (hq : q y.tag = true) : c.scalarCheck [(2, x, p), (3, y, q)] = none := by
  rw [scalarCheck_pair, if_neg hx, if_neg hy, if_neg (by simp [hp]), if_neg (by simp [hq])]

/-- The same of one operand. -/
theorem scalarCheck_one_ok {c : Ctx} {k : Nat} {x : RegVal} {p : Tag → Bool} (hx : x.tag ≠ .poison) (hp : p x.tag = true) :
    c.scalarCheck [(k, x, p)] = none := by
  simp [Ctx.scalarCheck, hx, hp]

theorem clean_of_ne_poison {t : Tag} (h : t ≠ .poison) : t.clean = true := by
  simp [Tag.clean, h]

theorem ne_poison_of_shiftable {t : Tag} (h : t.shiftable = true) : t ≠ .poison := by
  rintro rfl
  exact absurd h (by decide)

/-- A word of two scalar operands that pass writes the integer that its function computes (R115). -/
theorem salu_of_ok {c : Ctx} {a b : BitVec 5} {accA : Tag → Bool} {accB : Tag → Tag → Bool} {f : Nat → Nat → Nat → Nat}
    {g : Nat → Nat → Nat → Int} (hf : Computes f g) (h : c.scalarCheck [(2, c.getS a, accA), (3, c.getS b, accB (c.getS a).tag)] = none)
    (s : State) (d : BitVec 5) (res : Tag → Tag) : salu c s d a b accA accB res f = .done (s.writeS c d {
      bits := BitVec.ofNat 64 (wrapTo (c.getS a).tag.scalarWidth
        (g (c.getS a).tag.scalarWidth ((c.getS a).low (c.getS a).tag.scalarWidth) ((c.getS b).low (c.getS a).tag.scalarWidth)))
      tag := res (c.getS a).tag }) := by
  simp only [salu, h]
  rw [hf _ _ _ (scalarWidth_pos _) (low_lt _ _) (low_lt _ _)]

/-- A word of a scalar and an immediate whose operand passes writes the integer z (R117). -/
theorem salui_of_ok {c : Ctx} {a : BitVec 5} {acc : Tag → Bool} {imm z : Int} {f : Nat → Nat → Nat → Nat}
    (hf : let w := (c.getS a).tag.scalarWidth
      f w ((c.getS a).low w) (wrapTo w imm) = wrapTo w z) (h : c.scalarCheck [(2, c.getS a, acc)] = none)
    (s : State) (d : BitVec 5) (res : Tag → Tag) : salui c s d a acc res imm f = .done (s.writeS c d {
      bits := BitVec.ofNat 64 (wrapTo (c.getS a).tag.scalarWidth z), tag := res (c.getS a).tag }) := by
  simp only [salui, h, hf]

/-- The function of each SALU word computes its row's integer (R115). -/
theorem scalarRow_computes {r : ScalarRow} (hr : r ∈ scalarRows) (ch : BitVec 1) (d a b : BitVec 5) :
    ∃ f, Computes f r.val ∧ ∀ c s, wordBody (r.word ch d a b) c s = salu c s d a b r.tagA r.tagB r.res f := by
  simp only [scalarRows, List.mem_cons, List.not_mem_nil, or_false] at hr
  rcases hr with rfl | rfl | rfl | rfl | rfl | rfl | rfl | rfl | rfl | rfl | rfl | rfl | rfl | rfl | rfl | rfl | rfl | rfl
  · exact ⟨_, computes_add, fun _ _ => rfl⟩
  · exact ⟨_, computes_sub, fun _ _ => rfl⟩
  · exact ⟨_, computes_mul, fun _ _ => rfl⟩
  · exact ⟨_, computes_mulh, fun _ _ => rfl⟩
  · exact ⟨_, computes_mulhn, fun _ _ => rfl⟩
  · exact ⟨_, computes_and, fun _ _ => rfl⟩
  · exact ⟨_, computes_or, fun _ _ => rfl⟩
  · exact ⟨_, computes_xor, fun _ _ => rfl⟩
  · exact ⟨_, computes_shl.count, fun _ _ => rfl⟩
  · exact ⟨_, computes_shr.count, fun _ _ => rfl⟩
  · exact ⟨_, computes_sra.count, fun _ _ => rfl⟩
  · exact ⟨_, computes_min, fun _ _ => rfl⟩
  · exact ⟨_, computes_max, fun _ _ => rfl⟩
  · exact ⟨_, computes_minn, fun _ _ => rfl⟩
  · exact ⟨_, computes_maxn, fun _ _ => rfl⟩
  · exact ⟨_, computes_test (p := fun _ x y => (x == y) = true) fun _ _ _ => beq_iff_eq, fun _ _ => rfl⟩
  · exact ⟨_, computes_test (p := fun w x y => decide (signedOf w x < signedOf w y) = true) fun _ _ _ => decide_eq_true_iff, fun _ _ => rfl⟩
  · exact ⟨_, computes_test (p := fun _ x y => decide (x < y) = true) fun _ _ _ => decide_eq_true_iff, fun _ _ => rfl⟩

/-- Each SALUI word with an immediate operand gives its row's integer (R117). -/
theorem scalarImmRow_word {r : ScalarImmRow} (hr : r ∈ scalarImmRows) (ch : BitVec 1) (d a : BitVec 5) (i : BitVec 12) :
    isEvent (r.word ch d a i) = false ∧ ∃ f, (∀ w x, 0 < w → x < 2 ^ w →
      f w x (wrapTo w i.toInt) = wrapTo w (r.val w x (wrapTo w i.toInt) i.toInt))
      ∧ ∀ c s, wordBody (r.word ch d a i) c s = salui c s d a r.tagA r.res i.toInt f := by
  simp only [scalarImmRows, List.mem_cons, List.not_mem_nil, or_false] at hr
  rcases hr with rfl | rfl | rfl | rfl | rfl
  · exact ⟨rfl, fun w x y => (x + y) % 2 ^ w, fun w x hw hx => (computes_add w x _ hw hx (wrapTo_lt _ _)).trans (wrapTo_add_wrapTo w x _), fun _ _ => rfl⟩
  · exact ⟨rfl, _, fun w x hw hx => computes_and w x _ hw hx (wrapTo_lt _ _), fun _ _ => rfl⟩
  · exact ⟨rfl, _, fun w x hw hx => computes_or w x _ hw hx (wrapTo_lt _ _), fun _ _ => rfl⟩
  · exact ⟨rfl, _, fun w x hw hx => computes_xor w x _ hw hx (wrapTo_lt _ _), fun _ _ => rfl⟩
  · exact ⟨rfl, fun w x y => if signedOf w x < signedOf w y then 1 else 0,
      fun w x hw hx => computes_test (p := fun w x y => signedOf w x < signedOf w y) (fun _ _ _ => Iff.rfl) w x _ hw hx (wrapTo_lt _ _), fun _ _ => rfl⟩

/-- The shifts by an immediate compute as their rows say, of the count modulo the width (R117). -/
theorem scalarShiftRow_word {r : (BitVec 1 → BitVec 5 → BitVec 5 → BitVec 6 → Instr) × (Nat → Nat → Nat → Int)} (hr : r ∈ scalarShiftRows)
    (ch : BitVec 1) (d a : BitVec 5) (n : BitVec 6) :
    isEvent (r.1 ch d a n) = false ∧ ∃ f, Computes f r.2
      ∧ ∀ c s, wordBody (r.1 ch d a n) c s = salui c s d a Tag.shiftable id 0 fun w x _ => f w x (n.toNat % w) := by
  simp only [scalarShiftRows, List.mem_cons, List.not_mem_nil, or_false] at hr
  rcases hr with rfl | rfl | rfl
  · exact ⟨rfl, _, computes_shl, fun _ _ => rfl⟩
  · exact ⟨rfl, _, computes_shr, fun _ _ => rfl⟩
  · exact ⟨rfl, _, computes_sra, fun _ _ => rfl⟩

/-! ### SMOV, SLI and SLIH -/

/-- A legal tag field of SMOV is 0 or names a tag by its low four bits (R116). -/
theorem smovTag_code {t : BitVec 5} (h : smovTagLegal t = true) (ht : t ≠ 0) : t.toNat % 16 = t.toNat - 16 := by
  simp only [smovTagLegal, Bool.or_eq_true, beq_iff_eq, ht, false_or, Bool.and_eq_true, decide_eq_true_eq] at h
  omega

/-- A value of a tag from a doubleword: a 32-bit tag clears bits 63:32 (R53). -/
theorem mkVal_toNat (t : Tag) (v : DWord) : mkVal t v.toNat = { bits := if t.is32 then v &&& 0xFFFFFFFF else v, tag := t } := by
  have hv : BitVec.ofNat 64 v.toNat = v := by rw [BitVec.ofNat_toNat, BitVec.setWidth_eq]
  rw [mkVal, apply_ite (BitVec.ofNat 64), ofNat_mod_word, hv]

theorem bodySmov_of_clean {c : Ctx} {a t : BitVec 5} (h : (c.getS a).tag ≠ .poison) (ht : smovTagLegal t = true) (d : BitVec 5) (s : State) :
    bodySmov d a t c s = .done (s.writeS c d (
      let g := if t = 0 then (c.getS a).tag else Tag.ofCode (t.toNat - 16)
      { bits := if g.is32 then (c.getS a).bits &&& 0xFFFFFFFF else (c.getS a).bits, tag := g })) := by
  simp only [bodySmov, scalarCheck_one_ok h (clean_of_ne_poison h), mkVal_toNat, beq_iff_eq]
  by_cases h0 : t = 0
  · simp only [if_pos h0]
  · simp only [if_neg h0, smovTag_code ht h0]

/-- SLIH's result as a number: the signed immediate above the 20 bits kept (R118). -/
theorem slih_bits (i : BitVec 20) (x : DWord) :
    i.signExtend 44 ++ x.extractLsb' 0 20 = BitVec.ofInt 64 (i.toInt * 2 ^ 20 + (x.toNat % 2 ^ 20 : Nat)) := by
  have hlow : x.toNat % 2 ^ 20 < 2 ^ 20 := Nat.mod_lt _ (by decide)
  apply BitVec.eq_of_toNat_eq
  rw [BitVec.toNat_append, BitVec.extractLsb'_toNat, Nat.shiftRight_zero, ← Nat.shiftLeft_add_eq_or_of_lt hlow, Nat.shiftLeft_eq, BitVec.signExtend,
    BitVec.toNat_ofInt, BitVec.toNat_ofInt]
  omega

theorem bodySlih_of_clean {c : Ctx} {d : BitVec 5} (h : (c.getS d).tag ≠ .poison) (i : BitVec 20) (s : State) :
    bodySlih d i c s = .done (s.writeS c d { bits := BitVec.ofInt 64 (i.toInt * 2 ^ 20 + ((c.getS d).bits.toNat % 2 ^ 20 : Nat)), tag := .i64 }) := by
  simp only [bodySlih, scalarCheck_one_ok h (clean_of_ne_poison h), slih_bits]

end Sys2Proof.Laws

namespace Sys2Proof.Proofs

open Sys2Proof.Machine Sys2Proof.Statements Sys2Proof.Laws

/-- Settles O1: the operand checks pass, and the function of each word computes its row's integer. -/
theorem scalarTwoOperandResults : Obligations.ScalarTwoOperandResults := by
  intro r hr s c ch d a b h ha hA hB hx hy
  obtain ⟨hev, -, -⟩ := scalarRow_word hr ch d a b
  obtain ⟨f, hf, hbody⟩ := scalarRow_computes hr ch d a b
  exact runs_of_done (f := fun t => t.writeS c d _) h hev (fun _ => ha)
    ((hbody _ _).trans (salu_of_ok (c := c.go) hf (scalarCheck_pair_ok hx hy hA hB) _ d _))

/-- Settles O2: SALUI's words through the integers of their rows, and SMOV, SLI and SLIH by their bodies. -/
theorem scalarImmediateResults : Obligations.ScalarImmediateResults := by
  refine ⟨fun r hr s c ch d a i h ha hA hx => ?_, fun r hr s c ch d a n h ha hA => ?_, fun s c ch d a t h ha hx => ?_,
    fun s c ch d i h ha => ?_, fun s c ch d i h ha hx => ?_⟩
  · obtain ⟨hev, f, hf, hbody⟩ := scalarImmRow_word hr ch d a i
    exact runs_of_done (f := fun t => t.writeS c d _) h hev (fun _ => ha)
      ((hbody _ _).trans (salui_of_ok (c := c.go) (hf _ _ (scalarWidth_pos _) (low_lt _ _)) (scalarCheck_one_ok hx hA) _ d _))
  · obtain ⟨hev, f, hf, hbody⟩ := scalarShiftRow_word hr ch d a n
    have hcount := hf _ _ _ (scalarWidth_pos _) (low_lt (c.getS a) _) (mod_width_lt (scalarWidth_pos (c.getS a).tag) n.toNat)
    exact runs_of_done (f := fun t => t.writeS c d _) h hev (fun _ => ha)
      ((hbody _ _).trans (salui_of_ok (c := c.go) hcount (scalarCheck_one_ok (ne_poison_of_shiftable hA) hA) _ d id))
  · exact runs_of_done (f := fun u => u.writeS c d _) h rfl (fun _ => ha) (bodySmov_of_clean (c := c.go) hx h.formed d _)
  · exact runs_of_done (f := fun u => u.writeS c d _) h rfl (fun _ => ha) rfl
  · exact runs_of_done (f := fun u => u.writeS c d _) h rfl (fun _ => ha) (bodySlih_of_clean (c := c.go) hx i _)

end Sys2Proof.Proofs
end

section
/-! SUPPORT. Control transfers: the words that record what their run's end does (R119-R123, R130-R134, R375). -/

namespace Sys2Proof.Laws

open Sys2Proof.Machine

/-- A word that acts in lanes is its body's effect, whatever lanes are active. -/
theorem runs_of_lane_word {s : State} {i : Instr} {c : Ctx} {f : State → State} (hr : Ready s i c) (hi : isEvent i = false) (hu : uniform i = false)
    (hb : wordBody i c.go (s.atEffect i c) = .done (f (s.atEffect i c))) : Runs i s c f :=
  runs_of_done hr hi (fun h => absurd (hu.symm.trans h) Bool.false_ne_true) hb

theorem traps_of_lane_word {s : State} {i : Instr} {c : Ctx} {t : TrapInfo} (hr : Ready s i c) (hi : isEvent i = false) (hu : uniform i = false)
    (hb : wordBody i c.go (s.atEffect i c) = .trap t) : Traps i s c t :=
  traps_of_trap hr hi (fun h => absurd (hu.symm.trans h) Bool.false_ne_true) hb

/-- The link of a call in the words of R122. -/
theorem link_eq (s : State) (c : Ctx) :
    s.link c = s.writeV c 31 (c.active.map fun l => (l, { bits := c.grp.packet + 1, tag := .n64 })) := by
  rw [State.link, mkVal_toNat]
  rfl

/-- A scalar that passes its tag check, or no lane to check it for, lets BRC decide on its signed value (R58, R121). -/
theorem bodyBrc_of_ok {c : Ctx} {a : BitVec 5} (h : c.active = [] ∨ (c.getS a).tag.shiftable = true) (k : BitVec 3) (i : BitVec 17) (s : State) :
    bodyBrc k a i c s = .done (s.branch c
      (if brcCond k.toNat (signedOf (c.getS a).tag.scalarWidth ((c.getS a).low (c.getS a).tag.scalarWidth)) then c.active else [])
      (c.grp.packet + i.signExtend 64)) := by
  have hok : c.laneScalarCheck [(2, c.getS a, Tag.shiftable)] = none := by
    rcases h with h | h
    · simp [Ctx.laneScalarCheck, h]
    · simp [Ctx.laneScalarCheck, scalarCheck_one_ok (ne_poison_of_shiftable h) h]
  simp only [bodyBrc, hok]
  rfl

/-- The lanes of BRP are those whose predicate differs from N (R120). -/
theorem brp_takes (n : BitVec 1) (p : Bool) : (p != (n == 1)) = if n = 1 then !p else p := by
  revert n p
  decide

/-- A check that no listed lane fails raises no trap. -/
theorem laneCheck_of_pass {c : Ctx} {lanes : List Nat} {f : Nat → Option (Nat × Nat)} (k : Cause) (h : ∀ l ∈ lanes, f l = none) :
    c.laneCheck k lanes f = none := by
  have hnil : lanes.filter (fun l => (f l).isSome) = [] := List.filter_eq_nil_iff.mpr fun l hl => by simp [h l hl]
  simp only [Ctx.laneCheck, hnil]

/-- A packet number in v31 of every active lane is where RET goes (R123). -/
theorem bodyRet_of_packets {c : Ctx} (h : ∀ l ∈ c.active, ((c.regs.lane l).getV 31).tag = .i64 ∨ ((c.regs.lane l).getV 31).tag = .n64) (s : State) :
    bodyRet c s = .done (s.transfer c (.jump (maskOf c.active) (c.active.map fun l => (l, ((c.regs.lane l).getV 31).bits)))) := by
  have hpoison (l) (hl : l ∈ c.active) : (if ((c.regs.lane l).getV 31).tag == .poison then some (5, Tag.poison.code) else none) = none := by
    rcases h l hl with ht | ht <;> simp [ht]
  have htag (l) (hl : l ∈ c.active) :
      (if ((c.regs.lane l).getV 31).tag.isPacket then none else some (5, ((c.regs.lane l).getV 31).tag.code)) = none := by
    rcases h l hl with ht | ht <;> simp [ht, Tag.isPacket]
  simp only [bodyRet, laneCheck_of_pass _ hpoison, laneCheck_of_pass _ htag, firstTrap]

/-- FREEZE takes effect in the template crew of its level with every lane active (R132). -/
theorem bodyFreeze_of_template {c : Ctx} {l : BitVec 2} (hh : c.handler = false)
    (hl : (l = 1 ∧ c.crew.role = .launchTemplate ∧ (c.record.level = 1 ∨ c.record.level = 2)) ∨ (l = 2 ∧ c.crew.role = .blockTemplate ∧ c.record.level = 2))
    (ha : ∀ x, x < c.crew.width → x ∈ c.active) (s : State) : bodyFreeze l c s = .done (s.transfer c (.freeze l.toNat)) := by
  have hallowed : freezeAllowed c l.toNat = true := by
    rcases hl with ⟨rfl, hrole, hlevel | hlevel⟩ | ⟨rfl, hrole, hlevel⟩
    all_goals simp [freezeAllowed, hh, hrole, hlevel]
  have hall : (List.range c.crew.width).filter (fun x => !c.active.contains x) = [] :=
    List.filter_eq_nil_iff.mpr fun x hx => by simp [ha x (List.mem_range.mp hx)]
  simp only [bodyFreeze, hallowed, hall, Bool.not_true, Bool.false_eq_true, if_false]

/-- The returns differ in their form alone (R375). -/
theorem rteRow_word {r : (BitVec 1 → Instr) × RteForm} (hr : r ∈ [((.rteRetry : BitVec 1 → Instr), RteForm.retry), (.rteCommit, .commit), (.rteSkip, .skip)])
    (ch : BitVec 1) : isEvent (r.1 ch) = false ∧ uniform (r.1 ch) = false ∧ wordBody (r.1 ch) = sysRte r.2 := by
  simp only [List.mem_cons, List.not_mem_nil, or_false] at hr
  rcases hr with rfl | rfl | rfl
  · exact ⟨rfl, rfl, rfl⟩
  · exact ⟨rfl, rfl, rfl⟩
  · exact ⟨rfl, rfl, rfl⟩

end Sys2Proof.Laws

namespace Sys2Proof.Proofs

open Sys2Proof.Machine Sys2Proof.Laws

/-- R120: BRC moves every active lane or none, as its condition says. -/
theorem brc_runs {s : State} {c : Ctx} {ch : BitVec 1} {k : BitVec 3} {a : BitVec 5} {i : BitVec 17} (h : Ready s (.brc ch k a i) c)
    (ha : c.active = [] ∨ (c.getS a).tag.shiftable = true) :
    Runs (.brc ch k a i) s c fun t => t.branch c
      (if brcCond k.toNat (signedOf (c.getS a).tag.scalarWidth ((c.getS a).low (c.getS a).tag.scalarWidth)) then c.active else [])
      (c.grp.packet + i.signExtend 64) :=
  runs_of_lane_word h rfl rfl (bodyBrc_of_ok (c := c.go) ha k i _)

/-- R120: BRP moves the active lanes whose predicate, inverted by N, is true. -/
theorem brp_runs {s : State} {c : Ctx} {ch : BitVec 1} {p : BitVec 3} {n : BitVec 1} {i : BitVec 21} (h : Ready s (.brp ch p n i) c) :
    Runs (.brp ch p n i) s c fun t => t.branch c
      (c.active.filter fun l => if n = 1 then !(c.regs.lane l).getP p.toNat else (c.regs.lane l).getP p.toNat) (c.grp.packet + i.signExtend 64) := by
  simp only [← brp_takes]
  exact runs_of_lane_word h rfl rfl rfl

/-- R122: CALL links and moves every active lane. -/
theorem call_runs {s : State} {c : Ctx} {ch : BitVec 1} {i : BitVec 25} (h : Ready s (.call ch i) c) :
    Runs (.call ch i) s c fun t =>
      (t.writeV c 31 (c.active.map fun l => (l, { bits := c.grp.packet + 1, tag := .n64 }))).branch c c.active (c.grp.packet + i.signExtend 64) := by
  simp only [← link_eq]
  exact runs_of_lane_word h rfl rfl rfl

/-- R123: JMPI goes to the packets that its operand gives, lane by lane. -/
theorem jmpi_runs {s : State} {c : Ctx} {ch : BitVec 1} {a : BitVec 6} {o : Operands} (h : Ready s (.jmpi ch a) c)
    (ho : c.go.vecOperands (s.atEffect (.jmpi ch a) c) none [a] (sameTag Tag.isPacket) = .ok o) :
    Runs (.jmpi ch a) s c fun _ => o.state.transfer c (.jump (maskOf c.active) (o.vals.map fun v => (v.1, (opnd v.2 0).bits))) := by
  refine runs_of_lane_word (f := fun _ => o.state.transfer c _) h rfl rfl ?_
  show bodyJmpi a c.go _ = _
  rw [bodyJmpi, ho]
  rfl

/-- R123: JMPI.L reads its target before it links. -/
theorem jmpiL_runs {s : State} {c : Ctx} {ch : BitVec 1} {a : BitVec 6} {o : Operands} (h : Ready s (.jmpiL ch a) c)
    (ho : c.go.vecOperands (s.atEffect (.jmpiL ch a) c) none [a] (sameTag Tag.isPacket) = .ok o) :
    Runs (.jmpiL ch a) s c fun _ => (o.state.writeV c 31 (c.active.map fun l => (l, { bits := c.grp.packet + 1, tag := .n64 }))).transfer c
      (.jump (maskOf c.active) (o.vals.map fun v => (v.1, (opnd v.2 0).bits))) := by
  refine runs_of_lane_word (f := fun _ => State.transfer _ c _) h rfl rfl ?_
  show bodyJmpiL a c.go _ = _
  rw [bodyJmpiL, ho, ← link_eq]
  rfl

/-- R130, R131: the four outcomes of EXIT, in the order of its checks. -/
theorem exit_decides {s : State} {c : Ctx} {ch : BitVec 1} (h : Ready s (.exit ch) c) :
    (c.active = [] → Runs (.exit ch) s c id)
    ∧ (c.active ≠ [] → c.handler = false → c.crew.role = .normal → Runs (.exit ch) s c fun t => t.transfer c (.exit (maskOf c.active)))
    ∧ (c.active ≠ [] → c.handler = true → Traps (.exit ch) s c (c.go.fail .illop c.active 5))
    ∧ (c.active ≠ [] → c.handler = false → c.crew.role ≠ .normal → Traps (.exit ch) s c (c.go.fail .freeze c.active 3)) := by
  have hbody (t : State) : bodyExit c.go t = if c.active.isEmpty then .done t else if c.handler then .trap (c.go.fail .illop c.active 5)
      else if c.crew.role != .normal then .trap (c.go.fail .freeze c.active 3) else .done (t.transfer c (.exit (maskOf c.active))) := rfl
  refine ⟨fun ha => runs_of_lane_word h rfl rfl ((hbody _).trans ?_), fun ha hh hn => runs_of_lane_word h rfl rfl ((hbody _).trans ?_),
    fun ha hh => traps_of_lane_word h rfl rfl ((hbody _).trans ?_), fun ha hh hn => traps_of_lane_word h rfl rfl ((hbody _).trans ?_)⟩
  · simp [ha]
  · simp [ha, hh, hn]
  · simp [ha, hh]
  · simp [ha, hh, hn]

/-- R375: the three outcomes of a return. -/
theorem rte_decides {s : State} {c : Ctx} {i : Instr} {form : RteForm} (h : Ready s i c) (hev : isEvent i = false) (hun : uniform i = false)
    (hw : wordBody i = sysRte form) :
    (c.active = [] → Runs i s c id)
    ∧ (c.active ≠ [] → c.handler = true → Runs i s c fun t => t.transfer c (.rte form))
    ∧ (c.active ≠ [] → c.handler = false → Traps i s c (c.go.fail .illop c.active 5)) := by
  have hbody (t : State) : wordBody i c.go t = if c.active.isEmpty then .done t else if !c.handler then .trap (c.go.fail .illop c.active 5)
      else .done (t.transfer c (.rte form)) := by
    rw [hw]
    rfl
  refine ⟨fun ha => runs_of_lane_word h hev hun ((hbody _).trans ?_), fun ha hh => runs_of_lane_word h hev hun ((hbody _).trans ?_),
    fun ha hh => traps_of_lane_word h hev hun ((hbody _).trans ?_)⟩
  · simp [ha]
  · simp [ha, hh]
  · simp [ha, hh]

/-- Settles O50: each word by its body, with BRC's condition read as a test of its signed value. -/
theorem transferWords : Obligations.TransferWords := by
  refine ⟨⟨fun s c ch i h => runs_of_lane_word h rfl rfl rfl, fun s c ch k a i h ha => ?_, fun s c ch p n i h => brp_runs h,
      fun s c ch i h => call_runs h, fun s c ch a h o ho => jmpi_runs h ho,
      fun s c ch h ht => runs_of_lane_word h rfl rfl (bodyRet_of_packets (c := c.go) ht _), fun s c ch a h o ho => jmpiL_runs h ho⟩,
    fun s c ch h => exit_decides h,
    fun s c ch l h hh hl ha => runs_of_lane_word h rfl rfl (bodyFreeze_of_template (c := c.go) hh hl ha _),
    fun r hr s c ch h => ?_⟩
  · intro v go
    have hgo : brcCond k.toNat v = true ↔ go := by
      simp only [go]
      rcases k.toNat with _ | _ | _ | _ | _ | n <;> simp [brcCond]
    have hrun := brc_runs h ha
    refine ⟨fun hg => ?_, fun hg => ?_⟩
    · rw [if_pos (hgo.mpr hg)] at hrun
      exact hrun
    · rw [if_neg (mt hgo.mp hg)] at hrun
      exact hrun
  · obtain ⟨hev, hun, hw⟩ := rteRow_word hr ch
    exact rte_decides h hev hun hw

end Sys2Proof.Proofs
end

section
/-! SUPPORT. The decoder on the words that the spec writes out beside their assembly (R34, R37, R116-R137). -/

namespace Sys2Proof.Proofs

/-- Settles O40: the decoder computes each listed word's instruction. -/
theorem decodeSampleWords : Obligations.DecodeSampleWords :=
  ⟨rfl, rfl, rfl, rfl⟩

end Sys2Proof.Proofs
end

section
/-! SUPPORT. The entry of traps: what a group's context holds, a word that does not issue, and the three events by which traps are entered (R166, R361, R366, R368). -/

namespace Sys2Proof.Laws

open Sys2Proof.Machine

/-! ### The context of a group -/

/-- A context is that of a group of a crew in the table, and its active lanes are the group's (R111). -/
theorem ctxOf_inv {s : State} {r : StreamRef} {cid gid : Nat} {w : Word} {c : Ctx} (h : s.ctxOf r cid gid w = some c) :
    c.cid = cid ∧ tget s.crews cid = some c.crew ∧ c.crew.group? gid = some c.grp ∧ c.active = c.crew.activeLanes c.grp := by
  unfold State.ctxOf at h
  split at h
  · exact absurd h (by simp)
  · next hc =>
    split at h
    · next hg _ =>
      obtain rfl := Option.some.inj h
      exact ⟨rfl, hc, hg, rfl⟩
    · exact absurd h (by simp)

theorem ctx?_active {s : State} {i : Instr} {c : Ctx} (h : s.ctx? i = some c) : c.active = c.crew.activeLanes c.grp := by
  unfold State.ctx? at h
  split at h
  · exact absurd h (by simp)
  · split at h
    · exact absurd h (by simp)
    · obtain ⟨-, -, -, hactive⟩ := ctxOf_inv h
      exact hactive

/-! ### A word that does not issue -/

theorem exec_of_mayIssue {s : State} {i : Instr} {c : Ctx} (hi : isEvent i = false) (hc : s.ctx? i = some c) (hm : s.mayIssue c = true) :
    exec i s = .next (s.issueAt i c) := by
  rw [exec_word i hi]
  simp only [issueWord, hc, hm, if_true]

theorem issueAt_of_wait {s : State} {i : Instr} {c : Ctx} {w : Wait} (hs : c.grp.snap = none) (hw : s.chainWait c i = some w) :
    s.issueAt i c = s.park c i w := by
  simp [State.issueAt, hs, hw]

/-- A deferred trap that is due is taken in place of the word (R361). -/
theorem issueAt_of_due {s : State} {i : Instr} {c : Ctx} {t : TrapInfo} (hs : c.grp.snap = none) (hw : s.chainWait c i = none)
    (ht : c.dueTrap = some t) : s.issueAt i c = s.takeDue c t := by
  simp [State.issueAt, hs, hw, ht]

/-- The first deferred trap of a crew outside the handler is due at a chain group of its own (R361). -/
theorem dueTrap_of_deferred {c : Ctx} {d : Deferred} {rest : List Deferred} (hj : c.grp.joined = none) (hh : c.crew.handler = none)
    (hd : c.crew.deferred = d :: rest) : c.dueTrap = some (c.crew.deferredAt c.grp d) := by
  simp [Ctx.dueTrap, hj, hh, hd]

/-! ### The events -/

/-- The next pending trap of a block is entered where nothing holds it back (R366, R368). -/
theorem settleTraps_of_ready {s : State} {b : Nat} {w : Crew} {g : Group} {t : TrapInfo} (hf : s.entryHeld b = false)
    (hn : s.nextTrap b = some (w, g, t)) (hq : w.queueReady g = true) : s.settleTraps b = (s.haltBlock b w.id g.id).enterHandler w.id g.id t := by
  simp [State.settleTraps, hf, hn, hq]

theorem handlerEntry_of_ready {s : State} {cid : Nat} {c w : Crew} {g : Group} {t : TrapInfo} (hc : tget s.crews cid = some c)
    (hf : s.entryHeld c.block = false) (hn : s.nextTrap c.block = some (w, g, t)) (hw : w.id = cid) (hq : w.queueReady g = true) :
    s.handlerEntry cid = some (s.settleTraps c.block) := by
  simp [State.handlerEntry, hc, hf, hn, hw, hq]

theorem deferredEntry_of_due {s : State} {r : StreamRef} {cid gid : Nat} {c : Ctx} {w : Word} {t : TrapInfo} (hr : s.focus = some r)
    (hk : s.carried r = some (cid, gid)) (hc : s.ctxOf r cid gid 0 = some c) (hg : s.groupWord c.crew c.grp = some w) (hm : s.mayIssue c = true)
    (hs : c.grp.snap = none) (hw : s.chainWait { c with word := w } (instrOf w) = none) (ht : c.dueTrap = some t) :
    s.deferredEntry cid = some (s.takeDue c t) := by
  have hm' : s.mayIssue { c with word := w } = true := hm
  have ht' : ({ c with word := w } : Ctx).dueTrap = some t := ht
  simp only [State.deferredEntry, hr, hk, hc, hg, hm', hs, hw, ht', Option.isSome_none, Bool.not_true, Bool.or_false, bne_self_eq_false,
    Bool.false_eq_true, if_false, Option.map_some]
  rfl

/-- A group waits at a rendezvous, outside a halt and with no trap of its own, since 2^24 cycles or more (R166, R365). -/
structure WaitedOut (s : State) (c : Crew) (g : Group) : Prop where
  waits : g.wait = some .rendezvous
  running : g.halted = false
  untrapped : g.trap = none
  unjoined : g.joined = none
  unfrozen : c.frozen = false
  noShadow : c.isShadow = false
  long : ∃ t, g.since = some t ∧ t + 2 ^ 24 ≤ (s.core c.core).clk

/-- The trap of a rendezvous that times out, with the context of the word that the group waits at (R166, R359). -/
def rvtoTrap (s : State) (g : Group) (y : Ctx) (w : Word) (amask : DWord) : TrapInfo :=
  { cause := .rvto, packet := g.packet, word := g.word, mask := maskOf (s.missing y (maskCode w)), info := trapDetail w 0 0, defer := true, amask := amask }

theorem rendezvousTimeout_of_waitedOut {s : State} {cid gid : Nat} {c : Crew} {g h : Group} {x : Ctx} {w : Word} (hc : tget s.crews cid = some c)
    (hg : c.group? gid = some g) (ho : WaitedOut s c g) (hr : s.reach c g 3 = some h) (hw : s.groupWord c h = some w)
    (hx : s.ctxOf { core := c.core, half := c.half, stream := 0 } cid gid w = some x)
    (hf : s.firstWaiting { x with grp := h, active := c.activeLanes h } (maskCode w) = true) :
    s.rendezvousTimeout cid gid = some (s.raiseTrap cid gid
      (rvtoTrap s g { x with grp := h, active := c.activeLanes h } w (maskOf x.active))) := by
  have hlate : (g.since.map fun t => decide (t + 2 ^ 24 ≤ (s.core c.core).clk)).getD false = true := by
    obtain ⟨t, ht, hlong⟩ := ho.long
    rw [ht, Option.map_some, Option.getD_some]
    exact decide_eq_true hlong
  simp only [State.rendezvousTimeout, hc, hg, ho.waits, ho.running, ho.untrapped, ho.unjoined, ho.unfrozen, ho.noShadow, hlate, hr, hw, hx, hf,
    bne_self_eq_false, Option.isSome_none, Bool.not_true, Bool.or_false, Bool.false_eq_true, if_false, rvtoTrap]

end Sys2Proof.Laws

namespace Sys2Proof.Proofs

open Sys2Proof.Machine Sys2Proof.Laws

/-- Settles O24: each event by the equation of its enabled case; a deferred trap names the active lanes of the group that its context holds. -/
theorem trapEvents : Obligations.TrapEvents := by
  refine ⟨fun s cid c w g t hc hh hm hk hn hw hq => ?entry, fun s r cid gid c d rest w hr hk hc hm hs hj hh hd hg hw => ?deferred,
    fun s i c d rest hi hc hm hs hj hh hd hw => ?issue, fun s cid gid since c g h x w hc hg hwait hhalt htrap hjoin hfro hsh hsince hlong hr hw hx hf => ?timeout⟩
  case entry =>
    have hfree : s.entryHeld c.block = false := by simp [State.entryHeld, hh, hm, hk]
    rw [← settleTraps_of_ready hfree hn hq]
    exact enabledEvent_some (handlerEntry_of_ready hc hfree hn hw hq)
  case deferred =>
    have hdue := dueTrap_of_deferred hj hh hd
    obtain ⟨hcid, -, -, hactive⟩ := ctxOf_inv hc
    refine (enabledEvent_some (deferredEntry_of_due hr hk hc hg hm hs hw hdue)).trans ?_
    rw [State.takeDue, hcid, hactive]
    rfl
  case issue =>
    rw [exec_of_mayIssue hi hc hm, issueAt_of_due hs hw (dueTrap_of_deferred hj hh hd)]
    rfl
  case timeout =>
    obtain ⟨-, hc', hg', hactive⟩ := ctxOf_inv hx
    obtain rfl : c = x.crew := Option.some.inj (hc.symm.trans hc')
    obtain rfl : g = x.grp := Option.some.inj (hg.symm.trans hg')
    have ho : WaitedOut s x.crew x.grp := ⟨hwait, hhalt, htrap, hjoin, hfro, hsh, since, hsince, hlong⟩
    exact ⟨_, rfl, rfl, rfl, congrArg maskOf hactive, rfl, enabledEvent_some (rendezvousTimeout_of_waitedOut hc hg ho hr hw hx hf)⟩

end Sys2Proof.Proofs
end

section
/-! SUPPORT. Cross-lane words: which groups a word waits for, and its issue in a group that no other joins (R161-R166). -/

namespace Sys2Proof.Laws

open Sys2Proof.Machine Sys2Proof.Statements

/-! ### Tables and masks over lists of lanes -/

theorem tget_map_pair {α : Type} (ls : List Nat) (f : Nat → α) (l : Nat) :
    tget (ls.map fun k => (k, f k)) l = if l ∈ ls then some (f l) else none := by
  induction ls with
  | nil => rfl
  | cons k ks ih =>
    rw [List.map_cons, tget, ih]
    by_cases h : k = l
    · simp [h]
    · simp [h, Ne.symm h]

theorem getLsbD_maskOf (ls : List Nat) (l : Nat) : (maskOf ls).getLsbD l = decide (l ∈ ls ∧ l < 64) := by
  induction ls with
  | nil => simp [maskOf]
  | cons k ks ih =>
    rw [maskOf, BitVec.getLsbD_or, ih, BitVec.getLsbD_shiftLeft, BitVec.getLsbD_one, Bool.eq_iff_iff]
    simp only [Bool.or_eq_true, Bool.and_eq_true, decide_eq_true_eq, Bool.not_eq_true', decide_eq_false_iff_not, List.mem_cons]
    rw [or_and_right (a := l = k)]
    exact or_congr_left (by omega)

/-- Flags that meet no enabled one do so one by one. -/
theorem orFlags_and_eq_zero {fs : List Flags} {en : Flags} (h : orFlags fs &&& en = 0) : ∀ f ∈ fs, f &&& en = 0 := by
  induction fs with
  | nil => simp
  | cons f fs ih =>
    rw [orFlags, BitVec.and_or_distrib_right] at h
    obtain ⟨hf, hfs⟩ := BitVec.or_eq_zero_iff.mp h
    exact List.forall_mem_cons.mpr ⟨hf, ih hfs⟩

/-! ### The lanes of a group -/

theorem groupLanes_lt {c : Crew} {g : Group} {l : Nat} (h : l ∈ c.groupLanes g) : l < c.width ∧ l < 64 := by
  simp only [Crew.groupLanes, lanesOf, List.mem_filter, List.mem_range] at h
  obtain ⟨⟨hw, hl⟩, -⟩ := h
  exact ⟨hw, BitVec.lt_of_getLsbD hl⟩

/-- The active lanes stand in their order among the lanes of the crew. -/
theorem range_filter_activeLanes (c : Crew) (g : Group) :
    (List.range c.width).filter (fun l => decide (l ∈ c.activeLanes g)) = c.activeLanes g := by
  unfold Crew.activeLanes Crew.groupLanes lanesOf
  rw [List.filter_filter, List.filter_filter]
  refine List.filter_congr fun l hl => ?_
  simp only [List.mem_filter, hl, true_and, Bool.decide_eq_true]

/-! ### The groups that a word waits for (R164) -/

/-- The other groups that hold members of tiles of the given lanes. -/
theorem mem_elsewhere {c : Ctx} {tile : Nat} {mask : DWord} {lanes known : List Nat} {g : Group} :
    g ∈ c.elsewhere tile mask lanes known ↔ g ∈ c.crew.groups ∧ g.id ∉ known ∧
      ∃ l ∈ c.crew.groupLanes g, mask.getLsbD l = true ∧ ∃ k ∈ lanes, mask.getLsbD k = true ∧ k / tile = l / tile := by
  simp [Ctx.elsewhere, List.mem_eraseDups, and_assoc]

theorem closure_extends (c : Ctx) (tile : Nat) (mask : DWord) (n : Nat) (gs : List Group) : ∃ rest, c.closure tile mask n gs = gs ++ rest := by
  induction n generalizing gs with
  | zero => exact ⟨[], (List.append_nil gs).symm⟩
  | succ n ih =>
    rw [Ctx.closure]
    split
    · exact ⟨[], (List.append_nil gs).symm⟩
    · obtain ⟨rest, hrest⟩ := ih (gs ++ _)
      exact ⟨_, hrest.trans (List.append_assoc ..)⟩

/-- The first step of the closure puts every group that holds fellow members behind those that it began with. -/
theorem closure_succ_extends (c : Ctx) (tile : Nat) (mask : DWord) (n : Nat) (gs : List Group) :
    ∃ rest, c.closure tile mask (n + 1) gs = gs ++ c.elsewhere tile mask (gs.flatMap c.crew.groupLanes) (gs.map (·.id)) ++ rest := by
  rw [Ctx.closure]
  split
  · next h => exact ⟨[], by rw [h, List.append_nil, List.append_nil]⟩
  · exact closure_extends c tile mask n _

/-- A group that holds fellow members is among those that the word brings together. -/
theorem mem_closure_of_elsewhere {c : Ctx} {tile : Nat} {mask : DWord} {n : Nat} {g : Group} (hn : 0 < n)
    (hg : g ∈ c.elsewhere tile mask (c.crew.groupLanes c.grp) [c.grp.id]) : g ∈ (c.closure tile mask n [c.grp]).drop 1 := by
  obtain ⟨n, rfl⟩ := Nat.exists_eq_succ_of_ne_zero (Nat.ne_of_gt hn)
  obtain ⟨rest, hrest⟩ := closure_succ_extends c tile mask n [c.grp]
  rw [← List.flatMap_singleton c.crew.groupLanes c.grp] at hg
  rw [hrest]
  exact List.mem_append_left rest hg

/-- Where no other group holds fellow members, the word brings none but its own together. -/
theorem closure_of_alone {c : Ctx} {tile : Nat} {mask : DWord} (h : c.elsewhere tile mask (c.crew.groupLanes c.grp) [c.grp.id] = []) (n : Nat) :
    c.closure tile mask n [c.grp] = [c.grp] := by
  rw [← List.flatMap_singleton c.crew.groupLanes c.grp] at h
  cases n with
  | zero => rfl
  | succ n =>
    have h' : c.elsewhere tile mask ([c.grp].flatMap c.crew.groupLanes) ([c.grp].map (·.id)) = [] := h
    rw [Ctx.closure, h']

/-- The other groups that the word waits for: in handler mode none, else those of the closure but its own. -/
def awaited (c : Ctx) (mask : DWord) : List Group :=
  if c.handler then [] else (c.closure (tileWidth c.crew.width c.grp.tileCode) mask c.crew.width [c.grp]).drop 1

/-! ### The parts of a cross-lane word -/

theorem illopCheck_of_legal {c : Ctx} {d : BitVec 6} {codes : List (BitVec 6)} (hd : c.badDst (Dst.ofCode d) = false)
    (hs : ∀ k ∈ codes, c.badSrc (Src.ofCode k) = false) :
    c.illopCheck ((1, c.badDst (Dst.ofCode d)) :: codes.zipIdx.map fun x => (x.2 + 2, c.badSrc (Src.ofCode x.1))) = none := by
  have hnone : ((1, c.badDst (Dst.ofCode d)) :: codes.zipIdx.map fun x => (x.2 + 2, c.badSrc (Src.ofCode x.1))).find? (·.2) = none := by
    simp only [List.find?_eq_none, List.forall_mem_cons, List.forall_mem_map]
    exact ⟨by simp [hd], fun x hx => by simp [hs x.1 (List.fst_mem_of_mem_zipIdx hx)]⟩
  rw [Ctx.illopCheck, hnone]

theorem maskTag_of_ok {c : Ctx} {m : BitVec 3} (h : m = 0 ∨ (c.regs.getS false m.toNat).tag = .m64) : c.maskTag m = none := by
  rcases h with h | h <;> simp [Ctx.maskTag, h]

theorem memberMask_of_ok {c : Ctx} {m : BitVec 3} (h : m = 0 ∨ (c.regs.getS false m.toNat).tag = .m64) :
    c.memberMask m = if m = 0 then maskOf (List.range c.crew.width) else (c.regs.getS false m.toNat).bits := by
  rcases h with h | h <;> simp [Ctx.memberMask, h]

/-- The operands of a word stand lane by lane over the active lanes. -/
theorem operands_vals {c : Ctx} {s : State} {codes : List (BitVec 6)} {o : Operands} (h : c.operands s codes = .ok o) :
    ∃ f : Nat → List RegVal, o.vals = c.active.map fun l => (l, f l) := by
  unfold Ctx.operands at h
  simp only at h
  split at h
  · obtain rfl := Except.ok.inj h
    exact ⟨_, rfl⟩
  · split at h
    · obtain rfl := Except.ok.inj h
      exact ⟨_, rfl⟩
    · split at h
      · cases h
      · obtain rfl := Except.ok.inj h
        exact ⟨_, rfl⟩

theorem operands_nil (c : Ctx) (s : State) : c.operands s [] = .ok { vals := c.active.map fun l => (l, c.laneVals l [] []), state := s } := rfl

theorem maskFail_of_ok {x : XIn} (hw : x.mask.toNat < 2 ^ x.width) (hp : ∀ l ∈ x.present, x.mask.getLsbD l = true) : x.maskFail = none := by
  have hnil : x.present.filter (fun l => !x.mask.getLsbD l) = [] := List.filter_eq_nil_iff.mpr fun l hl => by simp [hp l hl]
  simp [XIn.maskFail, Nat.div_eq_of_lt hw, hnil]

theorem xFpx_of_noFpx {c : Ctx} {rs : List (Nat × RegVal × Flags)} (h : noFpx c (orFlags (rs.map (·.2.2)))) : c.xFpx rs = [] := by
  rcases h with h | h
  · simp [Ctx.xFpx, h]
  · have hnil : rs.filter (fun r => r.2.2 &&& c.regs.fptrap.extractLsb' 0 5 != 0) = [] := List.filter_eq_nil_iff.mpr fun r hr => by
      simp [orFlags_and_eq_zero h r.2.2 (List.mem_map_of_mem hr)]
    simp only [Ctx.xFpx, hnil, List.map_nil, ite_self]

/-- The end of a word whose results are those of its own active lanes, with no enabled flag. -/
theorem xFinish_of_own {c : Ctx} {val : Nat → RegVal × Flags} (h : noFpx c (orFlags (c.active.map fun l => (val l).2))) (s : State) (d : BitVec 6) (x : XIn) :
    c.xFinish s d x (c.active.map fun l => (l, val l)) =
      .done (((s.modGrp c fun g => { g with joined := none, since := none }).pushWrite c d (c.active.map fun l => (l, (val l).1))).mergeFlags c.cid
        (orFlags (c.active.map fun l => (val l).2))) := by
  have hown : (c.active.map fun l => (l, val l)).filter (fun r => c.active.contains r.1) = c.active.map fun l => (l, val l) := by
    simp only [List.filter_eq_self, List.forall_mem_map, List.contains_iff_mem]
    exact fun l hl => hl
  have hflags : ((c.active.map fun l => (l, val l)).map fun r => (r.1, r.2.2)).map (·.2) = c.active.map fun l => (val l).2 := by
    simp [Function.comp_def]
  rw [Ctx.xFinish, hown]
  refine (finishFp_of_noFpx ?_ _ _).trans ?_
  · rwa [hflags]
  · rw [hflags]
    simp [Function.comp_def]

/-! ### A word in a group that no other joins -/

/-- What the word sees of its own group alone. -/
def ownIn (c : Ctx) (codes : List (BitVec 6)) (p : Nat) (mask : DWord) (o : Operands) : XIn :=
  { width := c.crew.width, tile := tileWidth c.crew.width c.grp.tileCode, mask := mask, present := c.active, vals := c.brings codes p o.vals }

/-- What a group brings, lane by lane. -/
theorem tget_brings {c : Ctx} {codes : List (BitVec 6)} {p : Nat} {f : Nat → List RegVal} (l : Nat) :
    tget (c.brings codes p (c.active.map fun l => (l, f l))) l = if l ∈ c.active then some ((f l).getD 0 {},
      (if (codes.drop 1).any fun k => (Src.ofCode k).isConst then mkVal .n64 (if (codes.drop 1).any fun k => Src.ofCode k == .one then 1 else 0)
       else (f l).getD 1 {}), (c.regs.lane l).getP p) else none := by
  rw [Ctx.brings, List.map_map]
  exact tget_map_pair c.active (fun l => ((f l).getD 0 {}, _, (c.regs.lane l).getP p)) l

section Word

variable {c : Ctx} {s : State} {d : BitVec 6} {codes : List (BitVec 6)} {p : Nat} {m : BitVec 3} {op : XOp} {o : Operands}
  (hd : c.badDst (Dst.ofCode d) = false) (hs : ∀ k ∈ codes, c.badSrc (Src.ofCode k) = false) (hj : c.grp.joined = none)
  (ho : c.operands s codes = .ok o) (ht : c.maskTag m = none)

include hd hs hj ho ht

/-- A cross-lane word issues in its own group where its codes and mask pass, no other group is awaited, and its operation finds no failure (R161-R164). -/
theorem xWord_of_alone {val : Nat → RegVal × Flags} (hactive : c.active = c.crew.activeLanes c.grp)
    (halone : awaited c (c.memberMask m) = []) (hmask : (ownIn c codes p (c.memberMask m) o).maskFail = none)
    (hcheck : op.check (ownIn c codes p (c.memberMask m) o) = none)
    (heval : op.eval (ownIn c codes p (c.memberMask m) o) = .ok (c.active.map fun l => (l, val l)))
    (hq : noFpx c (orFlags (c.active.map fun l => (val l).2))) :
    c.xWord s d codes p m op =
      .done (((o.state.modGrp c fun g => { g with joined := none, since := none }).pushWrite c d (c.active.map fun l => (l, (val l).1))).mergeFlags c.cid
        (orFlags (c.active.map fun l => (val l).2))) := by
  have hpresent : (List.range c.crew.width).filter (fun l => (tget (c.brings codes p o.vals) l).isSome) = c.active := by
    obtain ⟨f, hf⟩ := operands_vals ho
    rw [hactive, ← range_filter_activeLanes, ← hactive, hf]
    refine List.filter_congr fun l _ => ?_
    rw [tget_brings]
    split
    · next h => simp [h]
    · next h => simp [h]
  have hfpx : c.xFpx (c.active.map fun l => (l, val l)) = [] := xFpx_of_noFpx (by rwa [List.map_map])
  unfold awaited at halone
  unfold ownIn at hmask hcheck heval
  simp only [Ctx.xWord, illopCheck_of_legal hd hs, hj, ho, ht, halone, List.map_nil, List.any_nil, Bool.false_eq_true, if_false, List.filterMap_nil,
    State.collect, List.append_nil, hpresent, hcheck, hmask, firstFail, heval, hfpx, List.head?_nil, List.foldl_nil]
  exact xFinish_of_own hq _ d _

/-- A cross-lane word waits at the rendezvous for an awaited group that has not come to it (R164). -/
theorem xWord_of_absent {g : Group} (hg : g ∈ awaited c (c.memberMask m)) (ha : s.arrived c g = none) :
    c.xWord s d codes p m op = .wait .rendezvous := by
  have hany : ((awaited c (c.memberMask m)).map (s.arrived c)).any Option.isNone = true :=
    List.any_eq_true.mpr ⟨_, List.mem_map_of_mem hg, by rw [ha]; rfl⟩
  unfold awaited at hany
  simp only [Ctx.xWord, illopCheck_of_legal hd hs, hj, ho, ht, hany, if_true]

end Word

/-! ### The statements' reading of a word's own group -/

/-- What a word works on, in the terms of the statements, with the operands found. -/
def gathered (c : Ctx) (codes : List (BitVec 6)) (p m : BitVec 3) (o : Operands) : Gathered where
  tile := tileWidth c.crew.width c.grp.tileCode
  mask := if m = 0 then maskOf (List.range c.crew.width) else (c.regs.getS false m.toNat).bits
  lanes := c.active
  a := fun l => opnd ((tget o.vals l).getD []) 0
  b := fun l => match (codes.drop 1).head?.filter fun k => (Src.ofCode k).isConst with
    | some k => mkVal .n64 (if Src.ofCode k = .one then 1 else 0)
    | none => opnd ((tget o.vals l).getD []) 1
  p := fun l => (c.regs.lane l).getP p.toNat

/-- The model's record of a word's lanes holds what the statements' one does; the B and the predicate of absent lanes apart, which no word reads. -/
structure Sees (x : XIn) (g : Gathered) : Prop where
  tile : x.tile = g.tile
  mask : x.mask = g.mask
  present : x.present = g.lanes
  a : ∀ l, x.a l = g.a l
  b : ∀ l ∈ g.lanes, x.b l = g.b l
  p : ∀ l ∈ g.lanes, x.p l = g.p l

/-- A constant B is 0 or 1 in N64, any other is the operand (R27, R167). -/
theorem constB_eq {codes : List (BitVec 6)} (h : codes.length ≤ 2) (v : RegVal) :
    (if (codes.drop 1).any fun k => (Src.ofCode k).isConst then mkVal .n64 (if (codes.drop 1).any fun k => Src.ofCode k == .one then 1 else 0) else v)
      = match (codes.drop 1).head?.filter fun k => (Src.ofCode k).isConst with
        | some k => mkVal .n64 (if Src.ofCode k = .one then 1 else 0)
        | none => v := by
  rcases codes with _ | ⟨a, _ | ⟨b, _ | ⟨e, codes⟩⟩⟩
  · rfl
  · rfl
  · cases hc : (Src.ofCode b).isConst <;> simp [Option.filter, hc]
  · simp at h

theorem ownIn_sees {c : Ctx} {s : State} {codes : List (BitVec 6)} {o : Operands} {m : BitVec 3} (hlen : codes.length ≤ 2)
    (ho : c.operands s codes = .ok o) (hm : m = 0 ∨ (c.regs.getS false m.toNat).tag = .m64) (p : BitVec 3) :
    Sees (ownIn c codes p.toNat (c.memberMask m) o) (gathered c codes p m o) := by
  obtain ⟨f, hf⟩ := operands_vals ho
  refine ⟨rfl, memberMask_of_ok hm, rfl, fun l => ?_, fun l hl => ?_, fun l hl => ?_⟩
  · simp only [XIn.a, ownIn, gathered, hf, tget_brings, tget_map_pair]
    by_cases hl : l ∈ c.active <;> simp [hl, opnd]
  · have hl : l ∈ c.active := hl
    simp only [XIn.b, ownIn, gathered, hf, tget_brings, tget_map_pair, if_pos hl]
    exact constB_eq hlen _
  · have hl : l ∈ c.active := hl
    simp only [XIn.p, ownIn, gathered, hf, tget_brings, if_pos hl]
    rfl

theorem Sees.members {x : XIn} {g : Gathered} (h : Sees x g) (l : Nat) : x.members l = g.members l := by
  simp only [XIn.members, Gathered.members, XIn.base, ← Nat.div_mul_self_eq_mod_sub_self, h.tile, h.mask]

theorem Sees.presents {x : XIn} {g : Gathered} (h : Sees x g) (l : Nat) : x.presents l = g.present l := by
  rw [XIn.presents, Gathered.present, h.members, h.present]
  exact List.filter_congr fun k _ => List.contains_eq_mem k g.lanes

/-- No other group holds a fellow member of the word's lanes. -/
theorem awaited_eq_nil {c : Ctx} {mask : DWord}
    (h : c.handler = true ∨ ∀ g ∈ c.crew.groups, g.id ≠ c.grp.id → ∀ l ∈ c.crew.groupLanes g, mask.getLsbD l = true →
      ∀ k ∈ c.crew.groupLanes c.grp, mask.getLsbD k = true → l / tileWidth c.crew.width c.grp.tileCode ≠ k / tileWidth c.crew.width c.grp.tileCode) :
    awaited c mask = [] := by
  rcases h with h | h
  · simp [awaited, h]
  · have hnone : c.elsewhere (tileWidth c.crew.width c.grp.tileCode) mask (c.crew.groupLanes c.grp) [c.grp.id] = [] := by
      refine List.eq_nil_iff_forall_not_mem.mpr fun g hg => ?_
      obtain ⟨hmem, hid, l, hl, hml, k, hk, hmk, hkl⟩ := mem_elsewhere.mp hg
      exact h g hmem (by simpa using hid) l hl hml k hk hmk hkl.symm
    rw [awaited, closure_of_alone hnone, List.drop_one, List.tail_cons, ite_self]

/-- A word given by an operation crosses as the operation computes on what its group gathers. -/
theorem crosses_of_op {i : Instr} {s : State} {c : Ctx} {d : BitVec 6} {codes : List (BitVec 6)} {p m : BitVec 3} {op : XOp} {ok : Gathered → Prop}
    {val : Gathered → Nat → RegVal × Flags} (hev : isEvent i = false) (hun : uniform i = false)
    (hb : ∀ t, wordBody i c.go t = c.go.xWord t d codes p.toNat m op) (hlen : codes.length ≤ 2)
    (hop : ∀ x g, Sees x g → ok g → op.check x = none ∧ op.eval x = .ok (g.lanes.map fun l => (l, val g l))) : Crosses i s c d codes p m ok val := by
  intro hr hj hd hs o ho mask konst vals g hm hw hin halone hok hq
  obtain ⟨hcheck, heval⟩ := hop _ g (ownIn_sees hlen ho hm p) hok
  have hmem : c.go.memberMask m = mask := memberMask_of_ok hm
  have hactive : c.active = c.crew.activeLanes c.grp := ctx?_active hr.here
  refine runs_of_lane_word (f := fun _ => State.mergeFlags _ c.cid _) hr hev hun ?_
  rw [hb]
  exact xWord_of_alone (c := c.go) (val := val g) hd hs hj ho (maskTag_of_ok hm) hactive
    (by rw [hmem]; exact awaited_eq_nil (c := c.go) halone) (maskFail_of_ok (by rw [hmem]; exact hw) (by rw [hmem]; exact hin)) hcheck heval hq

/-! ### Waiting (R14, R164) -/

/-- A word whose registers are there, and which pops nothing, is its body's result outside a shadow pair. -/
theorem wordResult_of_unpopped {i : Instr} {c : Ctx} (hwf : i.wellFormed = true) (hun : uniform i = false) (hrdy : c.unready i = false)
    (hpops : popsOf i = []) (hsh : c.crew.shadow = none) (s : State) : wordResult i c s = wordBody i c s := by
  simp [wordResult, hwf, hun, hrdy, Ctx.elementHeld, hpops, hsh]

/-- A chain group waits for what its first word waits for (R14). -/
theorem chainWait_of_first {s : State} {c : Ctx} {i : Instr} {w : Wait} (hw : wordResult i { c with ready := false } s = .wait w) (hs : w ≠ .shadow) :
    s.chainWait c i = some w := by
  obtain ⟨rest, hrest⟩ : ∃ rest, c.chainWords 2 i = (i, c) :: rest := ⟨_, rfl⟩
  simp [State.chainWait, hrest, hw, hs]

/-- A group with lanes in a tile of the word's is awaited by a word over the whole tile (R162, R164). -/
theorem mem_awaited_of_share {c : Ctx} {g : Group} {l k : Nat} (hh : c.handler = false) (hg : g ∈ c.crew.groups) (hid : g.id ≠ c.grp.id)
    (hl : l ∈ c.crew.groupLanes g) (hk : k ∈ c.crew.groupLanes c.grp)
    (heq : l / tileWidth c.crew.width c.grp.tileCode = k / tileWidth c.crew.width c.grp.tileCode) : g ∈ awaited c (c.memberMask 0) := by
  have hmask {j : Nat} {x : Group} (hj : j ∈ c.crew.groupLanes x) : (c.memberMask 0).getLsbD j = true := by
    obtain ⟨hw, h64⟩ := groupLanes_lt hj
    rw [memberMask_of_ok (.inl rfl), if_pos rfl, getLsbD_maskOf]
    exact decide_eq_true ⟨List.mem_range.mpr hw, h64⟩
  have helse : g ∈ c.elsewhere (tileWidth c.crew.width c.grp.tileCode) (c.memberMask 0) (c.crew.groupLanes c.grp) [c.grp.id] :=
    mem_elsewhere.mpr ⟨hg, by simpa using hid, l, hl, hmask hl, k, hk, hmask hk, heq.symm⟩
  rw [awaited, hh]
  exact mem_closure_of_elsewhere (Nat.zero_lt_of_lt (groupLanes_lt hk).1) helse

/-- A group that does not wait at a rendezvous has not come to the word (R164). -/
theorem arrived_of_not_waiting {g : Group} (h : g.wait ≠ some .rendezvous) (s : State) (c : Ctx) : s.arrived c g = none := by
  simp [State.arrived, h]

end Sys2Proof.Laws
end

section
/-! SUPPORT. Votes and shuffles: their operations on what a group gathers, as the statements read them (R167-R170). -/

namespace Sys2Proof.Laws

open Sys2Proof.Machine Sys2Proof.Statements

/-! ### Votes (R169, R170) -/

theorem Sees.ayes {x : XIn} {g : Gathered} (h : Sees x g) (l : Nat) : x.ayes l = (g.present l).filter g.p := by
  rw [XIn.ayes, h.presents]
  refine List.filter_congr fun k hk => h.p k ?_
  exact of_decide_eq_true (List.mem_filter.mp hk).2

/-- The members that count 1 are all of them when they are as many. -/
theorem length_ayes_beq (g : Gathered) (l : Nat) :
    (((g.present l).filter g.p).length == (g.members l).length) = decide ((g.present l).filter g.p = g.members l) := by
  have hsub : ((g.present l).filter g.p).Sublist (g.members l) := List.filter_sublist.trans List.filter_sublist
  rw [Bool.beq_eq_decide_eq]
  exact decide_eq_decide.mpr hsub.length_eq

/-- Each row of the votes is a word of XRED without operands, whose function counts as the row does. -/
theorem voteRow_word {r : (BitVec 1 → BitVec 6 → BitVec 3 → BitVec 3 → Instr) × (List Nat → List Nat → RegVal)} (hr : r ∈ voteRows)
    (ch : BitVec 1) (d : BitVec 6) (p m : BitVec 3) :
    isEvent (r.1 ch d p m) = false ∧ uniform (r.1 ch d p m) = false ∧ popsOf (r.1 ch d p m) = [] ∧
      ∃ f, (∀ c s, wordBody (r.1 ch d p m) c s = c.xWord s d [] p.toNat m (voteOp f)) ∧
        ∀ x g, Sees x g → ∀ l, f x l = r.2 (g.members l) ((g.present l).filter g.p) := by
  simp only [voteRows, List.mem_cons, List.not_mem_nil, or_false] at hr
  rcases hr with rfl | rfl | rfl | rfl
  · refine ⟨rfl, rfl, rfl, _, fun _ _ => rfl, fun x g h l => ?_⟩
    rw [h.ayes]
    cases (g.present l).filter g.p <;> rfl
  · refine ⟨rfl, rfl, rfl, _, fun _ _ => rfl, fun x g h l => ?_⟩
    simp only [h.ayes, h.members, length_ayes_beq, voteBit, decide_eq_true_eq]
  · refine ⟨rfl, rfl, rfl, _, fun _ _ => rfl, fun x g h l => ?_⟩
    rw [h.ayes, mkVal_toNat]
    rfl
  · refine ⟨rfl, rfl, rfl, _, fun _ _ => rfl, fun x g h l => ?_⟩
    simp only [h.ayes, h.members, length_ayes_beq, voteBit, List.isEmpty_iff, Bool.or_eq_true, decide_eq_true_eq]

/-! ### Shuffles (R167, R168) -/

theorem firstFail_pair_none {f g : Option XFail} (hf : f = none) (hg : g = none) : firstFail [f, g] = none := by
  rw [hf, hg]
  rfl

theorem fails_of_none {x : XIn} {k : Cause} {lanes : List Nat} {f : Nat → Option (Nat × Nat)} (h : ∀ l ∈ lanes, f l = none) : x.fails k lanes f = none := by
  have hnil : lanes.filter (fun l => (f l).isSome) = [] := List.filter_eq_nil_iff.mpr fun l hl => by simp [h l hl]
  simp only [XIn.fails, hnil]

/-- The position of R167, as the model counts it modulo the tile and as the statements' integer. -/
theorem sourcePos_up (n b t : Nat) : sourcePos 1 n b t = (((t : Int) - b) % n).toNat := by
  rcases Nat.eq_zero_or_pos n with rfl | hn
  · simp [sourcePos]
  · have hlt : b % n < n := Nat.mod_lt _ hn
    have hdiv : (n : Int) * ↑(b / n) + ↑(b % n) = b := by exact_mod_cast Nat.div_add_mod b n
    have hcast : ((t + n - b % n : Nat) : Int) = t - b + n * (1 + ↑(b / n)) := by
      rw [Int.mul_add, Int.mul_one]
      omega
    rw [sourcePos, ← Int.toNat_natCast ((t + n - b % n) % n), Int.natCast_emod, hcast, Int.add_mul_emod_self_left]

/-- Each row of the shuffles is a word of XLANE, whose number names the row's position and whether B is the lowest lane's. -/
theorem shuffleRow_word {r : (BitVec 1 → BitVec 6 → BitVec 6 → BitVec 6 → BitVec 1 → BitVec 3 → Instr) × (Nat → Nat → Nat → Int) × Bool} (hr : r ∈ shuffleRows)
    (ch : BitVec 1) (d a b : BitVec 6) (p : BitVec 1) (m : BitVec 3) :
    isEvent (r.1 ch d a b p m) = false ∧ uniform (r.1 ch d a b p m) = false ∧
      ∃ k, (∀ c s, wordBody (r.1 ch d a b p m) c s = c.xWord s d [a, b] 0 m (xlaneOp k (p == 1))) ∧
        (∀ n y t, sourcePos k n y t = (r.2.1 n y t).toNat) ∧ (k = 4 ↔ r.2.2 = true) := by
  simp only [shuffleRows, List.mem_cons, List.not_mem_nil, or_false] at hr
  rcases hr with rfl | rfl | rfl | rfl | rfl
  · exact ⟨rfl, rfl, 0, fun _ _ => rfl, fun n y t => rfl, by decide⟩
  · exact ⟨rfl, rfl, 1, fun _ _ => rfl, sourcePos_up, by decide⟩
  · exact ⟨rfl, rfl, 2, fun _ _ => rfl, fun n y t => rfl, by decide⟩
  · exact ⟨rfl, rfl, 3, fun _ _ => rfl, fun n y t => rfl, by decide⟩
  · exact ⟨rfl, rfl, 4, fun _ _ => rfl, fun n y t => rfl, by decide⟩

/-- The conditions under which a shuffle issues, on what its group gathers (R168): an integer B, no POISON read, and in the strict form a present source. -/
def ShuffleOk (f : Nat → Nat → Nat → Int) (lowest : Bool) (permissive : Bool) (g : Gathered) : Prop :=
  (∀ l ∈ g.lanes, (g.b (g.index lowest l)).tag.isInt = true)
    ∧ (∀ l ∈ g.lanes, g.source f lowest l ∈ g.present l → (g.a (g.source f lowest l)).tag ≠ .poison)
    ∧ (permissive = true ∨ ∀ l ∈ g.lanes, g.source f lowest l ∈ g.present l)

section Shuffle

variable {x : XIn} {g : Gathered} {k : Nat} {f : Nat → Nat → Nat → Int} {lowest : Bool}

theorem Sees.indexLane (h : Sees x g) (hk : k = 4 ↔ lowest = true) (l : Nat) : x.indexLane k l = g.index lowest l := by
  have hfilter : (x.present.filter fun k => k / x.tile == l / x.tile) = g.lanes.filter fun k => decide (k / g.tile = l / g.tile) := by
    rw [h.present, h.tile]
    exact List.filter_congr fun k _ => Bool.beq_eq_decide_eq ..
  simp only [XIn.indexLane, Gathered.index, hfilter, hk]

/-- The lane whose B a lane uses is active (R167). -/
theorem index_mem {l : Nat} (hl : l ∈ g.lanes) : g.index lowest l ∈ g.lanes := by
  unfold Gathered.index
  split
  · cases hh : (g.lanes.filter fun k => decide (k / g.tile = l / g.tile)).head? with
    | none => exact hl
    | some j => exact (List.mem_filter.mp (List.mem_of_mem_head? hh)).1
  · exact hl

theorem Sees.source (h : Sees x g) (hk : k = 4 ↔ lowest = true) (hf : ∀ n y t, sourcePos k n y t = (f n y t).toNat) {l : Nat} (hl : l ∈ g.lanes) :
    x.source k l = g.source f lowest l := by
  rw [XIn.source, Gathered.source, hf, h.indexLane hk, h.b _ (index_mem hl), XIn.base, ← Nat.div_mul_self_eq_mod_sub_self, h.tile]

theorem Sees.supplies (h : Sees x g) (j l : Nat) : x.supplies j l = decide (j ∈ g.present l) := by
  rw [← h.presents, Bool.eq_iff_iff, decide_eq_true_iff]
  simp [XIn.supplies, XIn.presents]

/-- The lanes whose own B is read: every one, or for BCAST the lowest of each tile (R167). -/
def ownB (x : XIn) (k : Nat) : List Nat := if k = 4 then x.present.filter fun l => x.indexLane k l == l else x.present

/-- The B that a lane reads of its own is an integer where every B read is. -/
theorem Sees.own_isInt (h : Sees x g) (hk : k = 4 ↔ lowest = true) (hB : ∀ l ∈ g.lanes, (g.b (g.index lowest l)).tag.isInt = true) {l : Nat}
    (hl : l ∈ ownB x k) : (x.b l).tag.isInt = true := by
  have hown : l ∈ g.lanes ∧ g.index lowest l = l := by
    unfold ownB at hl
    split at hl
    · obtain ⟨hmem, hindex⟩ := List.mem_filter.mp hl
      exact ⟨h.present ▸ hmem, (h.indexLane hk l).symm.trans (beq_iff_eq.mp hindex)⟩
    · next hne => exact ⟨h.present ▸ hl, by simp [Gathered.index, mt hk.mpr hne]⟩
  obtain ⟨hmem, hindex⟩ := hown
  have := hB l hmem
  rwa [hindex, ← h.b l hmem] at this

/-- Under its conditions a shuffle passes its checks and gives each lane the value of its source (R168). -/
theorem xlaneOp_of_ok (h : Sees x g) (hk : k = 4 ↔ lowest = true) (hf : ∀ n y t, sourcePos k n y t = (f n y t).toNat) {permissive : Bool}
    (hok : ShuffleOk f lowest permissive g) :
    (xlaneOp k permissive).check x = none ∧ (xlaneOp k permissive).eval x = .ok (g.lanes.map fun l =>
      (l, if g.source f lowest l ∈ g.present l then { g.a (g.source f lowest l) with pend := none } else { bits := 0, tag := (g.a l).tag }, 0)) := by
  obtain ⟨hB, hA, hstrict⟩ := hok
  have hmem {l : Nat} (hl : l ∈ x.present) : l ∈ g.lanes := h.present ▸ hl
  refine ⟨firstFail_pair_none (fails_of_none fun l hl => ?poison) (fails_of_none fun l hl => ?tag), ?eval⟩
  case poison =>
    refine (if_neg fun hown => ?_).trans (if_neg fun hread => ?_)
    · obtain ⟨hmine, hpoison⟩ := Bool.and_eq_true_iff.mp hown
      have hint := h.own_isInt hk hB (List.contains_iff_mem.mp hmine)
      rw [beq_iff_eq.mp hpoison] at hint
      exact Bool.false_ne_true hint
    · rw [h.source hk hf (hmem hl), h.supplies, h.a] at hread
      simp only [Bool.and_eq_true, decide_eq_true_eq, beq_iff_eq] at hread
      obtain ⟨⟨-, hsrc⟩, hpoison⟩ := hread
      exact hA l (hmem hl) hsrc hpoison
  case tag => rw [h.own_isInt hk hB hl, if_pos rfl]
  case eval =>
    have hnil : g.lanes.filter (fun l => !permissive && !x.supplies (x.source k l) l) = [] := by
      refine List.filter_eq_nil_iff.mpr fun l hl => ?_
      rw [h.source hk hf hl, h.supplies]
      rcases hstrict with hp | hstrict
      · simp [hp]
      · simp [hstrict l hl]
    simp only [xlaneOp, h.present, hnil]
    refine congrArg Except.ok (List.map_congr_left fun l hl => ?_)
    simp only [h.source hk hf hl, h.supplies, h.a, decide_eq_true_eq]

end Shuffle

end Sys2Proof.Laws

namespace Sys2Proof.Proofs

open Sys2Proof.Machine Sys2Proof.Statements Sys2Proof.Laws

/-- Settles O11: each vote's operation has no check, and counts what its row counts. -/
theorem voteResults : Obligations.VoteResults := by
  intro r hr s c ch d p m
  obtain ⟨hev, hun, -, f, hb, hf⟩ := voteRow_word hr ch d p m
  refine crosses_of_op hev hun (hb c.go) (Nat.zero_le 2) fun x g hx _ => ⟨rfl, ?_⟩
  show Except.ok (x.present.map fun l => (l, f x l, 0)) = _
  simp only [hx.present, hf x g hx]

/-- Settles O10: each shuffle under its conditions, by the lane that its row reads. -/
theorem shuffleResults : Obligations.ShuffleResults := by
  intro r hr s c ch d a b p m
  obtain ⟨hev, hun, k, hb, hf, hk⟩ := shuffleRow_word hr ch d a b p m
  refine crosses_of_op hev hun (hb c.go) (Nat.le_refl 2) fun x g hx ⟨hB, hA, hp⟩ => ?_
  exact xlaneOp_of_ok hx hk hf ⟨hB, hA, hp.imp_left beq_iff_eq.mpr⟩

/-- Settles O12: the vote itself waits for the group that has not come, so its chain group does, and parks. -/
theorem rendezvousWaits : Obligations.RendezvousWaits := by
  intro r hr s c g ch d p hc hm hsh hwf hs hj hh hrdy hd hg hid hwait ⟨l, hl, k, hk, hshare⟩
  obtain ⟨hev, hun, hpops, f, hb, -⟩ := voteRow_word hr ch d p 0
  have hword : wordResult (r.1 ch d p 0) { c with ready := false } s = .wait .rendezvous := by
    rw [wordResult_of_unpopped (c := { c with ready := false }) hwf hun hrdy hpops hsh, hb]
    exact xWord_of_absent hd (by simp) hj (operands_nil _ s) (maskTag_of_ok (.inl rfl)) (mem_awaited_of_share hh hg hid hl hk hshare)
      (arrived_of_not_waiting hwait s _)
  rw [exec_of_mayIssue hev hc hm, issueAt_of_wait hs (chainWait_of_first hword (by decide))]
  rfl

end Sys2Proof.Proofs
end

section
/-! SUPPORT. The steps of a tile queue: what holds its head back, and how the head begins, engages a twin and completes (R174, R175, R182, R183, R192, R202). -/

namespace Sys2Proof.Laws

open Sys2Proof.Machine

/-- The head of a side's queue is its first entry. -/
theorem tileHead_of_queue {s : State} {bid side : Nat} {b : Block} {e : TileEnt} {rest : List TileEnt} (hb : tget s.blocks bid = some b)
    (hq : (b.side side).queue = e :: rest) : s.tileHead bid side = some e := by
  simp [State.tileHead, hb, hq]

theorem tilesRun_of_running {b : Block} (h : b.state = .running) : b.tilesRun = true := beq_iff_eq.mpr h

/-- An operation whose crew has performed the stores and acquiring accesses before it waits for nothing (R193, R196, R251, R267). -/
theorem tileStoresDue_of_performed {s : State} {e : TileEnt}
    (h : ∀ c, tget s.crews e.crew = some c → (∀ x ∈ c.storeQ, e.seq ≤ x.id) ∧ s.acquireDue c e.seq = false) : s.tileStoresDue e = false := by
  unfold State.tileStoresDue
  cases hc : tget s.crews e.crew with
  | none => rfl
  | some c =>
    obtain ⟨hstores, hacq⟩ := h c hc
    have hstored : (c.storeQ.any fun x => decide (x.id < e.seq)) = false :=
      List.any_eq_false.mpr fun x hx => by simpa using hstores x hx
    simp only [hstored, hacq, Bool.and_false, Bool.or_false]

/-- Only ACCST and STT write memory: an operation that acts as a whole meets no store on its way to a vault. -/
theorem tileVaultDue_of_whole {e : TileEnt} (h : e.op.byRows = false) (s : State) (b : Block) (side : Nat) : s.tileVaultDue b side e = false := by
  unfold State.tileVaultDue
  cases hop : e.op
  case mma | mchk | tcvt => exact Bool.and_false _
  all_goals
    rw [hop] at h
    cases h

/-- The head begins, unless it is a twin MMA, which its entry in the follower's queue may hold back (R175, R183). -/
theorem tileStart_of_head {s : State} {bid side : Nat} {b : Block} {e : TileEnt} (hb : tget s.blocks bid = some b) (he : s.tileHead bid side = some e)
    (hrun : b.state = .running) (hs : e.started = false) (hg : e.guest = false) (hr : s.tileReplays e = false) (hd : s.tileStoresDue e = false)
    (htwin : ∀ base ta tb sa sb ftb fsb nl mv neg acd, e.op ≠ .mma base ta tb sa sb ftb fsb nl mv neg acd true) :
    s.tileStart bid side = some (s.modTileHead bid side fun t => { t with started := true }) := by
  -- simp takes the arm of every other operation, htwin being the side condition under which the match comes to it
  simp only [State.tileStart, hb, he, hs, hg, tilesRun_of_running hrun, hr, hd, Bool.not_true, Bool.or_false, Bool.false_eq_true, if_false]

/-- A twin MMA at the head of the leader's queue enters the follower's (R183). -/
theorem mmaEngage_of_head {s : State} {bid : Nat} {b : Block} {e : TileEnt} {base nl mv : Nat} {ta tb : DWord} {sa sb ftb fsb : Option DWord}
    {neg acd : Bool} (hb : tget s.blocks bid = some b) (he : s.tileHead bid 0 = some e) (hop : e.op = .mma base ta tb sa sb ftb fsb nl mv neg acd true)
    (hrun : b.state = .running) (hs : e.engaged = false) (hr : s.tileReplays e = false) :
    let now := (b.side 1).queue.isEmpty
    s.mmaEngage bid = some ((s.modTileHead bid 0 fun t => { t with engaged := true, started := now }).modSide bid 1
      fun sd => { sd with queue := sd.queue ++ [({ e with guest := true, started := now } : TileEnt)] }) := by
  simp only [State.mmaEngage, hb, he, hop, hs, tilesRun_of_running hrun, hr, Bool.not_true, Bool.or_false, Bool.false_eq_true, if_false]

/-- A head that has begun completes; one that goes by rows where the block runs and no store is on its way to what it writes (R175, R202). -/
theorem tileComplete_of_head {s : State} {bid side : Nat} {b : Block} {e : TileEnt} (hb : tget s.blocks bid = some b)
    (he : s.tileHead bid side = some e) (hs : e.started = true) (hg : e.guest = false)
    (hrows : e.op.byRows = true → b.state = .running ∧ s.tileVaultDue b side e = false) :
    let S := (s.recordOf b.launch).tileBytes
    let u := if e.op.byRows then s.tileRows bid side S (e.op.rowCount S - e.rows) else s.tileWhole b side e
    let e' := (u.tileHead bid side).getD e
    s.tileComplete bid side = some ((u.tileLeave bid side e').accstReport b side e') := by
  have hstop : (e.op.byRows && !b.tilesRun) = false ∧ s.tileVaultDue b side e = false := by
    cases hbr : e.op.byRows with
    | false => exact ⟨rfl, tileVaultDue_of_whole hbr s b side⟩
    | true =>
      obtain ⟨hrun, hdue⟩ := hrows hbr
      exact ⟨by rw [tilesRun_of_running hrun]; rfl, hdue⟩
  obtain ⟨hhalt, hdue⟩ := hstop
  simp only [State.tileComplete, hb, he, hs, hg, hhalt, hdue, Bool.not_true, Bool.or_false, Bool.false_eq_true, if_false]

/-! ### MCHK -/

/-- A change of a crew outside a shadow pair is made in that crew alone. -/
theorem modBoth_alone {s : State} {cid : Nat} {c : Crew} (hc : tget s.crews cid = some c) (ha : c.shadow = none) (f : Crew → Crew) :
    s.modBoth cid f = s.modCrew cid f := by
  simp [State.modBoth, hc, ha]

/-- No shadow waits for the values of a crew outside a pair (R464). -/
theorem fillLv_alone {c : Crew} (h : c.shadow = none) (s : State) (op lane : Nat) (v w : RegVal) : s.fillLv c op lane v w = s := by
  simp [State.fillLv, State.modLvq, State.modFollower, h]

theorem settle_shadow (w : Crew) (id : Nat) : (w.settle id).shadow = w.shadow := rfl
theorem deliverS_shadow (w : Crew) (id : Nat) (x : RegVal) : (w.deliverS id x).shadow = w.shadow := rfl

/-- MCHK delivers the status of its side to its crew and clears it (R192). -/
theorem tileWhole_mchk {e : TileEnt} {d : Nat} {c : Crew} {s : State} (hop : e.op = .mchk d) (hc : tget s.crews e.crew = some c) (ha : c.shadow = none)
    (b : Block) (side : Nat) :
    let m := (b.side side).mchk
    s.tileWhole b side e = ((s.modSide b.id side fun sd => { sd with mchk := {} }).modCrew e.crew
      fun w => (w.deliverS e.seq { bits := BitVec.ofNat 64 (m.fail + m.skip * 2 ^ 16 + m.fbase * 2 ^ 32 + m.frow * 2 ^ 38), tag := .n64 }).settle e.seq) := by
  intro m
  have hc' : tget (s.modSide b.id side fun sd => { sd with mchk := {} }).crews e.crew = some c := by rw [modSide_crews, hc]
  have hdet : s.detectWhole b side e = s := by simp only [State.detectWhole, hop]
  simp only [State.tileWhole, hdet, hop, modBoth_alone hc' ha, tget_modCrew_same hc']
  rw [fillLv_alone (by rw [settle_shadow, deliverS_shadow, ha])]
  rfl

end Sys2Proof.Laws

namespace Sys2Proof.Proofs

open Sys2Proof.Machine Sys2Proof.Laws

/-- Settles O19: each step of a tile queue that its head allows takes place, and MCHK by what it does as a whole. -/
theorem tileOperationsRun : Obligations.TileOperationsRun := by
  refine ⟨fun s bid side b e rest hb hq hrun hs hg hr hd htwin => ?begins, fun s bid b e rest base nl mv ta tb sa sb ftb fsb neg acd hb hq hop hrun hs hr => ?engages,
    fun s bid side b e rest hb hq hs hg => ?completes, fun s b side e d c hop hc ha => tileWhole_mchk hop hc ha b side⟩
  case begins => exact enabledEvent_some (tileStart_of_head hb (tileHead_of_queue hb hq) hrun hs hg hr (tileStoresDue_of_performed hd) htwin)
  case engages => exact enabledEvent_some (mmaEngage_of_head hb (tileHead_of_queue hb hq) hop hrun hs hr)
  case completes => exact fun hrows => enabledEvent_some (tileComplete_of_head hb (tileHead_of_queue hb hq) hs hg hrows)

end Sys2Proof.Proofs
end

section
/-! SUPPORT. Tile words and MMA: the checks of each at issue, and the operation that then enters the tile queue (R174, R178-R181, R187-R195, R266). -/

namespace Sys2Proof.Laws

open Sys2Proof.Machine Sys2Proof.Statements

/-! ### Operand checks -/

/-- An operand that is not POISON and whose tag its check accepts. -/
def Accepted (o : Nat × RegVal × (Tag → Bool)) : Prop := o.2.1.tag ≠ .poison ∧ o.2.2 o.2.1.tag = true

/-- The check of scalar operands passes when each is accepted (R57, R112). -/
theorem scalarCheck_of_accepted {c : Ctx} {ops : List (Nat × RegVal × (Tag → Bool))} (h : ∀ o ∈ ops, Accepted o) : c.scalarCheck ops = none := by
  have hpoison : ops.find? (fun o => o.2.1.tag == .poison) = none := List.find?_eq_none.mpr fun o ho => by simp [(h o ho).1]
  have htag : ops.find? (fun o => !o.2.2 o.2.1.tag) = none := List.find?_eq_none.mpr fun o ho => by simp [(h o ho).2]
  simp only [Ctx.scalarCheck, hpoison, htag]

theorem addressCheck_of_accepted {c : Ctx} {ops : List (Nat × RegVal × (Tag → Bool))} (h : ∀ o ∈ ops, Accepted o) : c.addressCheck ops = none := by
  rw [Ctx.addressCheck, scalarCheck_of_accepted h, Option.map_none]

theorem accepted_isInt {k : Nat} {x : RegVal} (h : x.tag.isInt = true) : Accepted (k, x, Tag.isInt) := by
  refine ⟨fun hp => ?_, h⟩
  rw [hp] at h
  cases h

/-- A scalar that may hold a geometry word passes the check of one (R186). -/
theorem accepted_geometry {k : Nat} {x : RegVal} (h : geometryTag x) : Accepted (k, x, Tag.isGeometry) := by
  rcases h with h | h <;> simp [Accepted, h, Tag.isGeometry]

/-- MOVTS takes an integer or a RAW scalar (R188). -/
theorem accepted_record {k : Nat} {x : RegVal} (h : x.tag.isInt = true ∨ x.tag = .raw) : Accepted (k, x, fun t => t.isInt || t == .raw) := by
  rcases h with h | h
  · obtain ⟨hp, -⟩ := accepted_isInt (k := k) h
    exact ⟨hp, Bool.or_eq_true_iff.mpr (.inl h)⟩
  · simp [Accepted, h]

/-! ### The tile queue -/

/-- An operation that enters the tile queue, in the words of the statement (R174). -/
theorem enqueueTile_eq (s : State) (c : Ctx) (op : TileOp) : s.enqueueTile c op = tileEntered s c op := rfl

/-- A load-value entry is awaited in a shadow pair alone (R464). -/
theorem awaitLv_alone {w : Crew} (h : w.shadow = none) (s : State) (op : Nat) (lanes : List Nat) : s.awaitLv w op lanes = s := by
  simp [State.awaitLv, State.modLvq, State.modFollower, h]

/-! ### MCTL (R187-R192) -/

theorem bodyMovts_of_valid {c : Ctx} {t : BitVec 4} {a : BitVec 5} (ha : (c.getS a).tag.isInt = true ∨ (c.getS a).tag = .raw)
    (ht : t.toNat < (ownSide c).tileCount) (hv : (Shape.ofBits (c.getS a).bits).valid (ownSide c).tileCount (tileBytesOf c) = true) (s : State) :
    bodyMovts t a c s = .done (s.setShape c.blk.id c.crew.side t.toNat (c.getS a).bits) := by
  have hcheck : c.scalarCheck [(2, c.getS a, fun x => x.isInt || x == .raw)] = none :=
    scalarCheck_of_accepted (List.forall_mem_singleton.mpr (accepted_record ha))
  have hv' : (Shape.ofBits (c.getS a).bits).valid c.side.tileCount c.record.tileBytes = true := hv
  have ht' : ¬c.side.tileCount ≤ t.toNat := Nat.not_le.mpr ht
  simp only [bodyMovts, hcheck, hv', ht', decide_false, Bool.not_true, Bool.or_false, Bool.false_eq_true, if_false]

theorem bodyMovst_of_some {c : Ctx} {t : BitVec 4} {r : DWord} (h : (ownSide c).shapes[t.toNat]? = some r) (ha : c.crew.shadow = none) (d : BitVec 5) (s : State) :
    bodyMovst d t c s = .done (s.writeS c d { bits := r, tag := .n64 }) := by
  have h' : c.side.shapes[t.toNat]? = some r := h
  simp only [bodyMovst, h', mkVal_toNat, recordS_alone ha]
  rfl

theorem bodyMovst_of_none {c : Ctx} {t : BitVec 4} (h : (ownSide c).shapes[t.toNat]? = none) (d : BitVec 5) (s : State) :
    bodyMovst d t c s = .trap (c.fail .bounds c.active) := by
  have h' : c.side.shapes[t.toNat]? = none := h
  simp only [bodyMovst, h']

theorem bodyAccz_of_valid {c : Ctx} {a : BitVec 5} {g : AccGeo} (ha : geometryTag (c.getS a))
    (hg : AccGeo.ofBits (c.getS a).bits (accBytes c.blk c.record) = some g) (s : State) : bodyAccz a c s = .done (tileEntered s c (.accz g)) := by
  have hcheck : c.scalarCheck [(2, c.getS a, Tag.isGeometry)] = none := scalarCheck_of_accepted (List.forall_mem_singleton.mpr (accepted_geometry ha))
  simp only [bodyAccz, hcheck, hg, enqueueTile_eq]

theorem bodyTzero_of_view {c : Ctx} {t : BitVec 4} {r : DWord} (h : (ownSide c).view (tileBytesOf c) t.toNat = some r) (s : State) :
    bodyTzero t c s = .done (tileEntered s c (.tzero r)) := by
  have h' : c.side.view c.record.tileBytes t.toNat = some r := h
  simp only [bodyTzero, h', enqueueTile_eq]

theorem bodyMchk_of_not_template {c : Ctx} (ht : c.blk.template = false) (ha : c.crew.shadow = none) (d : BitVec 5) (s : State) :
    bodyMchk d c s = .done (tileEntered (s.writeS c d { tag := .n64, pend := some c.crew.nextOp }) c (.mchk d.toNat)) := by
  simp only [bodyMchk, ht, Bool.false_eq_true, if_false, awaitLv_alone ha, enqueueTile_eq]

theorem bodyTcvt_of_view {c : Ctx} {t f : BitVec 4} {old : DWord} (h : (ownSide c).view (tileBytesOf c) t.toNat = some old) (hf : (Shape.ofBits old).fmt ≠ 10)
    (hn : (Shape.ofBits (recordWithFmt old f)).rows * (Shape.ofBits (recordWithFmt old f)).pitch ≤ tileBytesOf c) (x : BitVec 1) (m : BitVec 2) (s : State) :
    bodyTcvt t x m f c s = .done (tileEntered (s.setShape c.blk.id c.crew.side t.toNat (recordWithFmt old f)) c
      (.tcvt old (recordWithFmt old f) (if m = 0 then 0 else if m = 1 then 1 else (c.regs.fpmode.extractLsb' 0 2).toNat) (m == 3) (x == 1))) := by
  have hm : m = 0 ∨ m = 1 ∨ m = 2 ∨ m = 3 := by
    revert m
    decide
  have h' : c.side.view c.record.tileBytes t.toNat = some old := h
  have hn' : ¬c.record.tileBytes < (Shape.ofBits (recordWithFmt old f)).rows * (Shape.ofBits (recordWithFmt old f)).pitch := Nat.not_lt.mpr hn
  simp only [bodyTcvt, h', if_neg hf, if_neg hn', enqueueTile_eq]
  rcases hm with rfl | rfl | rfl | rfl <;> rfl

/-! ### ACCLD and ACCST (R193-R195) -/

theorem bodyAccld_of_ok {c : Ctx} {s : State} {d a : BitVec 5} {p : BitVec 1} {g : AccGeo} {sp : Span} (hd : geometryTag (c.getS d))
    (ha : (c.getS a).tag.isInt = true) (hg : AccGeo.ofBits (c.getS d).bits (accBytes c.blk c.record) = some g)
    (hal : (c.getS a).toAddress.toNat % g.fmt.bytes = 0) (hp : g.pitch % g.fmt.bytes = 0) (hrow : g.cols * g.fmt.bytes ≤ g.pitch)
    (hsp : s.spanAt c p.toNat (c.getS a).toAddress ((g.rows - 1) * g.pitch + g.cols * g.fmt.bytes) false = .ok sp) :
    bodyAccld d a p c s = .done (tileEntered s c (.accld g sp)) := by
  have hcheck : c.addressCheck [(1, c.getS d, Tag.isGeometry), (2, c.getS a, Tag.isInt)] = none :=
    addressCheck_of_accepted (List.forall_mem_cons.mpr ⟨accepted_geometry hd, List.forall_mem_singleton.mpr (accepted_isInt ha)⟩)
  simp only [bodyAccld, hcheck, hg, hal, hp, Nat.not_lt.mpr hrow, hsp, enqueueTile_eq, ne_eq, not_true_eq_false, decide_false, Bool.or_false,
    Bool.false_eq_true, if_false]

/-- Whether an ACCST reads a parameter block, as the word's test and as the statement's (R194). -/
theorem accstPar_eq (q y : BitVec 1) (t : BitVec 2) : (q == 1 || y == 1 || t == 2) = decide (q = 1 ∨ y = 1 ∨ t = 2) := by
  revert q y t
  decide

theorem bodyAccst_of_ok {c : Ctx} {s : State} {d a b : BitVec 5} {y q p u : BitVec 1} {f : BitVec 3} {t : BitVec 2} {g : AccGeo} {sp : Span}
    (hd : geometryTag (c.getS d)) (ha : (c.getS a).tag.isInt = true) (hb : q = 1 ∨ y = 1 ∨ t = 2 → (c.getS b).tag.isInt = true)
    (hg : AccGeo.ofBits (c.getS d).bits (accBytes c.blk c.record) = some g) :
    let par := q = 1 ∨ y = 1 ∨ t = 2
    let e := ofmtBytes f.toNat
    let row := g.cols * (1 + u.toNat) * e
    let pa := if par then (c.getS b).toAddress.toNat else 0
    (c.getS a).toAddress.toNat % e = 0 → g.pitch % e = 0 → pa % 16 = 0 → row ≤ g.pitch →
    pa + (if par then 16 + 4 * g.cols * (q.toNat + y.toNat) else 0) ≤ c.blk.ts + c.blk.p + c.blk.ch →
    s.spanAt c p.toNat (c.getS a).toAddress ((g.rows - 1) * g.pitch + row) true = .ok sp → ∀ x : BitVec 1,
    bodyAccst d a b x y q p u f t c s
      = .done (tileEntered s c (.accst g sp (c.getS a).toAddress pa t.toNat f.toNat (u == 1) (q == 1) (y == 1) (x == 1))) := by
  intro par e row pa hal hpitch hpa hrow hlen hsp x
  have hcheck : c.addressCheck (if par then [(1, c.getS d, Tag.isGeometry), (2, c.getS a, Tag.isInt)] ++ [(3, c.getS b, Tag.isInt)]
      else [(1, c.getS d, Tag.isGeometry), (2, c.getS a, Tag.isInt)]) = none := by
    have hda : ∀ o ∈ [(1, c.getS d, Tag.isGeometry), (2, c.getS a, Tag.isInt)], Accepted o :=
      List.forall_mem_cons.mpr ⟨accepted_geometry hd, List.forall_mem_singleton.mpr (accepted_isInt ha)⟩
    refine addressCheck_of_accepted ?_
    split
    · next hpar => exact List.forall_mem_append.mpr ⟨hda, List.forall_mem_singleton.mpr (accepted_isInt (hb hpar))⟩
    · exact hda
  have hlen' : ¬c.blk.spadSize < pa + (if par then 16 + 4 * g.cols * (q.toNat + y.toNat) else 0) := Nat.not_lt.mpr hlen
  have hrow' : ¬g.pitch < row := Nat.not_lt.mpr hrow
  simp only [bodyAccst, accstPar_eq, decide_eq_true_eq]
  simp only [par, e, row, pa] at hcheck hal hpitch hpa hrow' hlen' hsp ⊢
  simp only [hcheck, hg, hal, hpitch, hpa, hrow', hlen', hsp, enqueueTile_eq, ne_eq, not_true_eq_false, decide_false, Bool.or_false,
    Bool.false_eq_true, if_false]

/-! ### LDT and STT (R266) -/

theorem tileMove_of_ok {c : Ctx} {s : State} {t : BitVec 4} {a b : BitVec 5} {p : BitVec 2} {write : Bool} {r : DWord} {sp : Span}
    (ha : (c.getS a).tag.isInt = true) (hb : (c.getS b).tag.isInt = true) (hr : (ownSide c).view (tileBytesOf c) t.toNat = some r) :
    let h := Shape.ofBits r
    let e := fmtBytes h.fmt
    let pitch := (c.getS b).toInteger
    (c.getS a).toAddress.toNat % e = 0 → pitch % (e : Int) = 0 → ((h.cols * e : Nat) : Int) ≤ pitch →
    s.spanAt c p.toNat (c.getS a).toAddress ((h.rows - 1) * pitch.toNat + h.cols * e) write = .ok sp →
    s.tileMove c t a b p write = .ok (r, sp, pitch.toNat) := by
  intro h e pitch hal hpitch hrow hsp
  have hcheck : c.addressCheck [(2, c.getS a, Tag.isInt), (3, c.getS b, Tag.isInt)] = none :=
    addressCheck_of_accepted (List.forall_mem_cons.mpr ⟨accepted_isInt ha, List.forall_mem_singleton.mpr (accepted_isInt hb)⟩)
  have hr' : c.side.view c.record.tileBytes t.toNat = some r := hr
  have hrow' : ¬pitch < ((h.cols * e : Nat) : Int) := Int.not_lt.mpr hrow
  simp only [h, e, pitch] at hal hpitch hrow' hsp
  simp only [State.tileMove, hcheck, hr', hal, hpitch, hrow', hsp, ne_eq, not_true_eq_false, decide_false, Bool.or_false, Bool.false_eq_true, if_false]
  rfl

theorem bodyLdt_of_move {c : Ctx} {s : State} {t : BitVec 4} {a b : BitVec 5} {p : BitVec 2} {r : DWord} {sp : Span} {pitch : Nat}
    (h : s.tileMove c t a b p false = .ok (r, sp, pitch)) : bodyLdt t a b p c s = .done (tileEntered s c (.ldt r sp pitch)) := by
  simp only [bodyLdt, h, enqueueTile_eq]

theorem bodyStt_of_move {c : Ctx} {s : State} {t : BitVec 4} {a b : BitVec 5} {p : BitVec 2} {r : DWord} {sp : Span} {pitch : Nat}
    (h : s.tileMove c t a b p true = .ok (r, sp, pitch)) : bodyStt t a b p c s = .done (tileEntered s c (.stt r sp pitch)) := by
  simp only [bodyStt, h, enqueueTile_eq]

/-! ### MMA (R178-R181) -/

/-- A view with the scale view that the statement gives it is the tile's, and its scales are not misused (R180, R181). -/
theorem mmaView_of_scale {sd : Side} {S t : Nat} {r : DWord} {sc : Option DWord} (hv : sd.view S t = some r) (hs : mmaScale sd S (Shape.ofBits r) sc) :
    sd.mmaView S t = some { tb := r, sb := sc } ∧ MmaSide.scaleMisuse { tb := r, sb := sc } = false := by
  cases sc with
  | none =>
    have hk : (Shape.ofBits r).scale = 15 := hs
    exact ⟨by simp [Side.mmaView, hv, Side.scaleView, hk], rfl⟩
  | some x =>
    obtain ⟨hk, hx, hx10, hfmt⟩ := hs
    refine ⟨by simp [Side.mmaView, hv, Side.scaleView, hk, hx], ?_⟩
    rcases hfmt with h | h | h <;> simp [MmaSide.scaleMisuse, hx10, h]

/-- A scale view, where one is used, has at least so many rows and columns (R180). -/
theorem scaleHolds_iff (r : Option DWord) (rows cols : Nat) :
    scaleHolds r rows cols = true ↔ ∀ x, r = some x → rows ≤ (Shape.ofBits x).rows ∧ cols ≤ (Shape.ofBits x).cols := by
  cases r <;> simp [scaleHolds, viewHolds]

/-- A view and its scale view of the sizes that the statement gives them. -/
theorem views_hold {r : DWord} {sc : Option DWord} {rows cols srows scols : Nat}
    (h : ∀ x, some r = some x → rows ≤ (Shape.ofBits x).rows ∧ cols ≤ (Shape.ofBits x).cols)
    (hs : ∀ x, sc = some x → srows ≤ (Shape.ofBits x).rows ∧ scols ≤ (Shape.ofBits x).cols) :
    viewHolds r rows cols = true ∧ scaleHolds sc srows scols = true :=
  ⟨(scaleHolds_iff (some r) rows cols).mpr h, (scaleHolds_iff sc srows scols).mpr hs⟩

/-- What an MMA that reads k columns of A requires of the views that it captures: A's, B's on the word's own side, and with T the follower's view of B (R178-R181). -/
structure MmaFits (va vb : MmaSide) (follower : Option MmaSide) (k mv nl : Nat) : Prop where
  reads : mmaK (Shape.ofBits va.tb).fmt (Shape.ofBits vb.tb).fmt = k
  legal : k ≠ 0
  alike : ∀ v ∈ vb :: follower.toList, (Shape.ofBits v.tb).fmt = (Shape.ofBits vb.tb).fmt ∧ v.sb.isSome = vb.sb.isSome
  scaled : ∀ v ∈ va :: vb :: follower.toList, v.scaleMisuse = false
  holdsA : viewHolds va.tb mv k = true ∧ scaleHolds va.sb mv (k / 32) = true
  holdsB : ∀ v ∈ vb :: follower.toList, viewHolds v.tb k nl = true ∧ scaleHolds v.sb (k / 32) nl = true

/-- What the word and the crew's side must be for the views that an MMA captures: with T, a twin's leader, and the follower's view is valid (R181, R183). -/
structure MmaViews (c : Ctx) (a t : BitVec 4) (w : BitVec 1) (va vb : MmaSide) (follower : Option MmaSide) : Prop where
  ownA : c.side.mmaView c.record.tileBytes a.toNat = some va
  ownB : c.side.mmaView c.record.tileBytes t.toNat = some vb
  leads : w = 1 → c.blk.isTwin = true ∧ c.crew.side = 0 ∧ follower.isSome = true
  other : (if w = 1 then (c.blk.side 1).mmaView c.record.tileBytes t.toNat else none) = follower

theorem bodyMma_of_fits {c : Ctx} {a t : BitVec 4} {w : BitVec 1} {va vb : MmaSide} {follower : Option MmaSide} (hv : MmaViews c a t w va vb follower)
    {b n : BitVec 6} {m : BitVec 2} {k : Nat} :
    let mv := 64 * 2 ^ m.toNat
    let nl := if w = 1 then 16 * (n.toNat + 1) / 2 else 16 * (n.toNat + 1)
    MmaFits va vb follower k mv nl → b.toNat * 16384 + mv * nl * (mmaAcc (Shape.ofBits va.tb).fmt).bytes ≤ accBytes c.blk c.record →
    ∀ (g z : BitVec 1) (s : State), bodyMma b a t n m g z w c s = .done (tileEntered s c
      (.mma b.toNat va.tb vb.tb va.sb vb.sb (follower.map (·.tb)) (follower.bind (·.sb)) nl mv (g == 1) (z == 1) (w == 1))) := by
  intro mv nl hfits hacc g z s
  have hlead : (w == 1 && (!c.blk.isTwin || c.crew.side != 0)) = false ∧ (w == 1 && follower.isNone) = false := by
    by_cases hw : w = 1
    · obtain ⟨htwin, hside, hsome⟩ := hv.leads hw
      simp [htwin, hside, Option.isNone_eq_false_iff.mpr hsome]
    · simp only [beq_eq_false_iff_ne.mpr hw, Bool.false_and, and_self]
  obtain ⟨hleader, hvalid⟩ := hlead
  have hlegal : ((vb :: follower.toList).any fun v => (Shape.ofBits v.tb).fmt != (Shape.ofBits vb.tb).fmt || v.sb.isSome != vb.sb.isSome) = false :=
    List.any_eq_false.mpr fun v hm => by simp [hfits.alike v hm]
  have hscaled : (va :: vb :: follower.toList).any MmaSide.scaleMisuse = false :=
    List.any_eq_false.mpr fun v hm => by simp [hfits.scaled v hm]
  have hholds : ((vb :: follower.toList).all fun v => viewHolds v.tb k nl && scaleHolds v.sb (k / 32) nl) = true :=
    List.all_eq_true.mpr fun v hm => Bool.and_eq_true_iff.mpr (hfits.holdsB v hm)
  obtain ⟨hviewA, hscaleA⟩ := hfits.holdsA
  have hacc' := Nat.not_lt.mpr hacc
  simp only [mv, nl] at hholds hacc' hviewA hscaleA
  simp only [bodyMma, beq_iff_eq, hv.other, hv.ownA, hv.ownB, hleader, hvalid, hfits.reads, hfits.legal, hlegal, hscaled, hviewA, hscaleA, hholds, hacc',
    decide_false, Bool.or_false, Bool.and_true, Bool.not_true, Bool.false_eq_true, if_false, enqueueTile_eq]
  rfl

end Sys2Proof.Laws

namespace Sys2Proof.Proofs

open Sys2Proof.Machine Sys2Proof.Statements Sys2Proof.Laws

section Mma

variable {s : State} {c : Ctx} {ch : BitVec 1} {b n : BitVec 6} {a t : BitVec 4} {m : BitVec 2} {g z : BitVec 1} {va vb : MmaSide} {k : Nat}

/-- An MMA without T captures the views of its own side alone (R178-R181). -/
theorem mma_runs (hr : Ready s (.mma ch b a t n m g z 0) c) (ha : c.active ≠ []) (hva : (ownSide c).mmaView (tileBytesOf c) a.toNat = some va)
    (hvb : (ownSide c).mmaView (tileBytesOf c) t.toNat = some vb) (hf : MmaFits va vb none k (64 * 2 ^ m.toNat) (16 * (n.toNat + 1)))
    (hacc : b.toNat * 16384 + 64 * 2 ^ m.toNat * (16 * (n.toNat + 1)) * (mmaAcc (Shape.ofBits va.tb).fmt).bytes ≤ accBytes c.blk c.record) :
    Runs (.mma ch b a t n m g z 0) s c fun u =>
      tileEntered u c (.mma b.toNat va.tb vb.tb va.sb vb.sb none none (16 * (n.toNat + 1)) (64 * 2 ^ m.toNat) (g == 1) (z == 1) false) := by
  have hviews : MmaViews c.go a t 0 va vb none := { ownA := hva, ownB := hvb, leads := fun h => absurd h (by decide), other := rfl }
  exact runs_of_done hr rfl (fun _ => ha) (bodyMma_of_fits hviews hf hacc g z _)

/-- An MMA with T captures the follower's view of B too, and each side takes half of the columns (R178, R181, R183). -/
theorem mmaTwin_runs {vf : MmaSide} (hr : Ready s (.mma ch b a t n m g z 1) c) (ha : c.active ≠ []) (htwin : c.blk.isTwin = true) (hside : c.crew.side = 0)
    (hva : (ownSide c).mmaView (tileBytesOf c) a.toNat = some va) (hvb : (ownSide c).mmaView (tileBytesOf c) t.toNat = some vb)
    (hvf : (c.blk.side 1).mmaView (tileBytesOf c) t.toNat = some vf) (hf : MmaFits va vb (some vf) k (64 * 2 ^ m.toNat) (16 * (n.toNat + 1) / 2))
    (hacc : b.toNat * 16384 + 64 * 2 ^ m.toNat * (16 * (n.toNat + 1) / 2) * (mmaAcc (Shape.ofBits va.tb).fmt).bytes ≤ accBytes c.blk c.record) :
    Runs (.mma ch b a t n m g z 1) s c fun u =>
      tileEntered u c (.mma b.toNat va.tb vb.tb va.sb vb.sb (some vf.tb) vf.sb (16 * (n.toNat + 1) / 2) (64 * 2 ^ m.toNat) (g == 1) (z == 1) true) := by
  have hviews : MmaViews c.go a t 1 va vb (some vf) := { ownA := hva, ownB := hvb, leads := fun _ => ⟨htwin, hside, rfl⟩, other := hvf }
  exact runs_of_done hr rfl (fun _ => ha) (bodyMma_of_fits hviews hf hacc g z _)

end Mma

/-- Settles O57: each word through its body with the checks passed, and MMA with the views that it captures. -/
theorem tileAndMmaWordsEnter : Obligations.TileAndMmaWordsEnter := by
  refine ⟨⟨fun s c ch t a hr ha => ?movts, fun s c ch d t hr ha => ?movst, fun s c ch a g hr ha => ?accz, fun s c ch t r hr ha => ?tzero,
    fun s c ch d hr ha ht => ?mchk, fun s c ch t x m f old hr ha hv hf => ?tcvt, fun s c ch d a p g sp hr ha => ?accld, fun s c ch d a b x y q p u f t g sp => ?accst,
    fun s c ch t a b p r sp ha hA hB hv => ?moves⟩, fun s c ch b a t n m g z ra rb sa sb ha hva hvb => ?mma⟩
  case movts => exact fun hA ht hv => runs_of_done hr rfl (fun _ => ha) (bodyMovts_of_valid (c := c.go) hA ht hv _)
  case movst =>
    exact ⟨fun r h => runs_of_done hr rfl (fun _ => ha) (bodyMovst_of_some (c := c.go) h hr.alone d _),
      fun h => traps_of_trap hr rfl (fun _ => ha) (bodyMovst_of_none (c := c.go) h d _)⟩
  case accz => exact fun hA hg => runs_of_done hr rfl (fun _ => ha) (bodyAccz_of_valid (c := c.go) hA hg _)
  case tzero => exact fun hv => runs_of_done hr rfl (fun _ => ha) (bodyTzero_of_view (c := c.go) hv _)
  case mchk => exact runs_of_done hr rfl (fun _ => ha) (bodyMchk_of_not_template (c := c.go) ht hr.alone d _)
  case tcvt => exact fun hn => runs_of_done hr rfl (fun _ => ha) (bodyTcvt_of_view (c := c.go) hv hf hn x m _)
  case accld => exact fun hD hA hg hal hp hrow hsp => runs_of_done hr rfl (fun _ => ha) (bodyAccld_of_ok (c := c.go) hD hA hg hal hp hrow hsp)
  case accst =>
    exact fun hr ha hD hA hB hg hal hp hpa hrow hlen hsp =>
      runs_of_done hr rfl (fun _ => ha) (bodyAccst_of_ok (c := c.go) hD hA hB hg hal hp hpa hrow hlen hsp x)
  case moves =>
    exact fun hal hp hrow => ⟨fun hr hsp => runs_of_done hr rfl (fun _ => ha) (bodyLdt_of_move (tileMove_of_ok (c := c.go) hA hB hv hal hp hrow hsp)),
      fun hr hsp => runs_of_done hr rfl (fun _ => ha) (bodyStt_of_move (tileMove_of_ok (c := c.go) hA hB hv hal hp hrow hsp))⟩
  case mma =>
    refine fun hsa hsb hk hA hsA => ⟨fun hr hB hsB hacc => ?own, fun rf sf hr htwin hside hvf hsf hfmt hsome hB hsB hacc => ?twin⟩
    all_goals
      obtain ⟨hmA, husedA⟩ := mmaView_of_scale hva hsa
      obtain ⟨hmB, husedB⟩ := mmaView_of_scale hvb hsb
    case own =>
      have hfits : MmaFits ⟨ra, sa⟩ ⟨rb, sb⟩ none _ (64 * 2 ^ m.toNat) (16 * (n.toNat + 1)) := {
        reads := rfl
        legal := hk
        alike := by simp
        scaled := by simp [husedA, husedB]
        holdsA := views_hold hA hsA
        holdsB := List.forall_mem_singleton.mpr (views_hold hB hsB) }
      exact mma_runs (va := ⟨ra, sa⟩) (vb := ⟨rb, sb⟩) hr ha hmA hmB hfits hacc
    case twin =>
      obtain ⟨hmF, husedF⟩ := mmaView_of_scale hvf hsf
      have hfits : MmaFits ⟨ra, sa⟩ ⟨rb, sb⟩ (some ⟨rf, sf⟩) _ (64 * 2 ^ m.toNat) (16 * (n.toNat + 1) / 2) := {
        reads := rfl
        legal := hk
        alike := by simp [hfmt, hsome]
        scaled := by simp [husedA, husedB, husedF]
        holdsA := views_hold hA hsA
        holdsB := List.forall_mem_cons.mpr ⟨views_hold (hB rb (by simp)) (hsB sb (by simp)),
          List.forall_mem_singleton.mpr (views_hold (hB rf (by simp)) (hsB sf (by simp)))⟩ }
      exact mmaTwin_runs (va := ⟨ra, sa⟩) (vb := ⟨rb, sb⟩) (vf := ⟨rf, sf⟩) hr ha htwin hside hmA hmB hmF hfits hacc

end Sys2Proof.Proofs
end
